-- ==== Sys2Proof/Word.lean ====
section
/-!
DEFINITION. The word types of the model: what the manual treats as bits is a bit vector.
-/
namespace Sys2Proof

/-- A 64-bit register or datum (R74, R90). -/
abbrev Word := BitVec 64

/-- One byte. -/
abbrev Byte := BitVec 8

end Sys2Proof
end

