-- ==== Sys2Proof/Machine/RegNames.lean ====
section
/-!
DEFINITION. The names of the device's software-visible registers and counters, as Register Map
(spec/31_register_map.md, Tables 31-2, 31-3 and 31-6) lists them, and the reset value of each register.
`Reg.X_Y` is register Y of block X. An index selects the element: an array register's element number, row-major over
its dimensions, with the copy of a POD or NET block as the first dimension; `Reg.addr` in RegMap.lean gives the
address of each element.
-/
namespace Sys2Proof.Machine

/-- The registers of Register Map (R645 to R654), by block and name. -/
inductive Reg where
  | POD_CORE_CTL
  | POD_SUPERVISOR
  | POD_PARK_CTL
  | POD_CLK_CFG
  | POD_CLK_STATUS
  | POD_SUPV_EVT
  | POD_SLOT_HANDLER
  | NET_GROUP_CFG
  | NET_TUN_UDP
  | NET_SYNCE_CFG
  | NET_PORT_CFG
  | NET_PORT_STATUS
  | NET_PORT_FC
  | NET_TS_CORR
  | NET_TXTS_PI
  | NET_TXTS_CI
  | NET_PROFILE_CFG
  | NET_PROFILE_SEL
  | NET_DSCP_MAP
  | NET_LANE_CFG
  | NET_LANE_STATUS
  | NET_LANE_PRBS
  | NET_LANE_MARGIN
  | NET_EL_CFG
  | NET_EL_STATUS
  | NET_TXTS
  | HOST_PORT_CFG
  | HOST_PORT_STATUS
  | DMA_CHAN_CFG
  | DMA_CHAN_CTL
  | DMA_CHAN_STATE
  | DMA_CHAN_STATUS_ADDR
  | DMA_INST_CHAN
  | MIG_STATE
  | BUF_HBM_PARTITION
  | BUF_ADM_LOCK
  | BUF_SPILL_CFG
  | BUF_POOL_CFG
  | BUF_ONCHIP_FREE
  | BUF_DEEP_FREE_PAGES
  | BUF_MOULT_DTB
  | BUF_IAP_CFG
  | BUF_SLOT_STATE
  | TM_LIFETIME
  | TM_PORT_HOLD
  | TM_HOST_NODE
  | TM_INST_NODE
  | TM_RQ_QUEUE
  | TM_QPROF
  | TM_WRED_PROF
  | TM_NODE2
  | TM_NODE3
  | TM_NODE4
  | TM_SHAPE1
  | TM_SHAPE2
  | TM_SHAPE3
  | TM_SHAPE4
  | TM_SHAPE5
  | TM_TOKENS1
  | TM_TOKENS2
  | TM_TOKENS3
  | TM_TOKENS4
  | TM_TOKENS5
  | TM_Q_CFG
  | STATS_EPOCH_CTL
  | STATS_EPOCH_SWITCH_DTB
  | STATS_EPOCH_PERIOD
  | TABLE_T1_CFG
  | TABLE_REMOTE_CFG
  | TABLE_SHARD_MAP
  | TABLE_BULK_BASE
  | TABLE_BULK_CFG
  | TABLE_BULK_PI
  | TABLE_BULK_CI
  | TABLE_BULK_STATUS
  | TABLE_NOTE_BASE
  | TABLE_NOTE_CFG
  | TABLE_NOTE_PI
  | TABLE_NOTE_CI
  | TABLE_DESC_CFG
  | TABLE_DESC_CAP
  | TABLE_DESC_SEQ
  | TABLE_AGE_CFG
  | TABLE_LEARN_CFG
  | CRYPTO_NOTE_BASE
  | CRYPTO_NOTE_CFG
  | CRYPTO_NOTE_PI
  | CRYPTO_NOTE_CI
  | STM_FW_STATUS
  | MGT_SMB_CFG
  | MGT_SMB_STATUS
  | MGT_I2C_CFG
  | MGT_I2C_STATUS
  | MGT_ARB_LOG
  | MGT_MOD_MAP
  | MGT_MOD_STATUS
  | MGT_MOD_FLAGS
  | MGT_AVS_RAIL
  | MGT_AVS_READ
  | EYE_CTL
  | EYE_THROT
  | EYE_CH_CFG
  | EYE_THR
  | EYE_COND
  | EYE_LAST
  | EYE_GOOD
  | FCOL_STATUS
  | FCOL_FPSW
  | FCOL_LOCK
  | FCOL_ACK
  | FCOL_LOG_PI
  | FCOL_PART_ISO
  | FCOL_ROUTER_ISO
  | FCOL_PC_RETIRED
  | FCOL_ACTION
  | GRP_CFG
  | GRP_STATUS
  | GRP_DIGEST
  | GRP_LEADER_DIGEST
  | GRP_TIME_OFFSET
  | GRP_GQ_BASE
  | PWR_STATE
  | PWR_CTL
  | PWR_WAKE_CFG
  | PWR_PARK_CFG
  | PWR_AVS_CFG
  | PWR_AVS_STATUS
  | TIME_DTB
  | TIME_STEP
  | TIME_ADJ
  | TIME_CTL
  | RST_STRAPS
  | RST_START
  | RST_WARM_CTL
  | RST_CHRY_STATUS
  | RST_START_REF
  | RST_MILESTONE
  | FUSE_STATUS
  | FUSE_ROLLBACK
  | FUSE_SENSE_TJ
  | FUSE_SENSE_DTB
  | FUSE_WORD_STATE
  | FUSE_VALUE
  | IDE_STREAM
  | HBM_PC_STATUS
  | ROB_USED
  | TOK_POD_LOAD
  | LU_STATUS
  | XSPI_STATUS
  | CLK_PLL_STATUS
  | QE_LEDGER_BASE
  | QE_LEDGER_SIZE
  | QE_LEDGER_ACK
  | QE_LEDGER_STATUS
  | QE_LEDGER_SEQ
  | QE_INST_ARB
  | QE_QCTX_CFG
  | QE_QCTX_ARB
  | QE_QCTX_STATE
  | QE_QCTX_CTL
  | QE_QCTX_BASE
  | QE_QCTX_HWB
  | QE_QCTX_PI
  | QE_QCTX_CI
  | QE_QCTX_DONE
  | QE_CQCTX_BASE
  | QE_CQCTX_CFG
  | QE_CQCTX_FLAGS
  | QE_CQCTX_STATE
  | QE_EQCTX_BASE
  | QE_EQCTX_CFG
  | QE_EQCTX_FLAGS
  | QE_EQCTX_STATE
  | QE_QPAGE
  | QE_DB_LAST_REJECT
  | INST_PF_MODE
  | INST_EQUAL_NODE
  | INST_PF_ALLOT
  | INST_EQUAL_RSV
  | INST_STATE
  | INST_SUB_CFG
  | INST_INFLIGHT
  | INST_SUB_TOKENS
  | INST_RANGE
  | MBX_TX_MSG
  | MBX_TX_CFG
  | MBX_TX_CTL
  | MBX_TX_STATUS
  | MBX_RX_MSG
  | MBX_RX_INFO
  | MBX_RX_TAKE
  | MBX_SHM_BASE
  | MBX_SHM_CFG
  | MBX_T_TX_MSG
  | MBX_T_TX_CFG
  | MBX_T_TX_CTL
  | MBX_T_TX_STATUS
  | MBX_T_RX_MSG
  | MBX_T_RX_INFO
  | MBX_T_RX_TAKE
  | EVT_RAISED
  | EVT_ROUTE
  | EVT_VEC_MOD
  | EVT_IROUTE
  | EVT_VF_VEC_MOD
  | NVME_CONN_CFG
  | NVME_CONN_RESYNC
  | NVME_CPAGE
  | BLK_ID
  | BLK_STATUS
  | BLK_IGNORED
  | BLK_LAST_ADDR
deriving DecidableEq, Repr

/-- The counters of Register Map (R648), by block and name. -/
inductive Ctr where
  | POD_PROG_FAULT_CNT
  | POD_NOTE_DROP
  | NET_RX_FRAMES
  | NET_RX_BYTES
  | NET_TX_FRAMES
  | NET_TX_BYTES
  | NET_RX_OVERSIZE
  | NET_RX_RUNT
  | NET_RX_FCS
  | NET_RX_FIFO
  | NET_RX_ADMIT
  | NET_RX_MACCTL
  | NET_RX_PAUSE
  | NET_TX_PAUSE
  | NET_PFC_STORM
  | NET_TX_ABORT
  | NET_TXTS_DROP
  | NET_LOS_CNT
  | NET_CDR_LOSS
  | NET_LOCK_FAIL
  | NET_HIST_REJECT
  | NET_SH_ERR
  | NET_PRBS_ERR
  | NET_PRBS_BITS
  | NET_FEC_CW_CORR
  | NET_FEC_SYM_CORR
  | NET_FEC_CW_UNCORR
  | NET_EL_TX_MSG
  | NET_EL_RX_MSG
  | NET_EL_TX_BYTES
  | NET_EL_RX_BYTES
  | NET_EL_CRC_ERR
  | NET_EL_CHK_ERR
  | NET_EL_BAD_BTYPE
  | NET_EL_REPLAY
  | NET_EL_DUP
  | NET_EL_MAP_ERR
  | NET_EL_QUAL_FAIL
  | NET_EL_DOWN
  | HOST_STALE_CPL
  | HOST_CPL_TIMEOUT
  | HOST_BAD_ACCESS
  | HOST_POISON_RX
  | HOST_DETACH_CNT
  | DMA_CHAN_WR_BYTES
  | DMA_CHAN_RD_BYTES
  | DMA_RD_ERR
  | DMA_STALE_DROP
  | DMA_WR_NO_INST
  | DMA_WR_DATA_ERR
  | DMA_ABORT_CNT
  | DMA_FLUSH_FAIL_CNT
  | HDRI_CSUM_SKIP
  | HDRE_CSUM_SKIP
  | BUF_ACCEPT_CNT
  | BUF_INFLIGHT
  | BUF_DISP_CNT_PORT
  | BUF_XOFF_CNT
  | BUF_ADM_REORDER_FULL
  | BUF_EXPIRED_PRECOMMIT
  | BUF_SPILL_BYTES
  | BUF_UNSPILL_BYTES
  | BUF_PROG_CNT
  | TM_Q_ENQ_BYTES
  | TM_Q_TX_BYTES
  | TM_Q_LIMIT_DROP
  | TM_Q_WRED_DROP
  | TM_Q_DEEP_DROP
  | TM_Q_EXPIRED
  | TM_Q_HOLD_DROP
  | TM_Q_DEEP_LOST
  | STATS_LATE_UPDATES
  | TABLE_LK_LOOKUPS
  | TABLE_LK_HITS
  | TABLE_LK_ERR
  | TABLE_T1_FILL_CNT
  | TABLE_FILL_VOID_CNT
  | TABLE_CAS_FAIL
  | TABLE_ATOMIC_MISS
  | TABLE_REMOTE_FAIL_CNT
  | TABLE_TWR_FAIL
  | TABLE_CNT_MISS
  | TABLE_LEARN_SUPPRESSED
  | TABLE_NOTE_DROP
  | CRYPTO_CW_ERR
  | CRYPTO_NOTE_DROP
  | CRYPTO_TX_EXHAUSTED
  | CRYPTO_TX_PROT_PKTS
  | CRYPTO_TX_PROT_OCTETS
  | CRYPTO_VERDICT_CNT
  | CRYPTO_SAUP_DUP
  | CRYPTO_SAUP_LATE
  | CRYPTO_SAUP_NO_SA
  | STM_SEC_REFUSED
  | MGT_ARB_LOST
  | MGT_BUS_TMO
  | MGT_BUS_RECOVER
  | MGT_PAGE_RACE
  | MGT_SMB_PEC_ERR
  | MGT_MCTP_DROP
  | EYE_CROSS_CNT
  | EYE_CLIP_CNT
  | SWY_DROP_ABSENT
  | FCOL_SUPPRESSED
  | FCOL_LOG_LOST
  | GRP_GBL_RX
  | GRP_GBL_CRC_ERR
  | GRP_GBL_EDGE
  | GRP_GBL_OVERRUN
  | GRP_RENDEZVOUS_CNT
  | GRP_FWD_TX
  | GRP_FWD_RX
  | GRP_FWD_REFUSED
  | GRP_FWD_DUP
  | GRP_FWD_HOLD_DROP
  | RST_CHRY_FWD
  | RST_CHRY_UNFWD
  | QE_DB_REJECT
  | QE_Q_ERROR_CNT
  | QE_DESC_FETCHED
  | QE_DISP_CNT_INST
  | QE_CQ_FULL_CNT
  | QE_EQ_DROP
  | INST_DRAIN_FORCED
  | INST_VIEW_WRITE
  | MBX_POST_DROP
  | MBX_SEND_BUSY
  | MBX_T_SEND_BUSY
  | NVME_PLACED_BYTES
  | NVME_HDGST_ERR
  | NVME_DDGST_ERR
  | NVME_FALLBACK_SEG
  | NVME_CID_MISS
  | NVME_TX_UNSYNCED
  | CMT_DISCARDED
  | CMT_RESENT
deriving DecidableEq, Repr

/-- The reset value that the Reset column of a register's field map assembles (R647); registers without a field map
reset to 0 except where their chapter says otherwise. -/
def Reg.resetBase : Reg → Nat
  | .POD_CORE_CTL => 0xFF080000
  | .POD_CLK_CFG => 0x8987D0
  | .NET_GROUP_CFG => 0x500
  | .NET_TUN_UDP => 0x17C112B5
  | .NET_PORT_CFG => 0x240000000000
  | .NET_PORT_FC => 0xC8FFFF
  | .NET_LANE_CFG => 0x40
  | .NET_EL_CFG => 0xA003E
  | .HOST_PORT_CFG => 0x560032
  | .DMA_CHAN_CFG => 0x20
  | .BUF_HBM_PARTITION => 0xC0C
  | .BUF_SPILL_CFG => 0x10000
  | .BUF_POOL_CFG => 0x4000
  | .BUF_ONCHIP_FREE => 0x60000
  | .BUF_DEEP_FREE_PAGES => 0x500000
  | .BUF_IAP_CFG => 0x80040400000040
  | .TM_LIFETIME => 0xC8
  | .TM_PORT_HOLD => 0xA
  | .TM_QPROF => 0x10001000
  | .TM_NODE2 => 0x10000
  | .TM_NODE3 => 0x10000
  | .TM_NODE4 => 0x10000
  | .TM_SHAPE1 => 0xA0040000000
  | .TM_SHAPE2 => 0xA0040000000
  | .TM_SHAPE3 => 0xA0040000000
  | .TM_SHAPE4 => 0xA0040000000
  | .TM_SHAPE5 => 0xA0040000000
  | .TM_Q_CFG => 0x10000
  | .TABLE_T1_CFG => 0x200004
  | .TABLE_REMOTE_CFG => 0x4
  | .TABLE_BULK_CFG => 0x1900
  | .TABLE_AGE_CFG => 0x303E8
  | .TABLE_LEARN_CFG => 0x3E80000
  | .MGT_SMB_CFG => 0x41
  | .MGT_SMB_STATUS => 0x30
  | .MGT_I2C_CFG => 0x1900004
  | .EYE_THROT => 0x640
  | .EYE_CH_CFG => 0x24
  | .EYE_THR => 0xA4B2828
  | .FCOL_ACTION => 0x339C30C1
  | .GRP_STATUS => 0x10000001
  | .PWR_STATE => 0x82
  | .PWR_WAKE_CFG => 0x64003C7
  | .PWR_PARK_CFG => 0x181
  | .PWR_AVS_CFG => 0x640
  | .TIME_CTL => 0x10A
  | .FUSE_STATUS => 0x3FF0000
  | .QE_INST_ARB => 0x10
  | .QE_QCTX_CFG => 0xC
  | .QE_QCTX_ARB => 0x801
  | .INST_SUB_CFG => 0x400000010000000
  | .MBX_TX_CFG => 0xC8
  | .MBX_SHM_CFG => 0xC
  | .MBX_T_TX_CFG => 0xC8
  | .NVME_CONN_CFG => 0x400
  | _ => 0

/-- The island of block `b` (Table 31-1); block 0 has a copy in each pod. -/
def blkIsland (b : Nat) : Nat :=
  if b = 0 then 0 else if b ≤ 4 then 15 + b else if b ≤ 14 then 20 else if b ≤ 22 then 21 else if b ≤ 24 then 22
  else if b = 25 then 23 else if b ≤ 30 then 24 else 25

/-- The block of header number `i`. Headers are numbered: pod `i` for `i` below 16; 15 + b for the other blocks; and
64 + 4096 × b + inst for the header that a per-instance block has in each instance (R73). -/
def hdrBlk (i : Nat) : Nat := if i < 16 then 0 else if i < 64 then i - 15 else (i - 64) / 4096

/-- The reset value of element `i` of a register. The registers whose reset value depends on the element stand first:
NET.DSCP_MAP (R218), EVT.ROUTE (Table 20-5), INST.STATE and HOST.PORT_STATUS (their Reset columns, with HOSTBIF
latched as 0 at power-up, notes/assumptions/3.md), EYE.CH_CFG and EYE.THR (Tables 28-3 and 28-5, the safe-default
grade MDY-4832-C of Table 26-2), TM.SHAPE_TOKENS (R276) and BLK_ID (Table 03-4). -/
def Reg.reset (r : Reg) (i : Nat) : Nat :=
  match r with
  | .NET_DSCP_MAP => (i % 8) * 2396745
  | .EVT_ROUTE => if 0x500 ≤ i ∧ i ≤ 0x56F then 8 else 0
  | .INST_STATE => if i < 2 then 1 else 0
  | .HOST_PORT_STATUS => if i = 0 then 1 else 0
  | .EYE_CH_CFG => if i < 16 then 0x24 else 0x20
  | .EYE_THR => if i < 14 then 0x573645F else if i < 16 then 0x5695F55 else 0xA4B2828
  | .TM_TOKENS1 => 16384
  | .TM_TOKENS2 => 16384
  | .TM_TOKENS3 => 16384
  | .TM_TOKENS4 => 16384
  | .TM_TOKENS5 => 16384
  | .BLK_ID => if i < 16 then i * 0x100 else if i < 20 then (i - 15) + i * 0x100 else hdrBlk i + 0x100 * blkIsland (hdrBlk i)
  | r => r.resetBase

end Sys2Proof.Machine
end

