-- ==== Sys2Proof/Machine/Names.lean ====
section
/-!
DEFINITION. The names that commands carry as operands: who makes an access, what an access names, and the result
windows of the device.
-/
namespace Sys2Proof.Machine

/-- Who makes a register access (R75): a PCIe function (by its instance: PF p is instance p, R329), the steward, or the
CSR port of a pod. -/
inductive Requester where
  | fn (inst : Fin 2052)
  | steward
  | pod (p : Fin 16)
deriving DecidableEq, Repr

/-- A code of a requester, for keys. -/
def Requester.code : Requester → Nat
  | .fn i => i.val
  | .steward => 2052
  | .pod p => 2053 + p.val

/-- The result windows: TABLE.TAW, CRYPTO.CW, INST.IW, MIG.MW, GRP.GW, MGT.TW, EYE.SW, NET EYE, the 16 steward windows
(mailboxes 0 to 7, secure channels 8 to 15) and FUSE.PW. -/
inductive WinId where
  | taw (w : Fin 5)
  | cw (w : Fin 5)
  | iw (p : Fin 4)
  | mw (p : Fin 4)
  | gw
  | tw
  | sw
  | eye (n : Fin 4)
  | stm (m : Fin 16)
  | pw
deriving DecidableEq, Repr

/-- A code of a window, for keys. -/
def WinId.code : WinId → Nat
  | .taw w => w.val
  | .cw w => 8 + w.val
  | .iw p => 16 + p.val
  | .mw p => 24 + p.val
  | .gw => 32
  | .tw => 33
  | .sw => 34
  | .eye n => 40 + n.val
  | .stm m => 48 + m.val
  | .pw => 64

/-- The header index (R73) of the block that holds a window. -/
def WinId.header : WinId → Nat
  | .taw _ => 15 + 23
  | .cw _ => 15 + 25
  | .iw _ => 15 + 8
  | .mw _ => 15 + 12
  | .gw => 15 + 32
  | .tw => 15 + 27
  | .sw => 15 + 28
  | .eye n => 16 + n.val
  | .stm _ => 15 + 26
  | .pw => 15 + 36

/-- The island of the block that holds a window. -/
def WinId.island : WinId → Nat
  | .taw _ => 22
  | .cw _ => 23
  | .iw _ => 20
  | .mw _ => 20
  | .gw => 25
  | .tw => 24
  | .sw => 24
  | .eye n => 16 + n.val
  | .stm _ => 24
  | .pw => 24

/-- The block offset of a window (Table 31-2, R440, R565). -/
def WinId.offset : WinId → Nat
  | .taw w => 0x1000 + 0x400 * w.val
  | .cw w => 0x1000 + 0x400 * w.val
  | .iw p => 0x1000 + 0x1000 * p.val
  | .mw p => 0x1000 + 0x1000 * p.val
  | .stm m => if m.val < 8 then 0x1000 + 0x400 * m.val else 0
  | .pw => 0x4000
  | _ => 0x1000

/-- What a register access names: element `i` of a register; the open or the closed bank of a counter; the 64-bit register at an offset
of a result window; a 64-bit word of an entry of FCOL.LOG. -/
inductive Target where
  | reg (r : Reg) (i : Nat)
  | ctr (c : Ctr) (i : Nat)
  | closed (c : Ctr) (i : Nat)
  | win (w : WinId) (off : Nat)
  | log (slot : Fin 256) (word : Fin 4)
deriving DecidableEq, Repr

/-- A guard of an NGL instruction (R116): a predicate and its negation. -/
structure Guard where
  p   : Fin 8
  neg : Bool
deriving DecidableEq, Repr, Inhabited

/-- The immediate of an I-format instruction (R117, R125): IMM12, or the 34 bits of the extended form. -/
inductive ImmI where
  | base (v : BitVec 12)
  | ext (v : BitVec 34)
deriving DecidableEq, Repr

/-- The immediate of CMPI (R126): IMM8, or the 30 bits of the extended form. -/
inductive ImmC where
  | base (v : BitVec 8)
  | ext (v : BitVec 30)
deriving DecidableEq, Repr

/-- The offset of LDL and STL (R129): 9 bits, or the 31 bits of the extended form. -/
inductive ImmL where
  | base (v : BitVec 9)
  | ext (v : BitVec 31)
deriving DecidableEq, Repr

/-- The bytes that an instruction takes: 4, or 8 for an extended pair (R117). -/
def ImmI.len : ImmI → Nat
  | .base _ => 4
  | .ext _ => 8

def ImmC.len : ImmC → Nat
  | .base _ => 4
  | .ext _ => 8

def ImmL.len : ImmL → Nat
  | .base _ => 4
  | .ext _ => 8

/-- The immediate sign-extended to 64 bits (ADDI, MOVI; R125). -/
def ImmI.sext : ImmI → Word
  | .base v => v.signExtend 64
  | .ext v => v.signExtend 64

/-- The immediate zero-extended to 64 bits (ANDI, ORI, XORI, MOVHI; R125). -/
def ImmI.zext : ImmI → Word
  | .base v => v.setWidth 64
  | .ext v => v.setWidth 64

/-- The immediate of CMPI, sign-extended (R126). -/
def ImmC.sext : ImmC → Word
  | .base v => v.signExtend 64
  | .ext v => v.signExtend 64

/-- The offset of LDL and STL, sign-extended (R129). -/
def ImmL.sext : ImmL → Word
  | .base v => v.signExtend 64
  | .ext v => v.signExtend 64

end Sys2Proof.Machine
end

