-- ==== Sys2Proof/Machine/Tbl.lean ====
section
/-!
DEFINITION. Sparse tables as plain data: a list of key and value pairs in one canonical form (keys strictly rising, no
entry equal to what an unlisted key reads as), so that equal tables are equal lists.
-/
namespace Sys2Proof.Machine

/-- The value listed under key `k`. -/
def cellGet {α : Type} : List (Nat × α) → Nat → Option α
  | [], _ => none
  | (j, v) :: t, k => if j = k then some v else cellGet t k

/-- List `v` under key `k`, keeping the keys rising. -/
def cellPut {α : Type} : List (Nat × α) → Nat → α → List (Nat × α)
  | [], k, v => [(k, v)]
  | (j, w) :: t, k, v => if k < j then (k, v) :: (j, w) :: t else if k = j then (k, v) :: t else (j, w) :: cellPut t k v

/-- Unlist key `k`. -/
def cellDel {α : Type} : List (Nat × α) → Nat → List (Nat × α)
  | [], _ => []
  | (j, w) :: t, k => if j = k then cellDel t k else (j, w) :: cellDel t k

/-- Write `v` under `k` where an unlisted key reads as `d`: writing `d` unlists the key. -/
def cellSet {α : Type} [DecidableEq α] (d : α) (t : List (Nat × α)) (k : Nat) (v : α) : List (Nat × α) :=
  if v = d then cellDel t k else cellPut t k v

/-- The canonical form over a default `d` that may depend on the key: keys strictly above `lo`, rising, and no entry
equal to its default. -/
def cellsWf {α : Type} [DecidableEq α] (d : Nat → α) : Option Nat → List (Nat × α) → Bool
  | _, [] => true
  | lo, (k, v) :: t => (match lo with | none => true | some l => decide (l < k)) && decide (v ≠ d k) && cellsWf d (some k) t

/-- A table whose unlisted keys read as the element type's default value. -/
structure Tbl (α : Type) where
  cells : List (Nat × α) := []
deriving DecidableEq, Repr, Inhabited

/-- Read a table. -/
def Tbl.get {α : Type} [Inhabited α] (t : Tbl α) (k : Nat) : α := (cellGet t.cells k).getD default

/-- Write a table, keeping its canonical form. -/
def Tbl.set {α : Type} [Inhabited α] [DecidableEq α] (t : Tbl α) (k : Nat) (v : α) : Tbl α :=
  ⟨cellSet default t.cells k v⟩

/-- Change one element of a table. -/
def Tbl.modify {α : Type} [Inhabited α] [DecidableEq α] (t : Tbl α) (k : Nat) (f : α → α) : Tbl α := t.set k (f (t.get k))

/-- The keys listed (whose elements differ from the default). -/
def Tbl.keys {α : Type} (t : Tbl α) : List Nat := t.cells.map (·.1)

/-- Change every listed element. -/
def Tbl.mapListed {α : Type} [Inhabited α] [DecidableEq α] (t : Tbl α) (f : Nat → α → α) : Tbl α :=
  t.cells.foldl (fun u c => u.set c.1 (f c.1 c.2)) t

/-- The canonical form of a table. -/
def Tbl.wf {α : Type} [Inhabited α] [DecidableEq α] (t : Tbl α) : Bool := cellsWf (fun _ => default) none t.cells

end Sys2Proof.Machine
end

