-- ==== Sys2Proof/Machine/PartPod.lean ====
section
/-!
DEFINITION. The state of the pods: threads, tickets, staged effects, dispatcher ports, fault notes and program slots
(chapters 04, 05, 06).
-/
namespace Sys2Proof.Machine

/-- An edit command (Table 13-1), with the bytes that it took from LOCAL at HAPP (the edit data of R307). -/
structure EditCmd where
  cmd  : Nat := 0
  off  : Nat := 0
  len  : Nat := 0
  src  : Nat := 0
  arg  : Nat := 0
  w1   : Nat := 0
  w2   : Nat := 0
  w3   : Nat := 0
  data : List Nat := []
deriving DecidableEq, Repr, Inhabited

/-- A staged effect (Table 04-5), its record and side data taken at issue (R139). Byte strings are lists of numbers
below 256. -/
inductive Eff where
  /-- TABLE_WRITE (R194): `op` 0 INSERT, 1 MODIFY, 2 DELETE. -/
  | tableWrite (table op plen : Nat) (key res : List Nat)
  /-- CNT_ADD to an entry counter (R197). -/
  | cntEntry (table handle amount : Nat)
  /-- CNT_ADD to a program counter (R197). -/
  | cntProg (index amount : Nat)
  /-- ATOMIC with its 32-byte block (R180). -/
  | atomic (table : Nat) (blk : List Nat)
  /-- EMIT (Table 04-7) with the edit list as it stood at its issue (R104). -/
  | emit (dest dtype sa : Nat) (saValid ended : Bool) (edits : List EditCmd)
  /-- DISCARD (Table 04-7). -/
  | discard (disp sub : Nat) (ended : Bool)
  /-- DMA_WRITE of immediate bytes (R395). -/
  | dmaImm (addr inst : Nat) (data : List Nat)
  /-- DMA_WRITE of a range of the item's data (R395). -/
  | dmaRange (addr len inst off : Nat)
  /-- MBOX_POST (R436): `dir` 0 the downlink box, 1 the uplink box. -/
  | mbox (inst dir : Nat) (msg : List Nat)
  /-- CSR_WRITE (Table 05-12): block, instance and offset, 32 or 64 bits. -/
  | csr (is64 : Bool) (blk inst off data : Nat)
  /-- SA_UPDATE (R303). -/
  | saUpdate (sa pn : Nat)
  /-- EVENT (R452). -/
  | event (n : Nat)
deriving DecidableEq, Repr, Inhabited

/-- The request that a ticket carries (Table 05-10), its operands copied at issue (R132). -/
inductive TkReq where
  | none
  | lk (shadow : Bool) (table : Nat) (key : List Nat) (dst : Nat)
  | lkc
  | trd (table handle dst : Nat)
  | reach (off len dst : Nat)
  | hrd (inst addr len dst : Nat)
  | csrrd (is64 : Bool) (blk inst off dst : Nat)
  | verdict (req : List Nat) (dst : Nat)
  | saqry (req : List Nat) (dst : Nat)
deriving DecidableEq, Repr, Inhabited

/-- A response on its way to a ticket: STATUS (Table 05-9), AUX and the bytes for LOCAL. -/
structure TkResp where
  status : Nat
  aux    : Nat := 0
  bytes  : List Nat := []
deriving DecidableEq, Repr, Inhabited

/-- What an LKS left behind for LKC (R136, R182): the table, the key, the entry's handle and version tag, or that the
key was absent, and the table's WRITE_SEQ. -/
structure Shadow where
  table : Nat
  key   : List Nat
  found : Option (Nat × Nat)
  wseq  : Nat
deriving DecidableEq, Repr, Inhabited

/-- A ticket (R131): `st` 0 IDLE, 1 PENDING, 2 READY. -/
structure Ticket where
  st     : Nat := 0
  req    : TkReq := .none
  dst    : Nat := 0
  resp   : Option TkResp := Option.none
  /-- The number of the request once the unit asked has it. -/
  sent   : Nat := 0
  status : Nat := 0
  aux    : Nat := 0
  shadow : Option Shadow := Option.none
deriving DecidableEq, Repr, Inhabited

/-- What a class W wait waits for (R137, Table 05-8). -/
inductive Sleep where
  | awake
  | waitt (rd mask : Nat) (event : Bool)
  | ticket (tk rd : Nat) (peek : Bool)
deriving DecidableEq, Repr, Inhabited

/-- Worker states (Table 06-1); the supervisor runs as `bound` with no item. -/
inductive ThSt where
  | free | bound | trapped | halted | disabled
deriving DecidableEq, Repr, Inhabited

/-- A thread (Table 04-1). `g` and `p` hold g1 to g31 and p1 to p7; `loc` is private LOCAL; `code` is CODE_SIZE of the
image it runs and `bank` the instruction bank with the image's CODE base. `deadline` is in the deadline clock. -/
structure Thread where
  st    : ThSt := .free
  g     : Tbl Word := {}
  p     : Nat := 0
  tks   : Tbl Ticket := {}
  tcmp  : Nat := 0
  effs  : List Eff := []
  edits : List EditCmd := []
  loc   : Tbl Nat := {}
  pc    : Nat := 0
  code  : Nat := 0
  base  : Nat := 0
  bank  : Nat := 0
  stamp : Option Nat := none
  slot  : Nat := 0
  bound : Nat := 0
  deadline : Option Nat := none
  wake  : Bool := false
  sleep : Sleep := .awake
  /-- The fault that the handler serves: kind, address, length of the faulting instruction. -/
  fkind : Nat := 0
  faddr : Nat := 0
  flen  : Nat := 0
  /-- The trap save area (R152): g8 to g15 and p1 to p7. -/
  saveG : List Word := []
  saveP : Nat := 0
deriving DecidableEq, Repr, Inhabited

/-- The issue slots of one core (R144 to R146): the quantum owner, and the woken thread that has taken the slot. -/
structure CoreSched where
  owner  : Nat := 0
  borrow : Option Nat := none
deriving DecidableEq, Repr, Inhabited

/-- What a pod holds beside its threads and registers: the dispatcher port in arrival order (stamps), the fault-note
queue (notes of eight words, oldest first), the thread that is the supervisor now, the thread named to follow it, the
size of the supervisor's code, and whether the pod is loaded. -/
structure Pod where
  port    : List Nat := []
  notes   : List (List Nat) := []
  sup     : Nat := 0
  supNext : Option Nat := none
  supCode : Nat := 0
  loaded  : Bool := false
deriving DecidableEq, Repr, Inhabited

/-- One entry of a slot's table reference map (R107). -/
structure TRef where
  table : Option Nat := none
  rd    : Bool := false
  wr    : Bool := false
deriving DecidableEq, Repr, Inhabited

/-- A version of a program slot: its image, entry point, CODE size and base, SHARED base, budget, class, tenant
instance, owner and handler (Table 04-11, R107, R443). -/
structure SlotVer where
  image  : Nat := 0
  entry  : Nat := 0
  code   : Nat := 0
  base   : Nat := 0
  shared : Nat := 0
  budget : Nat := 100000
  tenant : Bool := false
  inst   : Nat := 0
  owner  : Nat := 0
  bank   : Nat := 0
  /-- The handler held in each pod once the version is no longer the active one (R593). -/
  handlers : List Nat := []
deriving DecidableEq, Repr, Inhabited

end Sys2Proof.Machine
end

