-- ==== Sys2Proof/Machine/PartItem.lean ====
section
/-!
DEFINITION. Items, their tokens, batches, copies and effects, and the buffer and traffic manager behind their registers
(chapters 02, 04, 11).
-/
namespace Sys2Proof.Machine

/-- A work token (Table 04-4), by field. -/
structure Token where
  source : Nat := 0
  seq    : Nat := 0
  inst   : Nat := 0
  okey   : Nat := 0
  gen    : Nat := 0
  slot   : Nat := 0
  ver    : Nat := 0
  replay : Bool := false
  len    : Nat := 0
  head   : Nat := 0
  prof   : Nat := 0
  port   : Nat := 0
  handle : Nat := 0
  queue  : Nat := 0
  index  : Nat := 0
  rxts   : Nat := 0
deriving DecidableEq, Repr, Inhabited

/-- The stamp of a token as one number: SOURCE above SEQ (Table 01-8, R458). -/
def Token.stamp (t : Token) : Nat := t.source * 2 ^ 45 + t.seq

/-- Where a copy is: staged and held by the reorder engine, in its queue on-chip, in its queue in the deep buffer,
picked and in transmission, or gone (sent, dropped or withdrawn). -/
inductive CopySt where
  | held | onchip | deep | sending | gone
deriving DecidableEq, Repr, Inhabited

/-- A copy of an item (R36, R274). `len` is its length after its edits; `hold` the end of its port or host hold. -/
structure Copy where
  dest  : Nat := 0
  dtype : Nat := 0
  sa    : Option Nat := none
  edits : List EditCmd := []
  len   : Nat := 0
  q     : Nat := 0
  st    : CopySt := .held
  hold  : Option Nat := none
  /-- Egress work done at the pick: the bytes that leave. -/
  bytes : List Nat := []
  /-- Cells of the unspill reserve that the copy holds (R263). -/
  un    : Nat := 0
deriving DecidableEq, Repr, Inhabited

/-- Where the token of an item is: held until the payload is loaded (R360), waiting at the distributor, in the dispatcher
port of a pod, bound to a thread, lost with a failed attempt and due for its reissue (R52), or complete (its batch is
complete, or the item was disposed). -/
inductive TokSt where
  | loading | waiting | atPod (p : Nat) | atThread (th : Nat) | lost | complete
deriving DecidableEq, Repr, Inhabited

/-- An incomplete batch at the commit unit (R50): the replay count it names, its records so far and its first arrival. -/
structure Batch where
  replay : Bool := false
  effs   : List Eff := []
  first  : Nat := 0
deriving DecidableEq, Repr, Inhabited

/-- An accepted item (02). `disp` is its outcome once known (disposition and subcode), `recorded` whether it has been
recorded (R46). `refused` lists the replay counts whose batch was discarded (R50). -/
structure Item where
  tok      : Token := {}
  data     : List Nat := []
  parse    : List Nat := []
  /-- Deadline of R281 in the deadline clock. -/
  deadline : Nat := 0
  /-- Admission charges (R265): accounting point, class, and cells of reserved, shared, headroom and host pool. -/
  iap      : Nat := 0
  cls      : Nat := 0
  resv     : Nat := 0
  shared   : Nat := 0
  headroom : Nat := 0
  hostCells : Nat := 0
  pst      : TokSt := .waiting
  /-- When the token was sent to its pod, in the deadline clock (R25). -/
  toPod    : Nat := 0
  batch    : Option Batch := none
  refused  : List Bool := []
  committed : Bool := false
  released : Bool := false
  copies   : List Copy := []
  /-- The item's effects that are in flight or applied, by index: true once applied (R51). -/
  disp     : Option (Nat × Nat) := none
  recorded : Bool := false
  /-- The item was accepted on the Chrysalis path (R546). -/
  chry     : Bool := false
  /-- Cells that the plain image of the current attempt holds (R300), as the item's data: reserved, shared, headroom. -/
  plain    : Nat × Nat × Nat := (0, 0, 0)
deriving DecidableEq, Repr, Inhabited

/-- A commit message on its way to the commit unit (R50). -/
structure CMsg where
  stamp  : Nat
  replay : Bool
  gen    : Nat
  pod    : Nat
  effs   : List Eff
  final  : Bool
  /-- When it was sent, in the deadline clock (R25). -/
  sent   : Nat := 0
deriving DecidableEq, Repr, Inhabited

/-- An effect REQ outstanding from the commit unit (R51). -/
structure EffReq where
  stamp : Nat
  index : Nat
  eff   : Eff
  inst  : Nat := 0
  tenant : Bool := false
  /-- The pod whose program staged it. -/
  pod   : Nat := 0
  sent  : Nat := 0
  applied : Bool := false
deriving DecidableEq, Repr, Inhabited

/-- A level-5 queue (R261 to R263, R279): the copies it holds in order, on-chip part first (stamp, copy index), and the
average of R279. -/
structure QSt where
  onchip : List (Nat × Nat) := []
  deep   : List (Nat × Nat) := []
  onBytes : Nat := 0
  deepBytes : Nat := 0
  avg    : Int := 0
deriving DecidableEq, Repr, Inhabited

/-- A shaper bucket (R275): tokens in 1/8000 byte, and the instant they were brought up to date. -/
structure Bucket where
  tokens : Int
  at_    : Nat
deriving DecidableEq, Repr, Inhabited

/-- A frame that admission is taking segment by segment (R266). -/
structure RxFrame where
  port   : Nat := 0
  iap    : Nat := 0
  cls    : Nat := 0
  bytes  : List Nat := []
  parse  : List Nat := []
  tok    : Token := {}
  taken  : Nat := 0
  resv   : Nat := 0
  shared : Nat := 0
  headroom : Nat := 0
deriving DecidableEq, Repr, Inhabited

/-- The buffer, reorder engine and traffic manager beside their registers. Keys: IAP × 8 + class for the accounting,
level × 2^18 + node for the tree. -/
structure Buf where
  nextSeq : Tbl Nat := {}
  nextHandle : Nat := 0
  resv    : Tbl Nat := {}
  shared  : Tbl Nat := {}
  headroom : Tbl Nat := {}
  hostUse : Nat := 0
  xoff    : Tbl Bool := {}
  unspill : Nat := 0
  rx      : List RxFrame := []
  qs      : Tbl QSt := {}
  deficit : Tbl Nat := {}
  rr      : Tbl Nat := {}
  bucket  : Tbl (Option Bucket) := {}
  /-- How many WRED draws have been made (the model's own: Config.draw is applied to it). -/
  draws   : Nat := 0
deriving DecidableEq, Repr, Inhabited

end Sys2Proof.Machine
end

