-- ==== Sys2Proof/Machine/PartTable.lean ====
section
/-!
DEFINITION. Tables and crypto beside their registers: entries, walks, the residency cache, the update engine (chapters
07, 08), security associations, keys and reservations (chapter 12).
-/
namespace Sys2Proof.Machine

/-- A table entry. `key` is the stored key (EXACT, LPM: the key bytes; TERNARY: VALUE; RANGE: exact part and LO), `aux`
the MASK of TERNARY and the HI bytes of RANGE. `hits` and `acc` are the open banks, the `c` fields the closed ones. -/
structure Entry where
  key    : List Nat := []
  aux    : List Nat := []
  plen   : Nat := 0
  prio   : Nat := 0
  res    : List Nat := []
  vtag   : Nat := 0
  active : Bool := false
  idle   : Nat := 0
  hits   : Nat := 0
  acc    : Nat := 0
  cHits  : Nat := 0
  cAcc   : Nat := 0
  /-- The entry's storage is lost or uncorrectable (R30, R180, R209). -/
  lost   : Bool := false
  /-- Its LOST notice is still to be written (R209). -/
  lostDue : Bool := false
  /-- The error lies in the stored key (R209). -/
  keyLost : Bool := false
deriving DecidableEq, Repr, Inhabited

/-- What a walk found: the index and entry of its match, and the table's WRITE_SEQ at that moment. -/
structure WRes where
  hit  : Option (Nat × Entry) := none
  wseq : Nat := 0
deriving DecidableEq, Repr, Inhabited

/-- A walk in flight (R163): its number, the ticket it answers, its unit, table and key or handle, whether it is a shadow
walk (LKS) or a confirm (LKC), the lines it waits for, and what it would have found at each instant so far (R177). -/
structure Walk where
  id     : Nat
  th     : Nat
  tk     : Nat
  stamp  : Nat
  unit   : Nat
  table  : Nat
  key    : List Nat := []
  handle : Option Nat := none
  shadow : Bool := false
  confirm : Option Shadow := none
  waits  : List Nat := []
  t1     : Bool := true
  /-- The member that asked, for a walk at the owner (R186); `th` then holds the number of its request. -/
  from_  : Option Nat := none
  seen   : List WRes := []
  cold   : Bool := false
deriving DecidableEq, Repr, Inhabited

/-- A write to a table (08 Model), whatever its source. -/
inductive TOp where
  | insert (n : Nat) (key aux : List Nat) (plen prio : Nat) (res : List Nat)
  | modify (n : Nat) (key aux : List Nat) (plen prio : Nat) (res : List Nat) (rst : Bool)
  | delete (n : Nat) (key aux : List Nat) (plen prio : Nat)
  | modifyH (n handle : Nat) (res : List Nat) (rst : Bool)
  | deleteH (n handle : Nat)
  | destroy (n : Nat)
deriving DecidableEq, Repr, Inhabited

/-- Where a write comes from: a window, a committed effect, a learn insertion with its stamp, a bulk batch. -/
inductive TSrc where
  | window (w : Nat)
  | effect
  | learn (stamp : Nat)
  | bulk
deriving DecidableEq, Repr, Inhabited

/-- A write held back by a bulk batch (R202). -/
structure Deferred where
  op  : TOp
  src : TSrc
deriving DecidableEq, Repr, Inhabited

/-- A command of a table access window (Tables 08-2, 08-3): the fields of TAW_CMD and the bytes of TAW_ARG. -/
structure WCmd where
  opc  : Nat
  n    : Nat
  rst  : Bool := false
  clr  : Bool := false
  plen : Nat := 0
  prio : Nat := 0
  arg  : List Nat := []
deriving DecidableEq, Repr, Inhabited

/-- What a request about a SHARDED table asks of the owner (R186). The manual names the content and no layout. -/
inductive RemoteReq where
  | lookup (shadow : Bool) (table : Nat) (key : List Nat) (stamp : Nat)
  | trd (table handle : Nat)
  | confirm (lks : Shadow) (stamp : Nat)
  | window (c : WCmd)
  | effect (stamp index : Nat) (eff : Eff)
deriving DecidableEq, Repr, Inhabited

/-- What the owner answers (R186, R187). `write` of a result to LOCAL, and the shadow that an LKS retains. -/
inductive RemoteRsp where
  | notOwner
  | ticket (status aux : Nat) (bytes : List Nat) (shadow : Option Shadow)
  | window (res : List (Nat × Nat))
  | applied
deriving DecidableEq, Repr, Inhabited

/-- Who waits for a remote request: a ticket (with the table it looks up and whether its walk is a shadow one), or a
window. A forwarded effect is held by the commit unit. -/
inductive RemoteFor where
  | ticket (th tk table : Nat) (shadow : Bool)
  | window (w : Nat) (c : WCmd)
deriving DecidableEq, Repr, Inhabited

/-- A request forwarded to the owner of a shard (R186 to R188): who waits, what it asks, the member asked, its expiry, and
whether it was resent or answered NOT_OWNER already. -/
structure Remote where
  id    : Nat
  by_   : RemoteFor
  req   : RemoteReq
  owner : Nat
  due   : Nat
  again : Bool := false
  notOwner : Bool := false
deriving DecidableEq, Repr, Inhabited

/-- The result of a write: status, handle and VTAG, and the counters of a deleted entry. -/
structure TRes where
  status : Nat := 0
  handle : Nat := 0
  vtag   : Nat := 0
  old    : Entry := {}
deriving DecidableEq, Repr, Inhabited

/-- A REPLICATED write in flight at the leader (R491): its number, the members that have not applied it, its deadline, the
window that waits, if any, and the leader's own result. -/
structure Repl where
  seq  : Nat
  op   : TOp
  left : List Nat
  due  : Nat
  win  : Option Nat
  res  : TRes
deriving DecidableEq, Repr, Inhabited

/-- A bulk batch that is staging: its PF, records and deadline (R201). -/
structure Bulk where
  pf   : Nat
  recs : List (List Nat)
  due  : Nat
deriving DecidableEq, Repr, Inhabited

/-- The table engine beside its registers. Entries are keyed by table × 2^28 + index. -/
structure Tables where
  entries : Tbl (Option Entry) := {}
  nextWalk : Nat := 1
  walks   : List Walk := []
  /-- Resident lines by cache set, most recently used first (R166), fills in flight (line, shadow) and voided fills. -/
  cache   : Tbl (List Nat) := {}
  fills   : List (Nat × Bool) := []
  voided  : List Nat := []
  bulk    : List Bulk := []
  deferred : List Deferred := []
  remotes : List Remote := []
  /-- The learn filter (R205), oldest first: table, key and the instant of its notice. -/
  learned : List (Nat × List Nat × Nat) := []
  /-- Retired pseudo-channels whose structures are being rebuilt (R209). -/
  rebuild : List Nat := []
  /-- Bytes of the 1 GiB reserve that repaired entries use (R209). -/
  remapped : Nat := 0
  /-- REPLICATED writes in flight at the leader (R491), the next number, the number of the last one applied here, and the
  idle entries that members have reported: (member, table, index, instant) (R495). -/
  repl    : List Repl := []
  replNext : Nat := 0
  replGot : Nat := 0
  idleRep : List (Nat × Nat × Nat × Nat) := []
deriving DecidableEq, Repr, Inhabited

/-- A security association (Table 12-2). `bitmap` is its replay window, bit i for PN T - i. -/
structure SA where
  valid   : Bool := false
  inbound : Bool := false
  esp     : Bool := false
  key256  : Bool := false
  ext     : Bool := false
  icvLen  : Nat := 0
  conf    : Nat := 0
  replay  : Bool := false
  win     : Nat := 0
  an      : Nat := 0
  softHit : Bool := false
  exh     : Bool := false
  txSci   : Bool := false
  softLog2 : Nat := 0
  keySlot : Nat := 0
  owner   : Nat := 0
  pn      : Nat := 0
  sci     : Nat := 0
  ssci    : Nat := 0
  bitmap  : Nat := 0
  wide    : Option Nat := none
deriving DecidableEq, Repr, Inhabited

/-- A key slot (R289): EMPTY where `key` is empty. -/
structure KeySlot where
  key   : List Nat := []
  owner : Nat := 0
  refs  : Nat := 0
deriving DecidableEq, Repr, Inhabited

/-- A KEK slot (R290). -/
structure Kek where
  key    : List Nat := []
  owner  : Nat := 0
  export_ : Bool := false
deriving DecidableEq, Repr, Inhabited

/-- A reservation of a packet number (R299). -/
structure PnResv where
  stamp : Nat
  sa    : Nat
  pn    : Nat
deriving DecidableEq, Repr, Inhabited

/-- The CRYPTO island beside its registers. `retiring` holds, per SA, the end of its retirement and the window that
waits for it; `zeroize` the key slots to be zeroized once unreferenced (R305); `plain` the plain image that an item's
attempt holds (R300), by stamp. -/
structure Crypto where
  sas      : Tbl SA := {}
  retiring : Tbl (Option (Nat × Option Nat)) := {}
  keys     : Tbl KeySlot := {}
  keks     : Tbl Kek := {}
  wideUsed : List Nat := []
  resv     : List PnResv := []
  plain    : Tbl (Option (List Nat)) := {}
  zeroize  : List Nat := []
deriving DecidableEq, Repr, Inhabited

end Sys2Proof.Machine
end

