-- ==== Sys2Proof/Machine/PartReq.lean ====
section
/-!
DEFINITION. Typed requests that reach the device from outside where the manual names what is asked but takes the encoding
from another standard (PCI Express, SPDM, CMIS): configuration requests (chapter 14) and instance shares (chapter 17).
-/
namespace Sys2Proof.Machine

/-- What a configuration request reads or writes (R327, R328, R331, Table 14-4, Table 14-6). The first group is read, the
second written. -/
inductive CfgItem where
  | vendorId | deviceId | revisionId | classCode | subsystem | vfDeviceId
  | totalVfs | firstVfOffset | vfStride | numVfs | vfEnable | serial | pending | msixSize
  | setNumVfs (n : Nat)
  | setAts (on : Bool)
  | setRelaxed (on : Bool)
  | setTag10 (on : Bool)
  | setTag14 (on : Bool)
  | setTimeout (ns : Nat)
  | setMps (bytes : Nat)
  | setMrrs (bytes : Nat)
  | setMsix (enable mask : Bool)
  | setVector (v addr data : Nat) (mask : Bool)
deriving DecidableEq, Repr

/-- What CREATE in POOL mode assigns (R400, R401): BASE and COUNT of each kind in order, the egress node and its level
(0: level 3, 1: level 4), the host-delivery queue, the DMA channel, the weight and SUB_CFG. -/
structure Shares where
  ranges : List (Nat × Nat) := []
  level  : Nat := 0
  node   : Nat := 0
  rqq    : Nat := 0
  chan   : Nat := 0
  weight : Nat := 0
  sub    : Nat := 0
deriving DecidableEq, Repr

/-- A read that differs from what was blown: word, copy (0 A, 1 B), margin (0 L, 1 N, 2 H), and the 39 bits read. -/
abbrev FuseRead := Nat × Nat × Nat × Nat

/-- Where a command of FUSE.PW comes from: the steward, PF0 (BAR4), or JTAG. -/
inductive PwSource where
  | steward | pf0 | jtag
deriving DecidableEq, Repr

/-- A copy that does not settle after 3 attempts: its word, copy, and the 39 bits it is left with. -/
abbrev FuseMiss := Nat × Nat × Nat

/-- What a JTAG instruction is, for R563: BYPASS or IDCODE, another instruction of the boundary-scan set, or any other. -/
inductive JtagInsn where
  | bypass | idcode | boundary | other
deriving DecidableEq, Repr

/-- An entry of a MOULT_SET as it arrives: image, slot, instance, offset of its map and the map as read. -/
abbrev MoultArg := Nat × Nat × Nat × Nat × Option (List Nat)

/-- A fault message that reaches the collector: the `k`-th of those in flight, or one that a detector of the hardware sends (class,
kind, island, block, ADDR, DETAIL). -/
inductive FaultArg where
  | inFlight (k : Nat)
  | detected (cls kind island block addr detail : Nat)
deriving DecidableEq, Repr

/-- A message in flight to an island: the `k`-th EVT message or the `k`-th commit message. -/
inductive DropArg where
  | event (k : Nat)
  | commit (k : Nat)
deriving DecidableEq, Repr

/-- A REPLICATED write (R491): one that the leader has numbered reaches a member, or a member's report that it has applied one
reaches the leader. -/
inductive ReplArg where
  | write (seq : Nat) (op : TOp)
  | applied (m seq : Nat)
deriving DecidableEq, Repr

/-- How an SPDM request arrives: in an MCTP message that waits, or at the DOE mailbox of a PF, with the bytes from the SPDM version
on. -/
inductive SpdmVia where
  | mctp
  | doe (pf : Fin 4) (bytes : List Nat)
deriving DecidableEq, Repr

/-- What the bus answers to a transaction of a port engine (23): the address is not acknowledged, a written byte is not, a PEC
mismatch, or the bytes read, after the identifier, bank and page that the head of the transaction read. -/
inductive I2cAnswer where
  | addrNak
  | dataNak
  | pecErr
  | data (ident bank page : Nat) (bytes : List Nat)
deriving DecidableEq, Repr

/-- The commands of INST.IW, the table access windows, CRYPTO.CW, MIG.MW and GRP.GW, as a window taken before RUN holds them (25). -/
inductive WinCmd where
  | dirtyStart (p : Fin 4) (inst : Fin 2052) (bank0 bank1 base : BitVec 64) (lg : BitVec 8)
  | dirtySwap (p : Fin 4) (inst : Fin 2052)
  | dirtyStop (p : Fin 4) (inst : Fin 2052)
  | freezeQuiesce (p : Fin 4) (inst : Fin 2052) (kek : Fin 64)
  | freezeInPlace (p : Fin 4) (inst : Fin 2052) (kek : Fin 64)
  | thaw (p : Fin 4) (inst : Fin 2052)
  | save (p : Fin 4) (inst : Fin 2052) (addr : BitVec 64) (size : BitVec 32)
  | migrationRestore (p : Fin 4) (inst : Fin 2052) (kek : Fin 64) (size : BitVec 32) (img : Option (List Nat))
  | groupCommit (off : BitVec 64) (len : BitVec 32) (data : Option (List Nat))
  | groupLeave
  | groupRejoin
  | saCreate (w : Fin 5) (sa : BitVec 16) (img : List Nat) (ue : Bool)
  | saDestroy (w : Fin 5) (sa : BitVec 16) (ue : Bool)
  | saRead (w : Fin 5) (sa : BitVec 16) (ue : Bool)
  | keyLoadWrapped (w : Fin 5) (slot : BitVec 15) (kek : Fin 64) (wrap : List Nat) (ue : Bool)
  | keyZero (w : Fin 5) (slot : BitVec 15) (ue : Bool)
  | keyInfo (w : Fin 5) (slot : BitVec 15) (ue : Bool)
  | insert (w : Fin 5) (n : Fin 1024) (plen prio : Nat) (arg : List Nat)
  | modify (w : Fin 5) (n : Fin 1024) (rst : Bool) (plen prio : Nat) (arg : List Nat)
  | delete (w : Fin 5) (n : Fin 1024) (plen prio : Nat) (arg : List Nat)
  | read (w : Fin 5) (n : Fin 1024) (plen prio : Nat) (arg : List Nat)
  | readHandle (w : Fin 5) (n : Fin 1024) (handle : BitVec 64)
  | modifyHandle (w : Fin 5) (n : Fin 1024) (rst : Bool) (arg : List Nat)
  | deleteHandle (w : Fin 5) (n : Fin 1024) (handle : BitVec 64)
  | cntRead (w : Fin 5) (n : Fin 1024) (clr : Bool) (handle : BitVec 64)
  | lookup (w : Fin 5) (n : Fin 1024) (arg : List Nat)
  | descCreate (w : Fin 5) (n : Fin 1024) (img cap : BitVec 64)
  | descDestroy (w : Fin 5) (n : Fin 1024)
  | descParam (w : Fin 5) (n : Fin 1024) (age learn : BitVec 32)
  | create (p : Fin 4) (inst : Fin 2052) (cold : Bool) (sh : Shares)
  | enable (p : Fin 4) (inst : Fin 2052)
  | reset (p : Fin 4) (inst : Fin 2052) (hold : Bool)
  | remove (p : Fin 4) (inst : Fin 2052)
deriving DecidableEq, Repr

end Sys2Proof.Machine
end

