-- ==== Sys2Proof/Syntax.lean ====
section
/-!
DEFINITION. The commands of the block: the ONE inductive `Instr`, a constructor per row of spec/opcode_table.json. The
operand types stand before it; the names of registers, windows and requesters are in Machine/Names.lean.
-/
namespace Sys2Proof
open Sys2Proof.Machine

/-- The commands of the block: one constructor per row of spec/opcode_table.json. A command names a step of the device:
a register access, a window or steward command, a message, bit stream or pin change that reaches it, an instruction
that a pod thread issues, or an event of its own engines. What comes from outside (bytes, samples, tags, draws) is an
operand. -/
inductive Instr where
  /-- REGISTER_WRITE (R69): A software write reaches a register that has no row of its own, and each field follows its access type and same-cycle precedence. -/
  | registerWrite (q : Requester) (t : Target) (v : BitVec 64) (be : BitVec 8) (hw : List (Nat × Nat))
  /-- RC_READ (R65): A read of an RC field returns its value and clears it. -/
  | rcRead (q : Requester) (pod : Fin 16) (j : Fin 48)
  /-- HALF_READ_LOW (R75): A 32-bit read of the low half returns bits [31:0] and latches the high half for the requester. -/
  | halfReadLow (q : Requester) (t : Target)
  /-- HALF_READ_HIGH (R75): A 32-bit read of the high half returns the latched value, or live bits counted as an unpaired read. -/
  | halfReadHigh (q : Requester) (t : Target)
  /-- HALF_WRITE_LOW (R76): A 32-bit low-half write is held in the requester's write latch. -/
  | halfWriteLow (q : Requester) (t : Target) (v : BitVec 32)
  /-- HALF_WRITE_HIGH (R76): A 32-bit high-half write applies with the held low half when tags match, or alone otherwise. -/
  | halfWriteHigh (q : Requester) (t : Target) (v : BitVec 32)
  /-- RESULT_ACK (R88): A RESULT_ACK write with the matching SEQ releases a DONE result window to IDLE. -/
  | resultAck (w : WinId) (ack : BitVec 16)
  /-- RESERVED_ACCESS (R655): A BAR0 access to a reserved range reads 0 or is discarded, and counts in HOST.BAD_ACCESS. -/
  | reservedAccess (f : Fin 2052) (isWrite : Bool)
  /-- EPOCH_SWITCH_REQUEST (R84): A write of STATS.EPOCH_CTL.SWITCH requests an epoch switch, held or joined as R84 states. -/
  | epochSwitchRequest (q : Requester)
  /-- EPOCH_PERIOD_EXPIRY (R80): EPOCH_PERIOD elapses after the last switch and an automatic switch request is made. -/
  | epochPeriodExpiry
  /-- EPOCH_SWITCH_INSTANT (R81): At T_sw every island switches banks and the closing bank becomes closed. -/
  | epochSwitchInstant
  /-- EPOCH_CLOSE (R81): At T_sw plus 2 us the closed bank stops taking updates and EPOCH_CLOSED is set. -/
  | epochClose
  /-- COUNTER_UPDATE (R81): A counter update carrying its issue DTB reaches a banked counter and is applied to one or both banks. -/
  | counterUpdate (c : Ctr) (ix : Nat) (n : Nat) (issued : Nat)
  /-- REQ_TO_ISLAND_IN_RESET (R16): A REQ addressed to an island in reset is answered with RSP ISLAND_ABSENT by its router port. -/
  | reqToIslandInReset (th : Fin 2048) (tk : Fin 8)
  /-- DISCARD_TO_ISLAND_IN_RESET (R16): A POST, EVT or RSP addressed to an island in reset is discarded and counted in SWY.DROP_ABSENT. -/
  | discardToIslandInReset (a : DropArg)
  /-- SEQUENCE_GAP (R24): A destination sees a gap in the per-pair Silkway sequence and raises a LINK-class fault. -/
  | sequenceGap (src dst : Fin 26) (cls : Fin 5)
  /-- ROUTER_DECLARED_FAILED (R24): A router returns no credit or heartbeat for 1 us and is declared failed at L3. -/
  | routerDeclaredFailed (r : Fin 36) (lost : List Nat)
  /-- REROUTE_HOLD_EXPIRY (R25): The 2 us hold of new messages on affected pairs ends and sending resumes on the new route. -/
  | rerouteHoldExpiry (r : Fin 36)
  /-- PSEUDO_CHANNEL_RETIRE (R30): A failed HBM pseudo-channel is retired and its address range removed from its partitions. -/
  | pseudoChannelRetire (pc : Fin 64) (copies entries : List (Nat × Nat))
  /-- STRUCTURE_REBUILD (R209): The table engine completes rebuilding bucket and trie structures after a retirement. -/
  | structureRebuild (pc : Fin 64)
  /-- FRAME_RECEIVE (R214): The receive MAC takes a frame, checks it and offers it to admission. -/
  | frameReceive (p : Fin 32) (bytes : List Nat) (ts : Nat) (badPre cut ovr : Bool)
  /-- SEGMENT_ADMIT (R266): BUF admission tries reserved, shared and headroom space for one frame segment. -/
  | segmentAdmit (iap : Fin 36)
  /-- TOKEN_DISPATCH (R150): The token distributor sends a work token to the chosen pod against a free credit. -/
  | tokenDispatch (st : BitVec 48)
  /-- TOKEN_BIND (R149): The dispatcher binds a token to a FREE worker, starting the watchdog and the LOCAL clear. -/
  | tokenBind (p : Fin 16)
  /-- TOKEN_REISSUE (R52): A token outstanding at a faulted pod or with a discarded batch is reissued as a replay. -/
  | tokenReissue (st : BitVec 48)
  /-- COMMIT_MESSAGE (R50): A commit message reaches the commit unit, and with FINAL the batch is complete and applied. -/
  | commitMessage (k : Nat)
  /-- BATCH_TIMEOUT_DISCARD (R50): A batch incomplete 10 us after its first message is discarded and reported to the distributor. -/
  | batchTimeoutDiscard (st : BitVec 48)
  /-- EFFECT_APPLY (R51): A destination receives an effect REQ and applies it once per (stamp, index). -/
  | effectApply (k : Nat) (ack : Bool)
  /-- EFFECT_RESEND (R51): An effect REQ without RSP after 10 us is resent. -/
  | effectResend (k : Nat)
  /-- LIFETIME_EXPIRY (R49): An item not committed by its deadline is disposed EXPIRED and its successors released. -/
  | lifetimeExpiry (st : BitVec 48)
  /-- LIFETIME_SWEEP (R282): The sweeper visits queues and removes copies past their deadline. -/
  | lifetimeSweep
  /-- PORT_HOLD_EXPIRY (R57): Items held for a down port past its hold time are disposed LINK_LOST with subcode PORT. -/
  | portHoldExpiry (st : BitVec 48) (c : Nat)
  /-- SCHEDULER_PICK (R274): A root picks a copy down the tree by priority, deficit and shaper eligibility. -/
  | schedulerPick (r : Fin 37)
  /-- COPY_SENT (R36): The MAC sends the last byte of a copy and the primary copy's item becomes DONE. -/
  | copySent (p : Fin 32) (ts : Nat) (ue : Fin 3)
  /-- PREFETCH (R263): The prefetcher moves a queue's HBM part on-chip when its on-chip part is below 32 KiB. -/
  | prefetch (q : BitVec 17)
  /-- PAUSE_FRAME_RECEIVED (R222): A received pause or PFC frame stops the port or the paused classes. -/
  | pauseFrameReceived (p : Fin 32) (op : BitVec 16) (vec : BitVec 8) (qs : List (BitVec 16))
  /-- PAUSE_EXPIRY (R222): The received pause quanta run out and the port or class resumes. -/
  | pauseExpiry (p : Fin 32) (c : Fin 9)
  /-- PAUSE_FRAME_SEND (R223): A flow-control frame is sent on XOFF, or with quanta 0 when XOFF ends. -/
  | pauseFrameSend (p : Fin 32)
  /-- PAUSE_REPEAT (R223): The pause frame is repeated every PAUSE_QUANTA x 256 bit times while XOFF holds. -/
  | pauseRepeat (p : Fin 32)
  /-- PFC_STORM (R224): A pause held for STORM_MS makes the device ignore received pause for the next STORM_MS. -/
  | pfcStorm (p : Fin 32) (c : Fin 9)
  /-- GROUP_MODE_WRITE (R212): A change of NET.GROUP_CFG.MODE takes all ports of the group down and retrains. -/
  | groupModeWrite (n : Fin 4) (v : BitVec 32)
  /-- PORT_UP (R213): A port's PCS aligns without faults and it becomes UP, releasing held copies. -/
  | portUp (p : Fin 32)
  /-- LANE_FAULT_DEGRADE (R232): A lane of a multi-lane port with DEGRADE_EN loses alignment and the port retrains at half width. -/
  | laneFaultDegrade (n : Fin 4) (k : Fin 8)
  /-- DEGRADE_TIMEOUT (R232): Degraded training does not succeed within DEGRADE_TMO and the port becomes DOWN. -/
  | degradeTimeout (p : Fin 32)
  /-- RESTORE (R233): Writing RESTORE retrains a DEGRADED port at full width. -/
  | restore (p : Fin 32)
  /-- MODULE_INSERTION (R234): The steward selects a matching CMIS Application and starts training, or raises MODULE_MISMATCH. -/
  | moduleInsertion (p : Fin 32) (found : Bool)
  /-- SIGNAL_DETECT (R240): A lane detects signal and leaves SIGNAL_WAIT for ADAPT. -/
  | signalDetect (n : Fin 4) (k : Fin 12)
  /-- LOSS_OF_SIGNAL (R240): A lane loses signal and returns to SIGNAL_WAIT. -/
  | lossOfSignal (n : Fin 4) (k : Fin 12)
  /-- ADAPT_COMPLETE (R241): CDR locks and the equaliser converges and the lane moves to LOCK. -/
  | adaptComplete (n : Fin 4) (k : Fin 12)
  /-- HIST_REJECT (R241): ADAPT from history does not converge in its bound and restarts from presets. -/
  | histReject (n : Fin 4) (k : Fin 12)
  /-- POLARITY_ALTERNATE (R243): Under RX_POL AUTO an unlocked lane flips polarity every 2 ms. -/
  | polarityAlternate (n : Fin 4) (k : Fin 12)
  /-- PCS_LOCK (R243): A network lane reaches PCS lock and becomes READY. -/
  | pcsLock (n : Fin 4) (k : Fin 12)
  /-- LOCK_FAIL (R243): A lane not locked 50 ms after ADAPT returns to ADAPT from presets. -/
  | lockFail (n : Fin 4) (k : Fin 12)
  /-- HISTORY_SAVE (R242): The steward saves a lane's adaptation record after 1 s READY and every 60 s. -/
  | historySave (n : Fin 4) (k : Fin 12) (coeff : List Nat)
  /-- LANE_CFG_WRITE (R237): A change of RX_POL, TX_PRESET or LOOPBACK on a READY lane returns it to ADAPT. -/
  | laneCfgWrite (n : Fin 4) (k : Fin 12) (v : BitVec 32)
  /-- PRBS_ENABLE (R255): Setting TX_EN or RX_EN puts the lane in TEST and its port or link leaves service. -/
  | prbsEnable (n : Fin 4) (k : Fin 12) (v : BitVec 32)
  /-- PRBS_DISABLE (R255): Clearing both PRBS enables returns the lane to ADAPT. -/
  | prbsDisable (n : Fin 4) (k : Fin 12)
  /-- MARGIN_REFRESH (R256): Lane margins are refreshed every 100 ms. -/
  | marginRefresh (n : Fin 4) (k : Fin 12) (hl hr vt vb : BitVec 8)
  /-- EYE_SCAN (R257): An eye-scan command starts a monitor-sampler scan on a lane. -/
  | eyeScan (n : Fin 4) (lane : BitVec 4) (eye : BitVec 2) (h : BitVec 7) (v : BitVec 8) (dwell : BitVec 5)
  /-- EYE_SCAN_COMPLETE (R257): The scan completes after its dwell and its result is written. -/
  | eyeScanComplete (n : Fin 4) (err cmp : BitVec 64)
  /-- EL_ENABLE (R252): Setting EL_CFG.ENABLE starts sending TRAIN and ALIGN rows for link bring-up. -/
  | elEnable (l : Fin 3) (v : BitVec 32)
  /-- BLOCK_LOCK (R253): Each Erruic lane reaches block lock, correcting inversion under AUTO. -/
  | blockLock (l : Fin 3) (j : Fin 4) (inv : Bool)
  /-- LINK_MAP (R253): The received lane numbers are mapped and peer member and link recorded. -/
  | linkMap (l : Fin 3) (l0 l1 l2 l3 member link : Fin 4)
  /-- MAP_RETRY (R253): A link stuck in MAP retries from LOCK every 1 ms. -/
  | mapRetry (l : Fin 3)
  /-- LINK_DESKEW (R253): The receiver aligns lanes on ALIGN blocks with equal ASEQ. -/
  | linkDeskew (l : Fin 3) (skew : Nat)
  /-- QUAL_COUNTDOWN (R253): After 1,024 READY_QUAL rows the link sends COUNTDOWN and starts PRBS31 qualification. -/
  | qualCountdown (l : Fin 3)
  /-- QUAL_WINDOW_END (R253): The PRBS31 window ends and the link sends QUAL_PASS or QUAL_FAIL. -/
  | qualWindowEnd (l : Fin 3) (e0 e1 e2 e3 : Nat)
  /-- LINK_ACTIVE (R253): With QUAL_PASS sent and received the link becomes ACTIVE. -/
  | linkActive (l : Fin 3)
  /-- QUAL_FAIL (R253): A qualification failure restarts ADAPT, and three in a row make the link FAILED. -/
  | qualFail (l : Fin 3)
  /-- FAILED_RETRY (R253): A FAILED link retries from SIGNAL_WAIT every 1 s. -/
  | failedRetry (l : Fin 3)
  /-- ERRUIC_MESSAGE_RECEIVE (R248): A received Erruic message is checked and delivered if its LSEQ is expected, else NAKed or treated as duplicate. -/
  | erruicMessageReceive (l : Fin 3) (b : List Nat) (badSync badBlock : Bool)
  /-- CREDIT_BLOCK_RECEIVE (R247): A CREDIT block updates the sender's available credit per class. -/
  | creditBlockReceive (l : Fin 3) (b : List Nat)
  /-- ACKN_RECEIVE (R248): An ACK releases replay buffer entries, a NAK starts a replay. -/
  | acknReceive (l : Fin 3) (b : List Nat)
  /-- CREDIT_SEND (R247): The receiver sends a CREDIT block after releasing credits or every 10 us. -/
  | creditSend (l : Fin 3)
  /-- ACKN_SEND (R248): A pending acknowledgement is sent as an ACKN block within 1 us. -/
  | acknSend (l : Fin 3)
  /-- REPLAY_TIMEOUT (R249): The oldest unacknowledged message waits REPLAY_TMO and the sender replays. -/
  | replayTimeout (l : Fin 3)
  /-- ERRUIC_LINK_DOWN (R254): An ACTIVE link goes down on signal loss, sync errors, missing ALIGN or replay limit. -/
  | erruicLinkDown (l : Fin 3)
  /-- SHAPER_ENABLE (R276): A node's ENABLE going to 1 sets its bucket full or empty and its deficit 0. -/
  | shaperEnable (lv : Fin 4) (n : BitVec 17)
  /-- LOOKUP_REQUEST (R163): A lookup request reaches TABLE and is assigned to a lookup unit for a walk. -/
  | lookupRequest (th : Fin 2048) (tk : Fin 8) (lines : List Nat)
  /-- FILL_RETURN (R167): An HBM line returns and is installed unless a write voided the fill. -/
  | fillReturn (line : Nat)
  /-- WALK_COMPLETE (R179): A walk completes, returns its result and applies entry-side behaviour. -/
  | walkComplete (w pick : Nat) (ue : Option Bool)
  /-- LOOKUP_UNIT_FAULT (R164): A faulted lookup unit's walks are reissued on the other units. -/
  | lookupUnitFault (u : Fin 8) (applied : List Nat) (lines : List (Nat × List Nat))
  /-- T1_CFG_WRITE (R165): A PINNED_STEP write resizes the pinned region and empties the cache. -/
  | t1CfgWrite (v : BitVec 32)
  /-- REMOTE_REQUEST (R186): A forwarded lookup or effect on a SHARDED table is served at the owner. -/
  | remoteRequest (m : Fin 5) (id : Nat) (q : RemoteReq) (lines : List Nat)
  /-- REMOTE_RESPONSE (R187): A remote response returns, retrying once on NOT_OWNER. -/
  | remoteResponse (id : Nat) (a : RemoteRsp) (lines : List Nat)
  /-- REMOTE_TIMEOUT (R188): A remote request without response within TMO is resent once, then completes REMOTE_FAIL. -/
  | remoteTimeout (id : Nat)
  /-- INSERT (R193): Table access window command inserting an entry. -/
  | insert (w : Fin 5) (n : Fin 1024) (plen prio : Nat) (arg : List Nat)
  /-- MODIFY (R191): Table access window command replacing the result record of the entry with the stored key. -/
  | modify (w : Fin 5) (n : Fin 1024) (rst : Bool) (plen prio : Nat) (arg : List Nat)
  /-- DELETE (R191): Table access window command deleting an entry by stored key. -/
  | delete (w : Fin 5) (n : Fin 1024) (plen prio : Nat) (arg : List Nat)
  /-- READ (R191): Table access window command reading an entry by stored key. -/
  | read (w : Fin 5) (n : Fin 1024) (plen prio : Nat) (arg : List Nat)
  /-- READ_HANDLE (R191): Table access window command reading an entry by handle. -/
  | readHandle (w : Fin 5) (n : Fin 1024) (handle : BitVec 64)
  /-- MODIFY_HANDLE (R209): Table access window command modifying an entry by handle, repairing lost storage. -/
  | modifyHandle (w : Fin 5) (n : Fin 1024) (rst : Bool) (arg : List Nat)
  /-- DELETE_HANDLE (R191): Table access window command deleting an entry by handle. -/
  | deleteHandle (w : Fin 5) (n : Fin 1024) (handle : BitVec 64)
  /-- CNT_READ (R208): Table access window command reading HITS and ACC banks, optionally clearing open banks. -/
  | cntRead (w : Fin 5) (n : Fin 1024) (clr : Bool) (handle : BitVec 64)
  /-- DESC_CREATE (R169): Table access window command creating a descriptor and allocating its storage. -/
  | descCreate (w : Fin 5) (n : Fin 1024) (img cap : BitVec 64)
  /-- DESC_DESTROY (R191): Table access window command destroying a descriptor and freeing its storage. -/
  | descDestroy (w : Fin 5) (n : Fin 1024)
  /-- DESC_PARAM (R203): Table access window command writing AGE_CFG and LEARN_CFG. -/
  | descParam (w : Fin 5) (n : Fin 1024) (age learn : BitVec 32)
  /-- LOOKUP (R191): Table access window command performing a lookup without entry-side behaviour. -/
  | lookup (w : Fin 5) (n : Fin 1024) (arg : List Nat)
  /-- BULK_BATCH (R201): Once a batch's LAST lies below BULK_PI the engine holds its tables, stages and publishes or refuses it. -/
  | bulkBatch (p : Fin 4) (recs : List (List Nat)) (fin : Bool) (bytes : Nat)
  /-- BULK_BATCH_TIMEOUT (R201): A batch staging longer than TMO is refused and nothing is published. -/
  | bulkBatchTimeout (p : Fin 4) (k : Nat)
  /-- AGING_VISIT (R204): The aging scanner visits an entry, clearing activity or aging it to expiry. -/
  | agingVisit (n : Fin 1024) (ix : Nat)
  /-- SA_CREATE (R291): Crypto window command creating an SA and updating the pod directories. -/
  | saCreate (w : Fin 5) (sa : BitVec 16) (img : List Nat) (ue : Bool)
  /-- SA_DESTROY (R293): Crypto window command marking an SA retiring and invalid. -/
  | saDestroy (w : Fin 5) (sa : BitVec 16) (ue : Bool)
  /-- SA_RETIRE_COMPLETE (R293): After LIFE_MS plus 1 ms the SA context is freed and SA_DESTROY completes. -/
  | saRetireComplete (sa : BitVec 16)
  /-- SA_READ (R291): Crypto window command reading an SA context and wide window. -/
  | saRead (w : Fin 5) (sa : BitVec 16) (ue : Bool)
  /-- KEY_LOAD_WRAPPED (R290): Crypto window command unwrapping a key into a key slot under a KEK. -/
  | keyLoadWrapped (w : Fin 5) (slot : BitVec 15) (kek : Fin 64) (wrap : List Nat) (ue : Bool)
  /-- KEY_ZERO (R291): Crypto window command zeroing a key slot. -/
  | keyZero (w : Fin 5) (slot : BitVec 15) (ue : Bool)
  /-- KEY_INFO (R289): Crypto window command returning a key slot's KCV, state, owner and reference count. -/
  | keyInfo (w : Fin 5) (slot : BitVec 15) (ue : Bool)
  /-- CRYPTO_VERDICT (R298): A VERDICT request reaches CRYPTO and is checked, reserving the PN on OK. -/
  | cryptoVerdict (th : Fin 2048) (tk : Fin 8) (ue : Bool)
  /-- CONN_CFG_WRITE (R322): A VALID change of an NVMe/TCP context clears its state or stops placement. -/
  | connCfgWrite (c : BitVec 14) (v : BitVec 64)
  /-- RESYNC_ARM (R322): ARM lets placement resume at the segment containing SEQ. -/
  | resyncArm (c : BitVec 14) (seq : BitVec 32)
  /-- CID_FETCH_COMPLETE (R319): A CID table entry read completes for NVMe/TCP placement. -/
  | cidFetchComplete (c : BitVec 14) (cid : BitVec 16)
  /-- RQ_DELIVERY (R365): A copy bound for an RQ is written into accepted buffers with its completion entry. -/
  | rqDelivery (h : Fin 2)
  /-- RQ_BUFFER_WAIT_EXPIRY (R365): A copy waiting 2 us without enough buffers is not delivered, giving RQ_EMPTY. -/
  | rqBufferWaitExpiry (h : Fin 2)
  /-- PERST_ASSERT (R345): PERST_N asserted performs the steps of R344 at once on the port. -/
  | perstAssert (h : Fin 2)
  /-- PERST_DEASSERT (R347): PERST_N deasserted lets the port train once released. -/
  | perstDeassert (h : Fin 2)
  /-- HOT_RESET (R345): A received Hot Reset resets the port's functions without hold. -/
  | hotReset (h : Fin 2)
  /-- LINK_TRAINED (R324): The host link trains and the port becomes UP. -/
  | linkTrained (h : Fin 2) (w : Fin 17) (sp : Fin 7) (flit : Bool) (drs : Bool)
  /-- DETACH (R343): A DL_Down without reset moves the port to HOLD and pauses its functions. -/
  | detach (h : Fin 2)
  /-- HOST_HOLD_EXPIRY (R344): HOST_HOLD_MS passes in HOLD, held copies are disposed LINK_LOST and PFs reset. -/
  | hostHoldExpiry (h : Fin 2)
  /-- BME_CLEAR (R337): Bus Master Enable going to 0 pauses the function's work in place. -/
  | bmeClear (f : Fin 2052)
  /-- BME_SET (R337): Bus Master Enable set again resumes held work in order. -/
  | bmeSet (f : Fin 2052)
  /-- BME_HOLD_EXPIRY (R338): Bus Master Enable 0 longer than HOST_HOLD_MS disposes held copies LINK_LOST. -/
  | bmeHoldExpiry (f : Fin 2052)
  /-- FLR_VF (R339): An FLR of a VF is an INSTANCE_RESET with a new generation and R58 applied. -/
  | flrVf (f : Fin 2052)
  /-- FLR_PF (R339): An FLR of a PF is a FUNCTION_RESET removing its instances. -/
  | flrPf (p : Fin 4)
  /-- READ_COMPLETION (R341): A completion arrives for a read and is used, held, or discarded if stale. -/
  | readCompletion (port : Fin 2) (tag : Fin 16384) (ok : Bool) (poisoned : Bool) (data : List Nat)
  /-- COMPLETION_TIMEOUT (R334): A read times out, completes internally as UR and frees its tag. -/
  | completionTimeout (tag : Fin 16384)
  /-- VF_ENABLE (R411): Setting VF Enable creates VACANT instances, with EQUAL shares computed or refused. -/
  | vfEnable (p : Fin 4)
  /-- VF_DISABLE (R407): Clearing VF Enable removes all the PF's VF instances. -/
  | vfDisable (p : Fin 4)
  /-- ATS_INVALIDATE (R335): An ATS invalidation request completes when requests using the translation have left. -/
  | atsInvalidate (f : Fin 2052) (page : BitVec 52) (n : Nat) (late : Bool)
  /-- D3HOT_ENTRY (R324): A function entering D3hot is treated as Bus Master Enable 0. -/
  | d3hotEntry (f : Fin 2052)
  /-- LTR_ENABLE (R326): Setting LTR Mechanism Enable sends one LTR message. -/
  | ltrEnable (h : Fin 2)
  /-- HELD_LEDGER_WRITE (R342): Held ledgers are written once a ledger region is registered and Bus Master Enable is 1. -/
  | heldLedgerWrite (p : Fin 4)
  /-- CONFIG_REQUEST (R347): A configuration request is answered, with retry status before port release or during FLR. -/
  | configRequest (f : Fin 2052) (c : CfgItem)
  /-- LEDGER_WRITE (R60): The DMA engine writes a reset ledger, entries first and header with VALID last. -/
  | ledgerWrite (p : Fin 4)
  /-- WARM_LEDGER_TIMEOUT (R62): The 20 ms wait for WARM_RESET ledgers ends, setting UNWRITTEN where incomplete. -/
  | warmLedgerTimeout
  /-- QUEUE_ENABLE (R349): ENABLE 1 on a DISABLED queue makes it ACTIVE with zero indices, or is refused. -/
  | queueEnable (q : BitVec 16)
  /-- QUEUE_DISABLE (R350): ENABLE 0 moves a queue to STOPPING. -/
  | queueDisable (q : BitVec 16)
  /-- QUEUE_STOPPED (R350): A STOPPING queue with DONE equal to CI becomes DISABLED. -/
  | queueStopped (q : BitVec 16)
  /-- QUEUE_RESUME (R357): RESUME restarts an ERROR queue at RESUME_INDEX, skipping indices. -/
  | queueResume (q : BitVec 16) (idx : BitVec 32)
  /-- DOORBELL_PI (R353): A TYPE 0 doorbell is checked and sets the SQ or RQ producer index. -/
  | doorbellPi (f : Fin 2052) (v : BitVec 64) (whole : Bool)
  /-- DOORBELL_CQ (R372): A TYPE 1 doorbell sets a CQ consumer index and may arm a notice. -/
  | doorbellCq (f : Fin 2052) (v : BitVec 64) (whole : Bool)
  /-- DOORBELL_EQ (R372): A TYPE 2 doorbell sets an EQ consumer index and may arm a notice. -/
  | doorbellEq (f : Fin 2052) (v : BitVec 64) (whole : Bool)
  /-- SLICE_VISIT (R363): A queue-engine slice visits the next eligible queue and reads up to BURST descriptors. -/
  | sliceVisit (sl : Fin 4)
  /-- DESCRIPTOR_FETCH_COMPLETE (R355): A descriptor read completes and its descriptors are checked in index order. -/
  | descriptorFetchComplete (q : BitVec 16) (ofList : Bool)
  /-- DESCRIPTOR_ACCEPT (R359): A checked descriptor is accepted once cells, reorder entry and stamp are in hand. -/
  | descriptorAccept (q : BitVec 16)
  /-- PAYLOAD_LOAD_COMPLETE (R360): The payload load completes and the token is dispatched, or the item is disposed HOST_DATA. -/
  | payloadLoadComplete (st : BitVec 48)
  /-- HEAD_WRITE_BACK (R361): The head write-back value is written after CI advances. -/
  | headWriteBack (q : BitVec 16)
  /-- CQ_ENABLE (R367): Enabling or disabling a CQ, refused while a queue names it. -/
  | cqEnable (c : BitVec 15) (on : Bool)
  /-- EQ_ENABLE (R367): Enabling or disabling an EQ. -/
  | eqEnable (e : BitVec 12) (on : Bool)
  /-- LEDGER_ACK (R374): A LEDGER_ACK with the matching sequence clears UNACKED and releases held ledgers. -/
  | ledgerAck (p : Fin 4) (v : BitVec 32)
  /-- SLICE_FAIL (R362): A failed queue-engine slice's instances move to the next healthy slice. -/
  | sliceFail (sl : Fin 4) (k : Fin 3)
  /-- BURST_GRANT (R382): A group's issue port grants the next burst by RTC hold, priority and round robin. -/
  | burstGrant (g : Fin 8) (ue : Fin 3)
  /-- FLUSH (R386): FLUSH issues a zero-length read after covered writes. -/
  | flush (c : Fin 64)
  /-- FLUSH_COMPLETE (R386): The flush read completes and a FLUSH_DONE or FLUSH_FAIL record is written. -/
  | flushComplete (c : Fin 64)
  /-- ABORT (R388): ABORT moves a channel to STOPPING after its current burst. -/
  | abort (c : Fin 64)
  /-- CHANNEL_STOPPED (R388): The channel enters STOPPED, computes residue and writes ABORT_DONE. -/
  | channelStopped (c : Fin 64)
  /-- RESUME (R389): RESUME restarts a STOPPED channel from the first byte of the aborted operation. -/
  | resume (c : Fin 64)
  /-- CHANNEL_MOVE (R377): A change of INST_CHAN sets MOVING and holds the new channel. -/
  | channelMove (inst : Fin 2052) (c : Fin 64)
  /-- CHANNEL_MOVE_COMPLETE (R377): The old channel passes its last write and MOVING clears. -/
  | channelMoveComplete (inst : Fin 2052)
  /-- CHANNEL_FAIL (R392): A faulted channel becomes FAILED and its work moves within the group. -/
  | channelFail (c : Fin 64)
  /-- CREATE (R400): Instance window command assigning resources to a VACANT instance. -/
  | create (p : Fin 4) (inst : Fin 2052) (cold : Bool) (sh : Shares)
  /-- ENABLE (R402): Instance window command moving a CREATED instance to ENABLED. -/
  | enable (p : Fin 4) (inst : Fin 2052)
  /-- RESET (R403): Instance window command making a reset point and completing when DRAINING ends. -/
  | reset (p : Fin 4) (inst : Fin 2052) (hold : Bool)
  /-- REMOVE (R406): Instance window command resetting and freeing an instance's resources. -/
  | remove (p : Fin 4) (inst : Fin 2052)
  /-- DRAIN_END (R403): INFLIGHT.PREV reaches 0 and DRAINING or REMOVING ends. -/
  | drainEnd (inst : Fin 2052)
  /-- DRAIN_FORCED (R403): 2 ms after the reset point stragglers are retagged to generation 0 and the drain ends. -/
  | drainForced (inst : Fin 2052)
  /-- DIRTY_START (R418): Migration command turning dirty tracking on with bank 0 active. -/
  | dirtyStart (p : Fin 4) (inst : Fin 2052) (bank0 bank1 base : BitVec 64) (lg : BitVec 8)
  /-- DIRTY_SWAP (R421): Migration command switching the active dirty bank. -/
  | dirtySwap (p : Fin 4) (inst : Fin 2052)
  /-- DIRTY_SWAP_COMPLETE (R421): Writes that marked the closed bank have flushed and the command completes. -/
  | dirtySwapComplete (inst : Fin 2052)
  /-- DIRTY_STOP (R421): Migration command closing the active bank and turning tracking off. -/
  | dirtyStop (p : Fin 4) (inst : Fin 2052)
  /-- FREEZE_QUIESCE (R422): Migration command stopping fetches and waiting for quiescence. -/
  | freezeQuiesce (p : Fin 4) (inst : Fin 2052) (kek : Fin 64)
  /-- QUIESCED (R422): All SQs are DONE and no copy or entry remains, entering FROZEN_QUIESCED. -/
  | quiesced (inst : Fin 2052)
  /-- FREEZE_IN_PLACE (R423): Migration command setting the instance's work aside in place. -/
  | freezeInPlace (p : Fin 4) (inst : Fin 2052) (kek : Fin 64)
  /-- SAVE (R427): Migration command writing the state image and flushing. -/
  | save (p : Fin 4) (inst : Fin 2052) (addr : BitVec 64) (size : BitVec 32)
  /-- THAW (R425): Migration command returning a frozen instance to service. -/
  | thaw (p : Fin 4) (inst : Fin 2052)
  /-- SEND (R431): SEND places TX_MSG in the receiver's box and marks it PENDING. -/
  | send (inst : Fin 2052) (up : Bool)
  /-- CANCEL (R433): CANCEL withdraws a PENDING mailbox message. -/
  | cancel (inst : Fin 2052) (up : Bool)
  /-- RX_TAKE (R432): A read of RX_TAKE takes the message and marks the sender TAKEN. -/
  | rxTake (q : Requester) (inst : Fin 2052) (up : Bool)
  /-- MAILBOX_TIMEOUT (R434): A PENDING message is withdrawn on TMO_MS or on a receiver reset, absence or Cocoon. -/
  | mailboxTimeout (inst : Fin 2052) (up : Bool)
  /-- IMAGE_LOAD (R444): Steward command checking and loading a program image. -/
  | imageLoad (m : Fin 16) (tmo : BitVec 14) (off : BitVec 64) (len : BitVec 32) (data : Option (List Nat))
  /-- IMAGE_DROP (R596): Steward command freeing a loaded image not in use. -/
  | imageDrop (m : Fin 16) (tmo : BitVec 14) (id : BitVec 32)
  /-- SLOT_BIND (R443): Steward command binding a slot to an image entry with a TREF map. -/
  | slotBind (m : Fin 16) (tmo : BitVec 14) (id : BitVec 32) (slot : BitVec 8) (inst : BitVec 16) (off : BitVec 64) (map : Option (List Nat))
  /-- SLOT_UNBIND (R597): Steward command moulting a slot to no version. -/
  | slotUnbind (m : Fin 16) (tmo : BitVec 14) (slot : BitVec 8)
  /-- CFG_SET (R589): Steward command storing a setting in the config region. -/
  | cfgSet (m : Fin 16) (tmo : BitVec 14) (item : BitVec 16) (v : List Nat)
  /-- CFG_GET (R440): Steward command returning a stored setting. -/
  | cfgGet (m : Fin 16) (tmo : BitVec 14) (item : BitVec 16)
  /-- KEY_LOAD (R290): Secure-channel command loading key plaintext into a key slot. -/
  | keyLoad (m : Fin 16) (tmo : BitVec 14) (slot : BitVec 16) (owner : BitVec 8) (key : List Nat)
  /-- KEK_LOAD (R290): Secure-channel command loading or emptying a KEK slot. -/
  | kekLoad (m : Fin 16) (tmo : BitVec 14) (slot : BitVec 8) (owner : BitVec 8) (exp : Bool) (len : BitVec 8) (key : List Nat)
  /-- INJECT (R444): Steward command accepting one injected item and returning its stamp. -/
  | inject (m : Fin 16) (tmo : BitVec 14) (off : BitVec 64) (len : BitVec 16) (slot : BitVec 8) (inst : BitVec 16) (data : Option (List Nat))
  /-- FW_INFO (R440): Steward command returning running instar, ISA version and flash slot. -/
  | fwInfo (m : Fin 16) (tmo : BitVec 14)
  /-- STEWARD_CMD_TIMEOUT (R442): A steward command not completed within TMO_MS completes TIMEOUT with a reason. -/
  | stewardCmdTimeout (m : Fin 16)
  /-- BAR4_REQUEST (R441): A BAR4 request is admitted or refused by the trusted-stream policy. -/
  | bar4Request (f : Fin 2052) (p : Fin 4) (x : Option (Fin 5)) (isWrite : Bool)
  /-- EVENT_RAISE (R453): An EVT message reaches the EVT block and is delivered to every routed destination. -/
  | eventRaise (k : Nat)
  /-- MSIX_MESSAGE (R455): A pending, unmasked vector sends its MSI-X message once its interval has passed. -/
  | msixMessage (f : Fin 2052) (v : Fin 2048)
  /-- FAULT_MESSAGE (R473): The collector takes a fault message, sets its final level, logs it and applies actions. -/
  | faultMessage (a : FaultArg) (lost : List (Nat × Nat))
  /-- FATAL_ASSERT (R463): An island asserts its FATAL line, latched into FPSW and driving FAULT_N. -/
  | fatalAssert (n : Fin 26)
  /-- FATAL_SILENT (R464): No L3 message arrives 10 us after a FATAL bit and the collector logs FATAL_SILENT. -/
  | fatalSilent (n : Fin 26)
  /-- FAULT_ACK (R471): A write of SEQ to FCOL.ACK acknowledges a log entry. -/
  | faultAck (seq : BitVec 16)
  /-- ISOLATION_CLEAR (R475): The steward clears a PART_ISO pod bit and the pod returns to service. -/
  | isolationClear (pod : Fin 16)
  /-- LOG_MEMORY_FAILURE (R476): An uncorrectable log memory error sets LOG_FAILED and stops logging. -/
  | logMemoryFailure
  /-- OPERATION_HANG (R462): An operation outstanding 1 ms without progress raises LU_HANG, DMA_HANG or SLICE_HANG. -/
  | operationHang (part : Fin 3) (u : Fin 64)
  /-- STEWARD_WATCHDOG (R462): The steward firmware misses its watchdog for 500 ms. -/
  | stewardWatchdog
  /-- DROOP_FLOOR (R462): A pod clock stays at 1.2 GHz for more than 1 ms. -/
  | droopFloor (p : Fin 16)
  /-- CE_STORM (R462): One memory instance corrects 1,000 errors within 1 s. -/
  | ceStorm (n : Fin 26) (block : Fin 32) (mem syndrome : BitVec 8)
  /-- DTB_ALIGN (R462): An island's DTB differs from the AON reference by more than 2 ns. -/
  | dtbAlign (n : Fin 26)
  /-- HELLO_SEND (R478): A member sends a HELLO on every ACTIVE link every 100 us. -/
  | helloSend (l : Fin 3)
  /-- HELLO_RECEIVE (R495): A HELLO is received, updating contact, time offset and disagreement checks. -/
  | helloReceive (l : Fin 3) (b : List Nat)
  /-- FORWARDED_COPY_ARRIVAL (R483): A forwarded copy arrives and is refused or offered for acceptance as a new item. -/
  | forwardedCopyArrival (l : Fin 3) (b : List Nat)
  /-- FORWARD_ACK (R484): An ACK completes a forwarded copy, or REFUSE schedules its resend. -/
  | forwardAck (m : Fin 5) (fseq : BitVec 32) (refuse : Bool)
  /-- REFUSE_RESEND (R484): 2 us after REFUSE the copy is re-enqueued with a new FSEQ. -/
  | refuseResend (m : Fin 5) (fseq : BitVec 32)
  /-- GROUP_HOLD_EXPIRY (R484): A copy not accepted within HOLD_MS is dropped, LINK_LOST with subcode ERRUIC. -/
  | groupHoldExpiry (st c : Nat)
  /-- GROUP_COMMIT (R490): Group window command committing new settings from the leader. -/
  | groupCommit (off : BitVec 64) (len : BitVec 32) (data : Option (List Nat))
  /-- GROUP_LEAVE (R494): Group window command taking the member out of group service. -/
  | groupLeave
  /-- GROUP_REJOIN (R489): Group window command ending the GROUP_LEAVE hold. -/
  | groupRejoin
  /-- PREPARE (R490): A member receives PREPARE, validates and replies READY or REFUSE. -/
  | prepare (m : Fin 5) (epoch : BitVec 32) (cur : BitVec 4) (ld : Fin 5) (enc : List Nat)
  /-- READY (R490): The leader receives a READY or REFUSE reply to PREPARE. -/
  | ready (m : Fin 5) (refuse : Bool)
  /-- COMMIT (R490): A member receives COMMIT with T_apply. -/
  | commit (t : BitVec 64)
  /-- COMMIT_APPLY (R490): At T_apply each member applies the new epoch, membership and tables in one step. -/
  | commitApply
  /-- GROUP_ABORT (R490): A member receives ABORT and drops its prepared state. -/
  | groupAbort
  /-- PREPARE_TIMEOUT (R490): Not every member answers READY within 10 ms and the leader aborts. -/
  | prepareTimeout
  /-- PREPARED_DISCARD (R491): A prepared state is discarded 100 ms after PREPARE. -/
  | preparedDiscard
  /-- GROUP_FORM (R486): With no MEMBER heard for two superframes the chosen JOINING member forms the group. -/
  | groupForm
  /-- LEADER_LOST (R487): The leader loses contact and the new leader runs a membership commit. -/
  | leaderLost
  /-- SELF_FENCE (R493): Contact below majority for FENCE_MS fences the member. -/
  | selfFence
  /-- FENCE_RECOVERY (R493): Contact at majority for 100 ms moves a FENCED member to JOINING. -/
  | fenceRecovery
  /-- MEMBER_LOST (R492): A member out of contact for FENCE_MS or HALTED is removed by the leader. -/
  | memberLost (m : Fin 5)
  /-- REPLICATED_WRITE (R491): A write to a REPLICATED table on the leader's window is sent to every member in order. -/
  | replicatedWrite (a : ReplArg)
  /-- REPLICATED_APPLY_TIMEOUT (R491): A member not applying a replicated write within 1 ms is removed. -/
  | replicatedApplyTimeout (seq : Nat)
  /-- REPLICATED_AGING_REPORT (R495): Members report idle REPLICATED entries and the leader deletes them. -/
  | replicatedAgingReport (m : Fin 5) (n : Fin 1024) (ix : Nat) (div : BitVec 4)
  /-- BEACON_TRANSMIT (R497): A node transmits its beacon frame in its own slot. -/
  | beaconTransmit (collide : Bool)
  /-- BEACON_RECEIVE (R498): A BEACON frame is received and classified as accepted, EDGE or SLOT_OVERRUN. -/
  | beaconReceive (b : List Nat) (at_ : Nat)
  /-- WAKE_RECEIVE (R497): A WAKE frame targeting this COCOON member begins Cocoon exit. -/
  | wakeReceive (b : List Nat) (at_ : Nat)
  /-- ANNOUNCE_RECEIVE (R497): An ANNOUNCE frame from the BMC is counted and ignored. -/
  | announceReceive (b : List Nat) (at_ : Nat)
  /-- WAKE_FRAME_SEND (R497): A node sends a WAKE frame in slot 5, retrying after a collision. -/
  | wakeFrameSend (targets : BitVec 4) (collide : Bool) (retry : Fin 4)
  /-- SLOT_TRIM (R499): At the superframe boundary a transmitter shifts its slot timer by a reported OFFSET. -/
  | slotTrim
  /-- SLOT_SILENCED (R500): Three superframes of overruns or collisions silence a node, which then realigns. -/
  | slotSilenced
  /-- HOLD_OVER_EXPIRY (R501): No valid frame for the hold-over starts re-rendezvous. -/
  | holdOverExpiry
  /-- RENDEZVOUS_WAIT_EXPIRY (R501): The re-rendezvous wait passes unheard and the node sends a RENDEZVOUS beacon. -/
  | rendezvousWaitExpiry
  /-- WAKE_PULSE (R502): A 3 ms low level on an awake line wakes a COCOON node. -/
  | wakePulse
  /-- MCTP_PACKET (R505): An MCTP packet is received with PEC, reassembled and dispatched by type. -/
  | mctpPacket (b : List (BitVec 8))
  /-- REASSEMBLY_TIMEOUT (R505): A partial MCTP message incomplete for 100 ms is discarded. -/
  | reassemblyTimeout (src : BitVec 8) (tag : Fin 8)
  /-- SET_ENDPOINT_ID (R505): MCTP control command assigning the endpoint ID. -/
  | setEndpointId
  /-- GET_ENDPOINT_ID (R505): MCTP control command returning the endpoint ID. -/
  | getEndpointId
  /-- GET_ENDPOINT_UUID (R505): MCTP control command returning the endpoint UUID. -/
  | getEndpointUuid
  /-- GET_MCTP_VERSION_SUPPORT (R505): MCTP control command returning supported versions. -/
  | getMctpVersionSupport
  /-- GET_MESSAGE_TYPE_SUPPORT (R505): MCTP control command returning supported message types. -/
  | getMessageTypeSupport
  /-- GET_VENDOR_DEFINED_MESSAGE_SUPPORT (R505): MCTP control command returning vendor message support. -/
  | getVendorDefinedMessageSupport
  /-- GET_MEASUREMENTS (R574): SPDM request returning the measurement blocks. -/
  | getMeasurements (via : SpdmVia)
  /-- GET_CERTIFICATE (R573): SPDM request returning the certificate chain. -/
  | getCertificate (via : SpdmVia)
  /-- CHALLENGE (R573): SPDM challenge signed with the Alias key. -/
  | challenge (via : SpdmVia)
  /-- KEY_EXCHANGE (R506): SPDM key exchange opening a secured session bound to a secure channel. -/
  | keyExchange (via : SpdmVia)
  /-- IDENTIFY (R506): Vendor command returning part, revision, member, power and steward state. -/
  | identify
  /-- HEALTH (R506): Vendor command returning FCOL status, FPSW and group status. -/
  | health
  /-- LOG_READ (R506): Vendor command returning fault log entries. -/
  | logRead
  /-- MODULE_STATUS (R506): Vendor command returning a module's status and flags. -/
  | moduleStatus
  /-- MODULE_READ (R506): Vendor command reading module memory. -/
  | moduleRead
  /-- MODULE_WRITE (R506): Vendor command writing module memory in a secured session. -/
  | moduleWrite
  /-- STEWARD_CMD (R506): Vendor command carrying a steward command on the session's secure channel. -/
  | stewardCmd
  /-- I2C_TRANSACTION (R509): A port engine issues the next queued transaction on its bus. -/
  | i2cTransaction (p : Fin 5) (a : I2cAnswer)
  /-- ARBITRATION_LOST (R510): The device loses arbitration, logs it and waits to retry. -/
  | arbitrationLost (p : Fin 5) (at_ : BitVec 8) (n : Fin 8)
  /-- ARB_BACKOFF_EXPIRY (R510): The bus-free wait and random backoff end and the transaction restarts. -/
  | arbBackoffExpiry (p : Fin 5) (draw : BitVec 8)
  /-- BUS_TIMEOUT (R512): SCL held low over 25 ms ends the transaction with BUS_TIMEOUT. -/
  | busTimeout (p : Fin 5) (target : Bool)
  /-- BUS_RECOVERY (R513): A stuck bus is recovered by clocking SCL, or the port becomes FAILED and retries every 1 s. -/
  | busRecovery (p : Fin 4) (clears : Bool)
  /-- MODULE_POLL (R515): Every POLL_MS each valid module is polled for presence, state and flags. -/
  | modulePoll (m : Fin 32)
  /-- VOUT_COMMAND (R518): A voltage command is sent to a pod rail regulator and read back. -/
  | voutCommand (r : Fin 4)
  /-- AVS_TELEMETRY (R518): Every 10 ms the rail's VOUT, IOUT and STATUS_WORD are read. -/
  | avsTelemetry (r : Fin 4)
  /-- MOD_READ (R519): Management transaction window command reading module memory. -/
  | modRead (m : Fin 32) (bank page off : BitVec 8) (len : BitVec 8)
  /-- MOD_WRITE (R519): Management transaction window command writing module memory. -/
  | modWrite (m : Fin 32) (bank page off : BitVec 8) (len : BitVec 8) (data : List (BitVec 8))
  /-- COCOON_REQ (R523): COCOON_REQ starts entry: commands time out, ledgers written, links down. -/
  | cocoonReq
  /-- COCOON_ENTRY (R524): AON isolates the other islands, switches to XTAL_32K and deasserts RAIL_EN. -/
  | cocoonEntry (hist : List (Nat × List Nat))
  /-- COCOON_WAKE (R525): An enabled wake source is seen and RAIL_EN is asserted. -/
  | cocoonWake (src : Fin 4)
  /-- PWR_GOOD_ASSERT (R526): PWR_GOOD is seen after RAIL_EN and the 2 ms release wait starts. -/
  | pwrGoodAssert
  /-- PWR_GOOD_TIMEOUT (R526): PWR_GOOD not seen within PG_TMO_MS, RAIL_EN deasserted and SUPPLY_LOW logged. -/
  | pwrGoodTimeout
  /-- ISLAND_RELEASE (R526): The other islands are released, the reference event of the start. -/
  | islandRelease (straps : BitVec 6)
  /-- PWR_GOOD_FALL (R620): PWR_GOOD deasserted outside COCOON acts as POR_N assertion. -/
  | pwrGoodFall
  /-- POR_ASSERT (R522): POR_N asserted performs COLD_RESET. -/
  | porAssert
  /-- POR_DEASSERT (R542): POR_N deasserted latches straps and begins the start. -/
  | porDeassert (straps : BitVec 6)
  /-- AON_POWER_LOSS (R522): VDD_AON is lost and the device goes OFF. -/
  | aonPowerLoss
  /-- PARK_AUTO_WAKE (R527): Load or containment clears PARK_REQ of the lowest parked pod. -/
  | parkAutoWake
  /-- CLOCK_LOSS (R529): A reference clock has no edge for its bound and its fault is raised. -/
  | clockLoss (c : Fin 7)
  /-- XTAL_32K_RECOVER (R531): XTAL_32K_OK returns after 1,024 consecutive edges. -/
  | xtal32kRecover
  /-- TIME_STEP (R539): A TIME.STEP write moves the DTB and every deadline forward 2 us later. -/
  | timeStep (v : BitVec 64)
  /-- TIME_ADJ_WRITE (R540): A software write of TIME.ADJ sets the rate and clears STEER_EN. -/
  | timeAdjWrite (v : BitVec 32)
  /-- LOCK_TIMEOUT (R538): LOCK_TMO_S without an ADJ write clears LOCKED and raises PTP_LOCK_LOST. -/
  | lockTimeout
  /-- TIME_STEER (R540): Every 10 ms a non-leader member steers its DTB toward the leader's. -/
  | timeSteer
  /-- DTB_SYNC (R537): AON sends a DTB synchronisation message every 1 us to correct local counters. -/
  | dtbSync (n : Fin 26) (e : BitVec 16)
  /-- AVS_TARGET_UPDATE (R534): The AVS loop recomputes a rail target and steps voltage and CAP_MHZ in order. -/
  | avsTargetUpdate (r : Fin 4)
  /-- WARM_RESET (R551): A valid WARM_CTL request writes ledgers and holds islands 0 to 24 in reset. -/
  | warmReset (steward : Bool) (v : BitVec 32)
  /-- WARM_RELEASE (R551): After 1 ms the warm release starts a new start from step 2. -/
  | warmRelease
  /-- FUSE_SENSE (R557): The fuse controller senses the array, tests drift and loads the shadow. -/
  | fuseSense (tj : BitVec 8) (ov : List FuseRead) (bad : Bool)
  /-- SENSE_TIMEOUT (R557): The sense is not done within 5 ms and the start enters SECURE_HOLD. -/
  | senseTimeout (w : Fin 512)
  /-- BOOT_SELECT (R581): The boot ROM selects, verifies and starts a firmware slot, or enters recovery. -/
  | bootSelect (reports : Bool)
  /-- BOOT_WATCHDOG (R582): The 1 s boot watchdog expires and the next slot is tried. -/
  | bootWatchdog (reports : Bool)
  /-- CONFIG_APPLY (R544): Start step 3 writes and locks every RWL setting from the config region. -/
  | configApply (settings : List (Reg × Nat × BitVec 64))
  /-- MICROCODE_LOAD (R545): Start step 4 loads SerDes adaptation microcode. -/
  | microcodeLoad
  /-- PORT_RELEASE (R347): Start step 5 releases the PCIe ports from retry status. -/
  | portRelease
  /-- CHRYSALIS_START (R546): Lookup microcode and Chrysalis table load, Chrysalis ports train and the path goes ACTIVE. -/
  | chrysalisStart
  /-- HBM_TRAINING (R544): Start step 8 trains both HBM stacks, retiring failed pseudo-channels. -/
  | hbmTraining (failed : BitVec 64)
  /-- POD_LOAD (R544): Start step 9 loads each pod and creates table descriptors. -/
  | podLoad (descs : List (Fin 1024 × BitVec 64 × BitVec 64))
  /-- SERVICE_SWITCH (R547): New frames go to parse profiles and pods and the Chrysalis path stops. -/
  | serviceSwitch
  /-- RETRAIN_GROUP (R548): A lane group is written to its configured mode and retrains. -/
  | retrainGroup (n : Fin 4) (v : BitVec 32) (ports : List (BitVec 64))
  /-- RETRAIN_TIMEOUT (R548): 310 ms pass and retraining moves to the next group. -/
  | retrainTimeout
  /-- RUN_ENTRY (R544): The start completes and PWR.STATE becomes RUN. -/
  | runEntry
  /-- CHRYSALIS_FORWARD (R546): The Chrysalis path looks up and forwards or refuses a frame. -/
  | chrysalisForward (st : BitVec 48)
  /-- PROGRAM (R565): Fuse programming command blowing COUNT words. -/
  | program (src : PwSource) (word : BitVec 9) (data : List (BitVec 32)) (miss : List FuseMiss)
  /-- LC_ADVANCE (R562): Fuse programming command setting the next lifecycle step word. -/
  | lcAdvance (src : PwSource) (miss : List FuseMiss)
  /-- ROLLBACK_ADVANCE (R570): Fuse programming command advancing the anti-rollback counter. -/
  | rollbackAdvance (src : PwSource) (t : BitVec 8) (miss : List FuseMiss)
  /-- JTAG_INSTRUCTION (R563): A JTAG instruction is accepted or acts as BYPASS under the lock. -/
  | jtagInstruction (j : JtagInsn)
  /-- FW_WRITE (R585): Steward command writing image data to the standby slot. -/
  | fwWrite (m : Fin 16) (tmo : BitVec 14) (off : BitVec 64) (len slotOff : BitVec 32) (data : Option (List Nat)) (fq : Fin 4)
  /-- FW_FINISH (R585): Steward command verifying the standby slot and placing it on trial. -/
  | fwFinish (m : Fin 16) (tmo : BitVec 14) (fq : Fin 4)
  /-- FW_COMMIT (R584): Steward command committing the running trial slot. -/
  | fwCommit (m : Fin 16) (tmo : BitVec 14) (adv : Bool) (miss : List FuseMiss) (fq : Fin 4)
  /-- FW_ABORT (R585): Steward command clearing a pending trial. -/
  | fwAbort (m : Fin 16) (tmo : BitVec 14)
  /-- MOULT_SET (R594): Steward command moulting several slots in one switch. -/
  | moultSet (m : Fin 16) (tmo : BitVec 14) (l : List MoultArg)
  /-- CHRY_WRITE (R585): Steward command writing the older Chrysalis table copy. -/
  | chryWrite (m : Fin 16) (tmo : BitVec 14) (off : BitVec 64) (len : BitVec 32) (data : Option (List Nat)) (fq : Fin 4)
  /-- FLASH_INFO (R585): Steward command returning spare and wear information. -/
  | flashInfo (m : Fin 16) (tmo : BitVec 14)
  /-- AUTO_COMMIT (R584): After AUTO_COMMIT_S in RUN the trial is committed. -/
  | autoCommit
  /-- RECORD_WRITE (R589): A persistent record is written after its setting takes effect. -/
  | recordWrite (fq : Fin 4)
  /-- LOG_COMPACTION (R586): With fewer than 2 free sectors live records move and the old sector is erased. -/
  | logCompaction (fq : Fin 4)
  /-- WEAR_LEDGER_WRITE (R590): The wear ledger is written at command completion and within 10 s of an erase. -/
  | wearLedgerWrite (fq : Fin 4)
  /-- MOULT_SWITCH (R594): At the switch instant BUF stamps new tokens with the new version. -/
  | moultSwitch (m : Fin 16)
  /-- MOULT_RETIRED (R596): OLD_COUNT reaches 0 and the retiring version is freed. -/
  | moultRetired (slot : BitVec 8)
  /-- SAMPLE (R603): An Eyespot output sample is written and compared against thresholds. -/
  | sample (v : Int)
  /-- SAMPLE_TIMEOUT (R608): No sample within 10 sample periods makes the channel FAILED. -/
  | sampleTimeout
  /-- SINGLE_CONVERSION (R605): EYE.SW command running one extra conversion visit. -/
  | singleConversion (ch : BitVec 5) (gain : BitVec 1) (osr : BitVec 3) (chop : BitVec 1) (count : BitVec 4)
  /-- THROTTLE_APPLY (R609): The AVS loop caps or releases pods for a thermal condition. -/
  | throttleApply
  /-- CORE_CTL_WRITE (R147): A CORE_CTL write changes mode, quantum or thread enables at the next pod cycle. -/
  | coreCtlWrite (core : Fin 256) (v : BitVec 32) (own : Fin 8)
  /-- QUANTUM_EXPIRY (R145): QUANTUM cycles pass and the STALLSWITCH slot passes on. -/
  | quantumExpiry (core : Fin 256)
  /-- THREAD_WAKE (R146): A class W wait's wake condition holds and the thread becomes ready. -/
  | threadWake (th : Fin 2048)
  /-- TICKET_COMPLETE (R133): A ticket becomes READY and its result bytes land in LOCAL. -/
  | ticketComplete (th : Fin 2048) (tk : Fin 8) (ue : Bool)
  /-- WATCHDOG (R111): The slot budget passes before END and the thread traps with WATCHDOG. -/
  | watchdog (th : Fin 2048)
  /-- HANDLER_DEADLINE (R154): A handler's extended or original deadline passes, a double fault. -/
  | handlerDeadline (th : Fin 2048)
  /-- SLOT_HANDLER_WRITE (R151): A POD.SLOT_HANDLER write changes the active version's handler. -/
  | slotHandlerWrite (pod : Fin 16) (slot : Fin 256) (v : BitVec 32)
  /-- SUPERVISOR_WRITE (R157): A write naming another supervisor thread takes no new token for it. -/
  | supervisorWrite (pod : Fin 16) (v : BitVec 32)
  /-- SUPERVISOR_HANDOVER (R157): The named thread has no attempt and becomes the supervisor. -/
  | supervisorHandover (pod : Fin 16)
  /-- SUPERVISOR_RESTART (R157): RESTART starts the supervisor at ENTRY with a fresh state. -/
  | supervisorRestart (pod : Fin 16)
  /-- PARK_REQUEST (R162): PARK_REQ 1 in RUN makes the pod DRAINING. -/
  | parkRequest (pod : Fin 16)
  /-- POD_PARKED (R162): All workers idle and the port empty, the pod stops its clock in PARKED. -/
  | podParked (pod : Fin 16)
  /-- PARK_CANCEL (R162): PARK_REQ 0 during DRAINING returns the pod to RUN. -/
  | parkCancel (pod : Fin 16)
  /-- POD_WAKE (R162): PARK_REQ 0 in PARKED starts WAKING. -/
  | podWake (pod : Fin 16)
  /-- POD_RUN (R162): WAKING completes, the pod is in RUN and consumes held messages. -/
  | podRun (pod : Fin 16)
  /-- ADD (R125): ALU add. -/
  | ngAdd (th : Fin 2048) (gd : Guard) (w : Bool) (rd ra rb : Fin 32)
  /-- SUB (R125): ALU subtract. -/
  | ngSub (th : Fin 2048) (gd : Guard) (w : Bool) (rd ra rb : Fin 32)
  /-- AND (R125): ALU bitwise AND. -/
  | ngAnd (th : Fin 2048) (gd : Guard) (w : Bool) (rd ra rb : Fin 32)
  /-- OR (R125): ALU bitwise OR. -/
  | ngOr (th : Fin 2048) (gd : Guard) (w : Bool) (rd ra rb : Fin 32)
  /-- XOR (R125): ALU bitwise XOR. -/
  | ngXor (th : Fin 2048) (gd : Guard) (w : Bool) (rd ra rb : Fin 32)
  /-- ANDN (R125): ALU AND with complement. -/
  | ngAndn (th : Fin 2048) (gd : Guard) (w : Bool) (rd ra rb : Fin 32)
  /-- SHL (R125): ALU shift left. -/
  | ngShl (th : Fin 2048) (gd : Guard) (w : Bool) (rd ra rb : Fin 32)
  /-- SHR (R125): ALU logical shift right. -/
  | ngShr (th : Fin 2048) (gd : Guard) (w : Bool) (rd ra rb : Fin 32)
  /-- SAR (R125): ALU arithmetic shift right. -/
  | ngSar (th : Fin 2048) (gd : Guard) (w : Bool) (rd ra rb : Fin 32)
  /-- ROL (R125): ALU rotate left. -/
  | ngRol (th : Fin 2048) (gd : Guard) (w : Bool) (rd ra rb : Fin 32)
  /-- MIN (R125): ALU signed minimum. -/
  | ngMin (th : Fin 2048) (gd : Guard) (w : Bool) (rd ra rb : Fin 32)
  /-- MAX (R125): ALU signed maximum. -/
  | ngMax (th : Fin 2048) (gd : Guard) (w : Bool) (rd ra rb : Fin 32)
  /-- MINU (R125): ALU unsigned minimum. -/
  | ngMinu (th : Fin 2048) (gd : Guard) (w : Bool) (rd ra rb : Fin 32)
  /-- MAXU (R125): ALU unsigned maximum. -/
  | ngMaxu (th : Fin 2048) (gd : Guard) (w : Bool) (rd ra rb : Fin 32)
  /-- MUL (R125): ALU low product. -/
  | ngMul (th : Fin 2048) (gd : Guard) (w : Bool) (rd ra rb : Fin 32)
  /-- MULHU (R125): ALU high unsigned product. -/
  | ngMulhu (th : Fin 2048) (gd : Guard) (w : Bool) (rd ra rb : Fin 32)
  /-- DIVU (R125): ALU unsigned quotient, all ones on zero divisor. -/
  | ngDivu (th : Fin 2048) (gd : Guard) (w : Bool) (rd ra rb : Fin 32)
  /-- REMU (R125): ALU unsigned remainder, ra on zero divisor. -/
  | ngRemu (th : Fin 2048) (gd : Guard) (w : Bool) (rd ra rb : Fin 32)
  /-- PRD (R125): Reads the predicate byte into a register. -/
  | ngPrd (th : Fin 2048) (gd : Guard) (rd : Fin 32)
  /-- PWR (R125): Writes p1 to p7 from a register. -/
  | ngPwr (th : Fin 2048) (gd : Guard) (ra : Fin 32)
  /-- ADDI (R125): Add immediate. -/
  | ngAddi (th : Fin 2048) (gd : Guard) (rd ra : Fin 32) (imm : ImmI)
  /-- ANDI (R125): AND immediate. -/
  | ngAndi (th : Fin 2048) (gd : Guard) (rd ra : Fin 32) (imm : ImmI)
  /-- ORI (R125): OR immediate, also the canonical NOP. -/
  | ngOri (th : Fin 2048) (gd : Guard) (rd ra : Fin 32) (imm : ImmI)
  /-- XORI (R125): XOR immediate. -/
  | ngXori (th : Fin 2048) (gd : Guard) (rd ra : Fin 32) (imm : ImmI)
  /-- MOVI (R125): Move sign-extended immediate. -/
  | ngMovi (th : Fin 2048) (gd : Guard) (rd : Fin 32) (imm : ImmI)
  /-- MOVHI (R125): Write the high 32 bits from an immediate. -/
  | ngMovhi (th : Fin 2048) (gd : Guard) (rd ra : Fin 32) (imm : ImmI)
  /-- SHI_SHL (R125): Shift left by immediate. -/
  | ngShiShl (th : Fin 2048) (gd : Guard) (w : Bool) (rd ra : Fin 32) (amt : Fin 64)
  /-- SHI_SHR (R125): Logical shift right by immediate. -/
  | ngShiShr (th : Fin 2048) (gd : Guard) (w : Bool) (rd ra : Fin 32) (amt : Fin 64)
  /-- SHI_SAR (R125): Arithmetic shift right by immediate. -/
  | ngShiSar (th : Fin 2048) (gd : Guard) (w : Bool) (rd ra : Fin 32) (amt : Fin 64)
  /-- SHI_ROL (R125): Rotate left by immediate. -/
  | ngShiRol (th : Fin 2048) (gd : Guard) (w : Bool) (rd ra : Fin 32) (amt : Fin 64)
  /-- CMP (R126): Compares two registers and writes a predicate. -/
  | ngCmp (th : Fin 2048) (gd : Guard) (w : Bool) (mode : Fin 3) (cond pd : Fin 8) (ra rb : Fin 32)
  /-- CMPI (R126): Compares a register with an immediate and writes a predicate. -/
  | ngCmpi (th : Fin 2048) (gd : Guard) (w : Bool) (mode : Fin 3) (cond pd : Fin 8) (ra : Fin 32) (imm : ImmC)
  /-- PLOG (R127): Combines two predicates. -/
  | ngPlog (th : Fin 2048) (gd : Guard) (pop : Fin 4) (pd pa pb : Fin 8)
  /-- EXTU (R125): Extracts an unsigned bit field. -/
  | ngExtu (th : Fin 2048) (gd : Guard) (rd ra : Fin 32) (pos wm1 : Fin 64)
  /-- EXTS (R125): Extracts a sign-extended bit field. -/
  | ngExts (th : Fin 2048) (gd : Guard) (rd ra : Fin 32) (pos wm1 : Fin 64)
  /-- INS (R125): Inserts a bit field. -/
  | ngIns (th : Fin 2048) (gd : Guard) (rd ra : Fin 32) (pos wm1 : Fin 64)
  /-- BSWAP16 (R125): Reverses the bytes of the low 16 bits. -/
  | ngBswap16 (th : Fin 2048) (gd : Guard) (w : Bool) (rd ra : Fin 32)
  /-- BSWAP32 (R125): Reverses the bytes of the low 32 bits. -/
  | ngBswap32 (th : Fin 2048) (gd : Guard) (w : Bool) (rd ra : Fin 32)
  /-- BSWAP64 (R125): Reverses all 8 bytes. -/
  | ngBswap64 (th : Fin 2048) (gd : Guard) (rd ra : Fin 32)
  /-- CLZ (R125): Counts leading zero bits. -/
  | ngClz (th : Fin 2048) (gd : Guard) (w : Bool) (rd ra : Fin 32)
  /-- CTZ (R125): Counts trailing zero bits. -/
  | ngCtz (th : Fin 2048) (gd : Guard) (w : Bool) (rd ra : Fin 32)
  /-- POPC (R125): Counts one bits. -/
  | ngPopc (th : Fin 2048) (gd : Guard) (w : Bool) (rd ra : Fin 32)
  /-- CRC32C_B (R125): CRC32C update with one byte. -/
  | ngCrc32cB (th : Fin 2048) (gd : Guard) (rd ra rb : Fin 32)
  /-- CRC32C_W (R125): CRC32C update with four bytes. -/
  | ngCrc32cW (th : Fin 2048) (gd : Guard) (rd ra rb : Fin 32)
  /-- CRC32C_D (R125): CRC32C update with eight bytes. -/
  | ngCrc32cD (th : Fin 2048) (gd : Guard) (rd ra rb : Fin 32)
  /-- CSADD (R125): Ones'-complement sum with end-around carry. -/
  | ngCsadd (th : Fin 2048) (gd : Guard) (rd ra rb : Fin 32)
  /-- CSFOLD (R125): Folds a value to 16 bits by ones'-complement addition. -/
  | ngCsfold (th : Fin 2048) (gd : Guard) (w : Bool) (rd ra : Fin 32)
  /-- SEL (R125): Selects one of two registers by a predicate. -/
  | ngSel (th : Fin 2048) (gd : Guard) (n : Fin 8) (neg : Bool) (rd ra rb : Fin 32)
  /-- BR (R128): PC-relative branch. -/
  | ngBr (th : Fin 2048) (gd : Guard) (off : BitVec 22)
  /-- CALL (R128): PC-relative call writing g31. -/
  | ngCall (th : Fin 2048) (gd : Guard) (off : BitVec 22)
  /-- JR (R128): Register-indirect jump, optionally linking. -/
  | ngJr (th : Fin 2048) (gd : Guard) (rd ra : Fin 32) (imm : BitVec 12)
  /-- LDL (R129): Loads from LOCAL. -/
  | ngLdl (th : Fin 2048) (gd : Guard) (sz : Fin 4) (sx : Bool) (rd ra : Fin 32) (off : ImmL)
  /-- STL (R129): Stores to private LOCAL. -/
  | ngStl (th : Fin 2048) (gd : Guard) (sz : Fin 4) (rs ra : Fin 32) (off : ImmL)
  /-- LDP (R130): Loads from PKT space. -/
  | ngLdp (th : Fin 2048) (gd : Guard) (sz : Fin 4) (be : Bool) (rd ra : Fin 32) (off : Fin 512)
  /-- LK (R134): Issues a lookup on a ticket. -/
  | ngLk (th : Fin 2048) (gd : Guard) (tk : Fin 8) (tref : Fin 64) (ra rb : Fin 32)
  /-- LKS (R182): Issues a shadow lookup on a ticket. -/
  | ngLks (th : Fin 2048) (gd : Guard) (tk : Fin 8) (tref : Fin 64) (ra rb : Fin 32)
  /-- LKC (R136): Confirms a READY LKS result. -/
  | ngLkc (th : Fin 2048) (gd : Guard) (tk : Fin 8)
  /-- TRD (R176): Reads one entry by handle on a ticket. -/
  | ngTrd (th : Fin 2048) (gd : Guard) (tk : Fin 8) (tref : Fin 64) (ra rb : Fin 32)
  /-- REACH (R95): Copies item bytes into private LOCAL on a ticket. -/
  | ngReach (th : Fin 2048) (gd : Guard) (tk : Fin 8) (ra rb : Fin 32)
  /-- HRD (R134): Issues a host read on a ticket. -/
  | ngHrd (th : Fin 2048) (gd : Guard) (tk : Fin 8) (ra rb : Fin 32)
  /-- CSRRD (R134): Issues a CSR read on a ticket. -/
  | ngCsrrd (th : Fin 2048) (gd : Guard) (is32 : Bool) (tk : Fin 8) (ra rb : Fin 32)
  /-- TKST (R131): Waits for a ticket, writes its status and frees it. -/
  | ngTkst (th : Fin 2048) (gd : Guard) (tk : Fin 8) (rd : Fin 32)
  /-- TKPEEK (R131): Waits for a ticket and writes its status, keeping it READY. -/
  | ngTkpeek (th : Fin 2048) (gd : Guard) (tk : Fin 8) (rd : Fin 32)
  /-- TKTEST (R131): Sets a predicate if a ticket is READY. -/
  | ngTktest (th : Fin 2048) (gd : Guard) (tk pd : Fin 8)
  /-- TKCAN (R131): Cancels a ticket to IDLE. -/
  | ngTkcan (th : Fin 2048) (gd : Guard) (tk : Fin 8)
  /-- RDDTB (R137): Reads the DTB. -/
  | ngRddtb (th : Fin 2048) (gd : Guard) (rd : Fin 32)
  /-- SETTC (R137): Sets TCMP. -/
  | ngSettc (th : Fin 2048) (gd : Guard) (ra : Fin 32)
  /-- RDTC (R137): Reads TCMP. -/
  | ngRdtc (th : Fin 2048) (gd : Guard) (rd : Fin 32)
  /-- WAITT (R137): Sleeps until timer, ticket or wake event. -/
  | ngWaitt (th : Fin 2048) (gd : Guard) (rd rb : Fin 32)
  /-- HAPP (R138): Appends an edit command to the edit list. -/
  | ngHapp (th : Fin 2048) (gd : Guard) (ra : Fin 32)
  /-- HCLR (R138): Empties the edit list. -/
  | ngHclr (th : Fin 2048) (gd : Guard)
  /-- HPOP (R138): Removes the last edit command. -/
  | ngHpop (th : Fin 2048) (gd : Guard)
  /-- VERDICT (R297): Issues an inbound crypto check on a ticket. -/
  | ngVerdict (th : Fin 2048) (gd : Guard) (tk : Fin 8) (ra rb : Fin 32)
  /-- SAQRY (R302): Reads non-secret SA state on a ticket. -/
  | ngSaqry (th : Fin 2048) (gd : Guard) (tk : Fin 8) (ra rb : Fin 32)
  /-- TWR_INSERT (R194): Stages a TABLE_WRITE insert. -/
  | ngTwrInsert (th : Fin 2048) (gd : Guard) (tref : Fin 64) (ra rb : Fin 32)
  /-- TWR_MODIFY (R194): Stages a TABLE_WRITE modify. -/
  | ngTwrModify (th : Fin 2048) (gd : Guard) (tref : Fin 64) (ra rb : Fin 32)
  /-- TWR_DELETE (R194): Stages a TABLE_WRITE delete. -/
  | ngTwrDelete (th : Fin 2048) (gd : Guard) (tref : Fin 64) (ra : Fin 32)
  /-- CNTA_ENTRY (R197): Stages a CNT_ADD to an entry counter. -/
  | ngCntaEntry (th : Fin 2048) (gd : Guard) (tref : Fin 64) (ra rb : Fin 32)
  /-- CNTA_PROG (R197): Stages a CNT_ADD to a program counter. -/
  | ngCntaProg (th : Fin 2048) (gd : Guard) (ra rb : Fin 32)
  /-- ATOM (R180): Stages an ATOMIC effect. -/
  | ngAtom (th : Fin 2048) (gd : Guard) (tref : Fin 64) (ra : Fin 32)
  /-- EMIT (R139): Stages an EMIT with the current edit list. -/
  | ngEmit (th : Fin 2048) (gd : Guard) (ra rb : Fin 32)
  /-- EMIT_END (R140): Stages an EMIT and ends the attempt. -/
  | ngEmitEnd (th : Fin 2048) (gd : Guard) (ra rb : Fin 32)
  /-- DISC (R103): Stages a DISCARD. -/
  | ngDisc (th : Fin 2048) (gd : Guard) (ra : Fin 32)
  /-- DISC_END (R140): Stages a DISCARD and ends the attempt. -/
  | ngDiscEnd (th : Fin 2048) (gd : Guard) (ra : Fin 32)
  /-- DMAW_IMMEDIATE (R394): Stages a DMA_WRITE of immediate bytes. -/
  | ngDmawImmediate (th : Fin 2048) (gd : Guard) (ra rb : Fin 32)
  /-- DMAW_RANGE (R394): Stages a DMA_WRITE of a range of item data. -/
  | ngDmawRange (th : Fin 2048) (gd : Guard) (ra : Fin 32)
  /-- MBXP (R436): Stages an MBOX_POST. -/
  | ngMbxp (th : Fin 2048) (gd : Guard) (ra rb : Fin 32)
  /-- CSRW (R139): Stages a CSR_WRITE. -/
  | ngCsrw (th : Fin 2048) (gd : Guard) (is32 : Bool) (ra rb : Fin 32)
  /-- SAUP (R303): Stages an SA_UPDATE. -/
  | ngSaup (th : Fin 2048) (gd : Guard) (ra rb : Fin 32)
  /-- EVT (R452): Stages an EVENT effect. -/
  | ngEvt (th : Fin 2048) (gd : Guard) (ra : Fin 32)
  /-- END (R140): Ends the attempt, cancels tickets and sends the batch. -/
  | ngEnd (th : Fin 2048) (gd : Guard)
  /-- FNPOP (R141): Supervisor pops the oldest fault note. -/
  | ngFnpop (th : Fin 2048) (gd : Guard) (rd ra : Fin 32)
  /-- THCTL (R159): Supervisor restarts, halts or wakes a thread. -/
  | ngThctl (th : Fin 2048) (gd : Guard) (ra rb : Fin 32)
  /-- SSTD (R141): Supervisor stores 8 bytes into shared LOCAL. -/
  | ngSstd (th : Fin 2048) (gd : Guard) (ra rb : Fin 32)
  /-- HRETRY (R153): Handler resumes at the faulting instruction. -/
  | ngHretry (th : Fin 2048) (gd : Guard)
  /-- HSKIP (R153): Handler resumes after the faulting instruction. -/
  | ngHskip (th : Fin 2048) (gd : Guard)
  /-- HDISC (R153): Handler drops records and ends with one DISCARD. -/
  | ngHdisc (th : Fin 2048) (gd : Guard) (ra : Fin 32)
  /-- HESC (R153): Handler escalates, ending with an empty batch and halting the thread. -/
  | ngHesc (th : Fin 2048) (gd : Guard)
  /-- RDFK (R142): Handler reads the fault kind and address. -/
  | ngRdfk (th : Fin 2048) (gd : Guard) (rd : Fin 32)
  /-- MIGRATION_RESTORE (R428): The migration window command RESTORE reads and checks a state image and applies it to a CREATED instance, leaving it RESTORED. -/
  | migrationRestore (p : Fin 4) (inst : Fin 2052) (kek : Fin 64) (size : BitVec 32) (img : Option (List Nat))
  /-- REMOTE_FAULT (R213): The Reconciliation Sublayer begins to see remote or local fault on an aligned port without loss of signal, and the port leaves UP and starts its hold time. -/
  | remoteFault (p : Fin 32) (far : Bool)
  /-- PFC_STORM_END (R224): The STORM_MS ignore period after a pause storm runs out and received pause is honoured again. -/
  | pfcStormEnd (p : Fin 32) (c : Fin 9)
  /-- TIME_DIVERGED (R495): A member that has had no direct link to the leader for 1 s sets TIME_DIVERGED. -/
  | timeDiverged
  /-- GBL_LINE_AWAKE (R502): A COCOON node sees more than 64 falling edges within 1 ms, treats the line as awake and suspends its hold-over until the line has been quiet for 1.024 s. -/
  | gblLineAwake
  /-- ISLAND_RESET_END (R550): An island leaves ISLAND_RESET, its router ports stop answering ISLAND_ABSENT and the steward reloads its microcode. -/
  | islandResetEnd (n : Fin 26)
  /-- IDE_KM_MESSAGE (R331): An IDE_KM request over Secured CMA/SPDM programs or starts the keys of a link or selective IDE stream. -/
  | ideKmMessage (h : Fin 2) (x : Fin 5) (act : Fin 3)
  /-- SPDM_SESSION_END (R506): An SPDM secured session ends and its secure channel 4 to 7 is freed. -/
  | spdmSessionEnd (c : Fin 4)
  /-- LATCHED_WAKE (R524): A wake latched during ENTERING asserts RAIL_EN again 100 ms after its deassertion. -/
  | latchedWake
  /-- D0_ENTRY (R324): A function returns from D3hot to D0 and resumes its held work as when Bus Master Enable is set again. -/
  | d0Entry (f : Fin 2052)
deriving DecidableEq, Repr

end Sys2Proof
end

