-- ==== Sys2Proof/Decode.lean ====
section
/-!
DEFINITION. The commands that a word spells by the table's bits: spec/opcode_table.json gives no row any bits, so no
word spells one.
-/
namespace Sys2Proof

/-- The command whose bits are `w`: none, since the table gives its rows no bits. -/
def decodeTableWord (_nbits _w : Nat) : Option Instr := none

end Sys2Proof
end

