-- ==== Sys2Proof/Machine/PartCore.lean ====
section
/-!
DEFINITION. The parts of the state that every chapter uses: messages in flight, half latches, the statistics epoch,
result windows, and what leaves the device.
-/
namespace Sys2Proof.Machine

/-- An EVT message in flight from the raising block to the EVT block (20 Model, R453). `inst` names the instance of an
instance-scoped source and is 0 for a device-scoped one; `dtb` is the DTB of the raise in ns. -/
structure EvtMsg where
  id     : Nat
  inst   : Nat := 0
  info16 : Nat := 0
  info32 : Nat := 0
  dtb    : Nat := 0
  /-- When it was sent, in the deadline clock (R25). -/
  sent   : Nat := 0
deriving DecidableEq, Repr, Inhabited

/-- A fault message in flight to the collector (R457, Table 21-1); SEQ and LEVEL are the collector's. -/
structure FaultMsg where
  cls    : Nat
  kind   : Nat
  island : Nat
  block  : Nat := 0
  addr   : Nat := 0
  detail : Nat := 0
  /-- When it was sent, in the deadline clock (R25). -/
  sent   : Nat := 0
deriving DecidableEq, Repr, Inhabited

/-- A half latch of one requester in one block (R75, R76): the register whose half it holds, and the half. -/
structure HalfLatch where
  tag : Nat
  val : Nat
deriving DecidableEq, Repr, Inhabited

/-- The statistics epoch machine beside its registers (R80 to R84). Times are in the deadline clock (ns). -/
structure Epoch where
  /-- T_sw of the pending switch (R81). -/
  tsw     : Option Nat := none
  /-- A SWITCH request held while CLOSING is 1 (R84). -/
  held    : Bool := false
  /-- T_sw of the latest switch, in the deadline clock, while and after its bank closes. -/
  last    : Option Nat := none
  /-- T_last of R80: where the current period began. -/
  tlast   : Nat := 0
deriving DecidableEq, Repr, Inhabited

/-- A result window (R85 to R88). `st` is STATE: 0 IDLE, 1 BUSY, 2 DONE. `cmd` holds the fields of the command
register and `arg` the argument area, both as 64-bit words by byte offset; `res` holds the words of the result area that the last
completed command produced; every other byte of it reads 0 (R86). -/
structure Win where
  seq : Nat := 0
  st  : Nat := 0
  cmd : Nat := 0
  arg : Tbl Nat := {}
  res : List (Nat × Nat) := []
deriving DecidableEq, Repr, Inhabited

/-- Time and the islands (chapters 01, 03 and 24). -/
structure Sys where
  /-- The DTB of the AON island, in units of 2^-32 ns (R536). -/
  dtbFrac : Nat := 0
  /-- The sum of the steps of R539, in ns: `dtb - steps` is the clock in which deadlines are kept, so that a step moves
  every deadline forward by the same amount. -/
  steps : Nat := 0
  /-- Bit n: island n is in reset or unpowered (R16, R524, R551). -/
  islReset : Nat := 0
  /-- By island, the error of its local DTB (ns) that the last synchronisation message found (R537). -/
  localErr : Tbl Int := {}
  /-- Silkway: the pairs on hold after a router failure (R25) with the end of each hold. -/
  swyHold : List (Nat × Nat) := []
deriving DecidableEq, Repr, Inhabited

end Sys2Proof.Machine
end

