-- ==== Sys2Proof/Machine/PartFcol.lean ====
section
/-!
DEFINITION. The fault collector (21), the power states (24) and Eyespot (28) beside their registers.
-/
namespace Sys2Proof.Machine

/-- A log entry (Table 21-9): the message, its sequence, final level and the DTB at logging; its default level, ESCALATED,
ACKED, WINDOW and ACTIONS. -/
structure LogEntry where
  msg    : FaultMsg
  seq    : Nat
  level  : Nat
  dtb    : Nat
  dflt   : Nat
  escal  : Bool := false
  acked  : Bool := false
  window : Bool := false
  actions : Nat := 0
deriving DecidableEq, Repr

/-- The collector beside its registers: the log by slot, the SEQ assigned last; by (class, kind, SOURCE), when an L0 or L1
message was logged last (R470); by part class, the last CONTAIN (R474); by pod, its last CONTAINs (R475); by island, since
when its FATAL bit is set without a message at L3 (R464); and by memory, when CE_STORM was sent last (R462). -/
structure Fcol where
  log    : Tbl (Option LogEntry) := {}
  seq    : Nat := 0
  noted  : Tbl (Option Nat) := {}
  contAt : Tbl (Option Nat) := {}
  podCont : Tbl (List Nat) := {}
  silent : Tbl (Option Nat) := {}
  storm  : Tbl (Option Nat) := {}
deriving DecidableEq, Repr, Inhabited

/-- Power and time beside their registers (24, 29). `por`: POR_N is asserted; `off`: VDD_AON is absent; `rail`: RAIL_EN is driven
high, and since when it is low; `good`: PWR_GOOD has been seen; `relatch`: the next release acts as POR_N deassertion and latches the
straps. -/
structure Pwr where
  por    : Bool := false
  off    : Bool := false
  rail   : Bool := true
  railAt : Nat := 0
  good   : Bool := true
  relatch : Bool := false
  /-- The wake source latched during ENTERING, as a WAKE_CAUSE mask. -/
  latched : Nat := 0
  /-- The ends of the wait for PWR_GOOD and of the 2 ms after it (R526). -/
  pg     : Option Nat := none
  hold   : Option Nat := none
  /-- The last write of TIME.ADJ (R538), the last steering write (R540) and the last automatic wake of a pod (R527). -/
  adjAt  : Nat := 0
  steerAt : Nat := 0
  wakeAt : Nat := 0
  /-- Events of a COCOON transition, raised after exit (R541): ID, INFO16, INFO32. -/
  events : List (Nat × Nat × Nat) := []
deriving DecidableEq, Repr, Inhabited

/-- An Eyespot channel beside its registers (R607, R608): the step above its condition that its last valid sample was beyond (0 none),
whether that sample was below the release point, the length of the run, and the runs of clipped and of clean samples. -/
structure EyeCh where
  up    : Nat := 0
  down  : Bool := false
  run   : Nat := 0
  clips : Nat := 0
  clean : Nat := 0
deriving DecidableEq, Repr, Inhabited

/-- A single conversion (R605): its settings, the samples still to settle, the valid samples taken, and their sum and CLIP. -/
structure Single where
  ch    : Nat
  gain  : Nat
  osr   : Nat
  chop  : Nat
  count : Nat
  left  : Nat := 0
  taken : Nat := 0
  sum   : Int := 0
  clip  : Bool := false
deriving DecidableEq, Repr, Inhabited

/-- The sequencer of Eyespot (R601 to R605): the channel under conversion with its settings (GAIN, OSR, CHOP as in CH_CFG),
the invalid samples that are left in the visit and the valid ones taken, and when the last sample came; the single conversion that
waits or runs, and whether it runs now; and the pods that the AVS loop caps, with the THROTTLE_MHZ it applied (R609). -/
structure Eye where
  chs   : Tbl EyeCh := {}
  ch    : Nat := 0
  cfg   : Nat := 0x24 % 32
  left  : Nat := 3
  taken : Nat := 0
  last  : Nat := 0
  single : Option Single := none
  runs  : Bool := false
  capped : Nat := 0
  mhz   : Nat := 1600
deriving DecidableEq, Repr, Inhabited

end Sys2Proof.Machine
end

