-- ==== Sys2Proof/Machine/PartGroup.lean ====
section
/-!
DEFINITION. The group protocol and the beacon line beside their registers (22).
-/
namespace Sys2Proof.Machine

/-- What was heard of a node last, in a HELLO or a beacon: when, and the fields of Table 22-2 or Table 22-8. -/
structure Heard where
  at_    : Nat
  state  : Nat
  ptp    : Bool := false
  leader : Bool := false
  direct : Nat := 0
  vmaj   : Nat := 0
  vmin   : Nat := 0
  epoch  : Nat := 0
  digest : Nat := 0
  cocoon : Bool := false
deriving DecidableEq, Repr

/-- A commit prepared at a member (R490): the epoch, the new CURRENT and the encoding, when PREPARE came, and T_apply once
COMMIT has come (own DTB). -/
structure Prep where
  epoch   : Nat
  current : Nat
  leader  : Nat
  enc     : List Nat
  at_     : Nat
  apply   : Option Nat := none
deriving DecidableEq, Repr

/-- A commit that this member runs as leader: the members that have answered READY, and whether a window command started it. -/
structure Run where
  prep  : Prep
  ready : List Nat := []
  window : Bool := false
deriving DecidableEq, Repr

/-- The group protocol (R477 to R495). -/
structure GProto where
  hello   : Tbl (Option Heard) := {}
  beacon  : Tbl (Option Heard) := {}
  /-- By link: SEND_DTB of the last HELLO received on it, and the own DTB at its receipt. -/
  echo    : Tbl (Option (Nat × Nat)) := {}
  helloAt : Tbl Nat := {}
  offsets : List Int := []
  directAt : Nat := 0
  prep    : Option Prep := none
  run     : Option Run := none
  /-- Since when the contact lies below the majority, or at or above it (R493); since when each current member is out of contact
  (R492). -/
  below   : Option Nat := none
  okAt    : Option Nat := none
  away    : Tbl (Option Nat) := {}
  /-- GROUP_LEAVE holds the member in JOINING; it left over its time offset, and since when that is within 1 us again. -/
  held    : Bool := false
  timeLeft : Bool := false
  timeOk  : Option Nat := none
  /-- MEMBER_ID_CONFLICT silences the GBL. -/
  silent  : Bool := false
  /-- When a MEMBER was last heard, or this member entered JOINING (R486). -/
  memberAt : Nat := 0
  /-- The next FSEQ expected of each sender, and the verdicts of its last 1,024 by sender × 1024 + FSEQ mod 1024 (true: ACCEPT). -/
  expect  : Tbl Nat := {}
  verdicts : Tbl (Option (Nat × Bool)) := {}
deriving DecidableEq, Repr, Inhabited

/-- The beacon line (R496 to R502). Times are in the deadline clock. `base`: the start of the slot timer's current superframe; `heard`,
`prev`: slots 0 to 4 heard in this and the previous superframe; `obs`: observations to report (slot, OVERRUN, OFFSET, when);
`trim`: the report about the own slot that applies at the boundary (SRC, OFFSET); `last`: the start of the last valid frame. -/
structure Gbl where
  cocoon : Bool := false
  base   : Nat := 0
  heard  : Nat := 0
  prev   : Nat := 0
  obs    : List (Nat × Bool × Int × Nat) := []
  trim   : Option (Nat × Int) := none
  last   : Nat := 0
  /-- Re-rendezvous: when the wait of its step 1 began. -/
  rend   : Option Nat := some 0
  /-- Consecutive superframes before this one with overrun reports about the own slot or own collisions, and this one (R500); the end
  of the silence that three of them bring. -/
  bad    : Nat := 0
  badNow : Bool := false
  silenced : Option Nat := none
  /-- The WAKE frame that waits for slot 5 after a collision: its targets and the superframes it still waits. -/
  wake   : Option (Nat × Nat) := none
  /-- By source, the start of the frame heard last while silenced, in ns from the start of its slot. -/
  starts : Tbl (Option Int) := {}
  /-- The line is awake while this node is in COCOON: since when the hold-over is suspended, and the latest activity. -/
  lineAwake : Option (Nat × Nat) := none
deriving DecidableEq, Repr, Inhabited

end Sys2Proof.Machine
end

