-- ==== Sys2Proof/Machine/PartHost.lean ====
section
/-!
DEFINITION. The HOST island beside its registers: functions and ports, queues and rings, the DMA engine, instances,
ledgers and MSI-X vectors (chapters 14 to 17 and 20).
-/
namespace Sys2Proof.Machine

/-- A PCIe function (14): Bus Master Enable, power state, FLR in progress, SR-IOV control (PFs), and the configuration that
the manual names. Times are in the deadline clock. -/
structure Fn where
  bme    : Bool := false
  /-- Work of the function is paused since (R337, R338); none where it is not. -/
  paused : Option Nat := none
  /-- The pause has lasted longer than the hold time (R338). -/
  ovr   : Bool := false
  /-- The channels that EQUAL division binds the VFs of a PF to (R410). -/
  eqCh   : List Nat := []
  d3     : Bool := false
  flr    : Bool := false
  ltr    : Bool := false
  numVfs : Nat := 0
  vfEn   : Bool := false
  ats    : Bool := false
  relaxed : Bool := false
  tag10  : Bool := false
  tag14  : Bool := false
  /-- The value that Completion Timeout Value selects, in ns. -/
  cplTo  : Nat := 50000000
  mps    : Nat := 128
  mrrs   : Nat := 512
  msixEn : Bool := false
  fmask  : Bool := false
deriving DecidableEq, Repr, Inhabited

/-- A host port (14): whether its functions answer without retry status, its PERST_N, and the end of its hold. -/
structure HPort where
  released : Bool := false
  perst    : Bool := false
  hold     : Option Nat := none
deriving DecidableEq, Repr, Inhabited

/-- An MSI-X vector: its table entry, PBA bit and the DTB of its last message (R455). -/
structure Vec where
  addr : Nat := 0
  data : Nat := 0
  mask : Bool := true
  pend : Bool := false
  last : Option Nat := none
deriving DecidableEq, Repr, Inhabited

/-- What follows when an operation of the DMA engine is DONE (R384). -/
inductive OpFin where
  | none
  /-- The last data operation of a delivery to queue `q`: copy `c` of the item, `k` buffers from index `first`. -/
  | rqData (q first k stamp c : Nat)
  /-- A completion entry; `item` names the copy of an item that it reports, for an RQ. -/
  | entry (q index : Nat) (item : Option (Nat × Nat))
  | ledger (pf seq : Nat)
  | hwb (q : Nat)
  | desc (q index n : Nat)
  | list (q index : Nat)
  | payload (stamp seg : Nat)
  | hrd (th tk : Nat)
  | cid (conn cid : Nat)
  | flush (c : Nat)
  /-- A DMA_WRITE of kind RANGE, which holds the data of an item (R395). -/
  | range (stamp : Nat)
  /-- A write of the state image of an instance (R427), and the flush reads of its migration commands. -/
  | image (inst : Nat)
  | migFlush (inst : Nat)
  | saveFlush (inst : Nat)
deriving DecidableEq, Repr, Inhabited

/-- An operation (16 Model). `done` counts the bytes issued. -/
structure DmaOp where
  id    : Nat := 0
  inst  : Nat := 0
  gen   : Nat := 0
  src   : Nat := 0
  read  : Bool := false
  addr  : Nat := 0
  len   : Nat := 0
  bytes : List Nat := []
  done  : Nat := 0
  fin   : OpFin := .none
deriving DecidableEq, Repr, Inhabited

/-- A read request outstanding or answered: its operation, tag while it holds one, and its data once it has arrived (none
of data: it failed). `void`: its data is to be discarded. -/
structure Rd where
  op    : Nat
  chan  : Nat
  inst  : Nat
  gen   : Nat
  port  : Nat
  tag   : Option Nat
  off   : Nat
  len   : Nat
  due   : Nat
  /-- The host address that it reads. -/
  addr  : Nat := 0
  arrived : Bool := false
  data  : Option (List Nat) := Option.none
  void  : Bool := false
deriving DecidableEq, Repr, Inhabited

/-- A DMA channel beside its registers: its operations in order (the head is the current one), flushes that wait for the
pending one (R387), and the operation that ABORT stopped. -/
structure Chan where
  ops     : List DmaOp := []
  flushes : Nat := 0
deriving DecidableEq, Repr, Inhabited

/-- A descriptor read and checked, not yet accepted (R358). -/
structure Desc where
  index : Nat
  bytes : List Nat
  segs  : List (Nat × Nat) := []
  /-- A SEND_LIST whose list has not been read yet. -/
  list  : Bool := false
  /-- The error code of the check it failed (Table 15-8), 0 where it passed. -/
  err   : Nat := 0
deriving DecidableEq, Repr, Inhabited

/-- One index from DONE to CI of a queue (R59): an item, a NOP, a skipped index, or a receive buffer; and its outcome. -/
structure Pend where
  index  : Nat
  kind   : Nat            -- 0 item, 1 NOP, 2 skipped, 3 receive buffer
  stamp  : Nat := 0
  tag    : Nat := 0
  signal : Bool := false
  len    : Nat := 0
  addr   : Nat := 0
  /-- A delivery has taken the buffer. -/
  taken  : Bool := false
  out    : Option (Nat × Nat) := none
  /-- RQ: the words 3 to 6 of the completion entry, on the last buffer of a delivery; `cover` marks the others. -/
  cover  : Bool := false
  words  : List Nat := []
  item   : Option (Nat × Nat) := none
deriving DecidableEq, Repr, Inhabited

/-- A send or receive queue beside its registers. -/
structure Q where
  fetch  : Nat := 0
  descs  : List Desc := []
  pend   : List Pend := []
  credit : Nat := 0
  hwbAt  : Option Nat := none
  hwbDue : Bool := false
deriving DecidableEq, Repr, Inhabited

/-- A ledger that waits to be written (R60, R342): its kind, header words 1, 2 and 4 to 8, and its entries. -/
structure Ledger where
  pf      : Nat
  kind    : Nat
  inst    : Nat
  oldGen  : Nat
  newGen  : Nat
  dtb     : Nat
  frames  : Nat := 0
  entries : List (List Nat) := []
  trunc   : Bool := false
  held    : Bool := false
deriving DecidableEq, Repr, Inhabited

/-- What an instance holds beside its registers: the end of its drain, the state to return to, the copies held for it,
its submission buckets, credit and the queue its slice visited last. -/
structure InstX where
  drain  : Option Nat := none
  back   : Nat := 0
  pgen   : Nat := 0
  descTok : Option Bucket := none
  byteTok : Option Bucket := none
  credit : Nat := 0
  lastQ  : Option Nat := none
  /-- The RESET or REMOVE command of this PF window waits for the drain. -/
  window : Option (Nat × Nat) := none
deriving DecidableEq, Repr, Inhabited

/-- An NVMe/TCP PDU in a byte stream: the header bytes seen, the bytes of the PDU passed, and the running CRC32C of its
header and of its data. -/
structure Pdu where
  head : List Nat := []
  pos  : Nat := 0
  hcrc : Nat := 0xFFFFFFFF
  crc  : Nat := 0xFFFFFFFF
  /-- A byte of the digest being received did not match. -/
  bad  : Bool := false
deriving DecidableEq, Repr, Inhabited

/-- An entry of a CID table as it was read (R319): its CID, and its buffer's address and length, none where the entry is
not VALID for the CID or could not be read (`err`). -/
structure CidEntry where
  cid : Nat
  buf : Option (Nat × Nat) := none
  err : Bool := false
deriving DecidableEq, Repr, Inhabited

/-- An NVMe/TCP context beside its registers (R318 to R322): the next sequence and the PDU of each direction, the CID entries
read, and those being read. `placed` counts the data bytes of the current PDU. -/
structure Conn where
  txNext : Option Nat := none
  tx     : Pdu := {}
  rxNext : Option Nat := none
  rx     : Pdu := {}
  cids   : List CidEntry := []
  asked  : List Nat := []
deriving DecidableEq, Repr, Inhabited

/-- Dirty tracking and freezing of an instance beside MIG.STATE (R418 to R424): the banks, the range tracked, the pages
marked in the active bank (in order), the number marked in the closed one and the operations that marked it. `win` names the
PF window whose command waits. -/
structure Mig where
  bank0  : Nat := 0
  bank1  : Nat := 0
  base   : Nat := 0
  lg     : Nat := 0
  marks  : List Nat := []
  pages  : Nat := 0
  ops    : List Nat := []
  win    : Option Nat := none
  /-- The opcode of the command that waits, and the KEK that FREEZE named (R306). -/
  opc    : Nat := 0
  kek    : Nat := 0
deriving DecidableEq, Repr, Inhabited

/-- The HOST island beside its registers. -/
structure HostSt where
  migs   : Tbl Mig := {}
  /-- VF allotments of PF0 to PF3 applied at the last reset (R327); empty: the defaults. -/
  allot  : List Nat := []
  fns    : Tbl Fn := {}
  ports  : Tbl HPort := {}
  vecs   : Tbl Vec := {}
  /-- Instances that hold resources. -/
  live   : List Nat := []
  insts  : Tbl InstX := {}
  qs     : Tbl Q := {}
  /-- CQs with a CQ_FULL episode in progress. -/
  cqFull : List Nat := []
  /-- Slice × 1: the instance visited last. -/
  lastInst : Tbl (Option Nat) := {}
  chans  : Tbl Chan := {}
  /-- The ATS translation cache of each port (R335): function and 4 KiB page, the latest used last. -/
  atc   : Tbl (List (Nat × Nat)) := {}
  reads  : List Rd := []
  /-- Read operations whose requests have all been issued. -/
  rdOps  : List DmaOp := []
  nextOp : Nat := 0
  /-- The channel granted last, per group. -/
  lastGrant : Tbl (Option Nat) := {}
  ledgers : List Ledger := []
  ledgerSeq : Tbl Nat := {}
  conns  : Tbl Conn := {}
  /-- The end of the wait of a PENDING message, by instance × 2 + direction (1 the uplink). -/
  mbxDue : Tbl (Option Nat) := {}
  /-- RQ deliveries that wait for buffers: stamp, copy and the end of the wait (R365). -/
  rqWait : List (Nat × Nat × Nat) := []
deriving DecidableEq, Repr, Inhabited

end Sys2Proof.Machine
end

