-- ==== Sys2Proof/Machine/PartMgt.lean ====
section
/-!
DEFINITION. The management island beside its registers (23): MCTP messages, SPDM sessions, and the I2C port engines.
-/
namespace Sys2Proof.Machine

/-- A partial MCTP message (R505): its source EID and tag, when it began, the sequence number that follows, its bytes. -/
structure Reasm where
  src   : Nat
  tag   : Nat
  at_   : Nat
  next  : Nat
  bytes : List Nat
deriving DecidableEq, Repr

/-- A complete message that waits to be answered: source EID, tag, the session that carried it, and its bytes from the message
type on. -/
structure MctpMsg where
  src   : Nat
  tag   : Nat
  session : Option Nat := none
  bytes : List Nat
deriving DecidableEq, Repr

/-- Who asked for an I2C transaction (R509). -/
inductive I2cBy where
  | poll
  | window
  | vendor (m : MctpMsg)
  | rail
deriving DecidableEq, Repr

/-- What an I2C request does: poll a module, read or write module memory, identify it, command a rail, read its telemetry or its
VOUT_MODE. -/
inductive I2cOp where
  | poll (m : Nat)
  | read (m bank page off len : Nat)
  | write (m bank page off : Nat) (data : List Nat)
  | vout (r mv : Nat)
  | telemetry (r : Nat)
  | mode (r : Nat)
deriving DecidableEq, Repr

/-- A request in the queue of a port engine (R509): the attempts that lost arbitration, page races and repeats, and the instant
before which it does not restart (R510). -/
structure I2cReq where
  by_   : I2cBy
  op    : I2cOp
  lost  : Nat := 0
  races : Nat := 0
  redo  : Bool := false
  wait  : Option Nat := none
deriving DecidableEq, Repr

/-- The management island. `ids`: the identifier byte of each module as recorded at insertion (R516); `polled`: when it was last
polled; `exps`: the exponent N of each rail whose VOUT_MODE was read; `sentAt`, `readAt`: the last command and telemetry read of
each rail (R518); `failAt`: the last recovery attempt of a FAILED port. -/
structure Mgt where
  parts  : List Reasm := []
  msgs   : List MctpMsg := []
  /-- The EID of the session open on each secure channel. -/
  eids   : Tbl Nat := {}
  reqs   : Tbl (List I2cReq) := {}
  ids    : Tbl (Option Nat) := {}
  polled : Tbl Nat := {}
  exps   : Tbl (Option Int) := {}
  /-- The command of each rail that waits to be sent (mV). -/
  want   : Tbl (Option Nat) := {}
  sentAt : Tbl Nat := {}
  readAt : Tbl Nat := {}
  failAt : Tbl Nat := {}
  /-- Rails whose last command failed (R535). -/
  railBad : Tbl Bool := {}
  /-- Requests of the BMC that wait for the result of a steward command, by secure channel. -/
  stm    : Tbl (Option MctpMsg) := {}
  /-- The device's own packets that wait on SMB (destination, bytes), and the attempts of the first that lost arbitration. -/
  smb    : List (List Nat) := []
  smbLost : Nat := 0
  smbWait : Option Nat := none
deriving DecidableEq, Repr, Inhabited

end Sys2Proof.Machine
end

