-- ==== Sys2Proof/Machine/PartNet.lean ====
section
/-!
DEFINITION. The network ports, lanes and Erruic links, and the group, beside their registers (chapters 09, 10, 22).
-/
namespace Sys2Proof.Machine

/-- An adaptation history record (R242). -/
structure Hist where
  mapId  : Nat
  instar : Nat
  rate   : Nat
  dtb    : Nat
  coeff  : List Nat
deriving DecidableEq, Repr, Inhabited

/-- A lane beside its registers: when it entered its stage, the history record that AON holds for it, and when the record
was last saved since the lane became READY. Times are in the deadline clock. -/
structure Lane where
  since : Nat := 0
  saved : Option Nat := none
deriving DecidableEq, Repr, Inhabited

/-- A port beside its registers: when its degraded or full-width training began, and the lanes it trains on (bit k: lane
index k); `full` while RESTORE trains its full width. -/
structure Port where
  train : Option Nat := none
  lanes : Nat := 0
  full  : Bool := false
  /-- The lanes of its last degraded width, to which a failed RESTORE returns. -/
  half  : Nat := 0
  /-- XOFF as the partner last heard it, by class (bit c; bit 0 under PAUSE), and when it was last told. -/
  told  : Nat := 0
  toldAt : Nat := 0
deriving DecidableEq, Repr, Inhabited

/-- A message on an Erruic link (Table 10-7). -/
structure ElMsg where
  cls  : Nat
  src  : Nat
  dst  : Nat
  rel  : Bool := false
  data : List Nat
  lseq : Nat := 0
deriving DecidableEq, Repr, Inhabited

/-- The credits of a message (R247). -/
def ElMsg.credits (m : ElMsg) : Nat := max 1 ((m.data.length + 63) / 64)

/-- An Erruic link beside its registers (R247 to R254). Lists by class are in the order of Table 01-4. -/
structure Link where
  /-- A bring-up since the last start has been qualified or skipped: the next one is a retrain (R252). -/
  trained : Bool := false
  /-- This bring-up is qualified (R253), the consecutive failures, and the verdicts sent and received. -/
  qual    : Bool := false
  fails   : Nat := 0
  sentPass : Bool := false
  since   : Nat := 0
  /-- Messages that wait to be started, and those sent and not acknowledged, in LSEQ order. -/
  wait    : List ElMsg := []
  unacked : List ElMsg := []
  txSeq   : Nat := 0
  rxSeq   : Nat := 0
  /-- The slot of the weighted round robin. -/
  wrr     : Nat := 0
  /-- Credits used and the last CUM received, by class; credits released towards the peer, by class. -/
  used    : Tbl Nat := {}
  cum     : Tbl Nat := {}
  rel     : Tbl Nat := {}
  /-- Discarding until the expected LSEQ arrives (R248); an acknowledgement is pending; credits are to be reported. -/
  naked   : Bool := false
  ackDue  : Bool := false
  /-- When the oldest unacknowledged message began to wait, and how often it has been replayed. -/
  ackAt   : Nat := 0
  replays : Nat := 0
deriving DecidableEq, Repr, Inhabited

/-- The NET islands beside their registers. Ports are global numbers 0 to 31; a pause key is port × 9 + class, class 8 the
whole port; lanes are NET × 12 + lane index. -/
structure Net where
  /-- The end of a received pause (R222), and when an uninterrupted one began and an ignore period ends (R224). -/
  pause  : Tbl (Option Nat) := {}
  since  : Tbl (Option Nat) := {}
  ignore : Tbl (Option Nat) := {}
  /-- The copy in transmission of each root, and the context state that it leaves behind when it is sent whole (R318). -/
  sending : Tbl (Option (Nat × Nat)) := {}
  conn   : Tbl (Option (Nat × Conn)) := {}
  ports  : Tbl Port := {}
  lanes  : Tbl Lane := {}
  hist   : Tbl (Option Hist) := {}
  links  : Tbl Link := {}
  /-- The eye scan of each island: lane, eye, its end, and whether the lane left READY. -/
  scan   : Tbl (Option (Nat × Nat × Bool)) := {}
  /-- SYNCE outputs held low. -/
  squelch : List Nat := []
deriving DecidableEq, Repr, Inhabited

/-- A forwarded copy not yet accepted by its member (R482, R484): its FSEQ, the item's copy, and the refusal that makes it
due again. -/
structure Fwd where
  member : Nat
  fseq   : Nat
  stamp  : Nat
  c      : Nat
  redo   : Option Nat := none
deriving DecidableEq, Repr, Inhabited

/-- The group beside its registers. Members are 1 to 4. -/
structure Grp where
  /-- DIRECT of the last HELLO of each member (R479). -/
  direct : Tbl Nat := {}
  /-- The canonical encoding of the settings in force (Table 22-4); empty: none. -/
  set    : List Nat := []
  /-- The next FSEQ towards each member, and the copies offered and not yet accepted. -/
  fseq   : Tbl Nat := {}
  fwd    : List Fwd := []
  /-- Relayed messages that wait in the relay queue of each link, in order (R481). -/
  relay  : List (Nat × ElMsg) := []
deriving DecidableEq, Repr, Inhabited

end Sys2Proof.Machine
end

