-- ==== Sys2Proof/Machine/PartOut.lean ====
section
/-!
DEFINITION. What leaves the device: writes and reads of host memory, frames, link and group messages,
responses and pins.
-/
namespace Sys2Proof.Machine

/-- What leaves the device, oldest last: a write towards a host (function, DMA channel, address, bytes), a frame on a network port (global port number, bytes), a message on an Erruic link (link,
kind, words), a message or completion on a host port (kinds: 1 LTR, 2 ATS invalidation completion, 3 completion of a
configuration request, 4 Device Readiness Status, 5 SPDM response of a PF's DOE mailbox), what the Reconciliation Sublayer of a port signals, a GBL frame, a commit message to a member (kinds: 0 PREPARE, 1 READY,
2 REFUSE, 3 COMMIT, 4 ABORT), a transaction on a two-wire port (4 is SMB: address, bytes written), and a request that an
engine issues (a read of host memory, a Silkway response). Addresses and bytes are numbers. -/
inductive Out where
  | hostWrite (fn chan addr : Nat) (bytes : List Nat)
  | hostRead (fn chan tag addr len : Nat)
  | frame (port : Nat) (bytes : List Nat)
  | frameCut (port : Nat)
  | erruic (link kind : Nat) (words : List Nat)
  | gbl (kind : Nat) (words : List Nat)
  | i2c (port addr : Nat) (bytes : List Nat)
  | pcie (port kind : Nat) (words : List Nat)
  | rsp (kind : Nat) (words : List Nat)
  | pin (name level : Nat)
  | rs (port : Nat) (localFault : Bool)
  | tableReq (owner id : Nat) (q : RemoteReq)
  | tableRsp (member id : Nat) (r : RemoteRsp)
  | replWrite (member seq : Nat) (op : TOp)
  | replAck (member seq : Nat)
  | idleReport (member table index : Nat)
  | group (member kind : Nat) (words : List Nat)
deriving DecidableEq, Repr

end Sys2Proof.Machine
end

