-- ==== Sys2Proof/Machine/PartStew.lean ====
section
/-!
DEFINITION. The steward firmware and what it keeps: loaded program images, commands in progress, the flash, the fuse array
and its health record, and the start in progress (chapters 04, 19, 25, 26, 27).
-/
namespace Sys2Proof.Machine

/-- An ENTRIES record of a program image (Table 04-11). -/
structure ProgEntry where
  slot    : Nat
  tenant  : Bool
  code    : Nat
  budget  : Nat
  handler : Nat
deriving DecidableEq, Repr

/-- A loaded program image (R113, R444, R593): its loader, its bytes, the instruction bank and the place of its CODE, and the
place of SHARED in shared LOCAL; its entries, and its table references with the grants they need. -/
structure ProgImage where
  owner   : Nat
  bytes   : List Nat
  bank    : Nat
  code    : Nat
  codeLen : Nat
  shared  : Nat
  sharedLen : Nat
  entries : List ProgEntry
  trefs   : List (Nat × Nat)
deriving DecidableEq, Repr

/-- One slot of a moult (R594): the version that takes over (image, bound instance and map), or none. -/
structure MoultEntry where
  slot  : Nat
  image : Option Nat
  inst  : Nat := 0
  map   : List Nat := []
deriving DecidableEq, Repr

/-- A moult whose command waits for its switch instant: the steward window, its opcode, the PF that binds. -/
structure MoultJob where
  win     : Nat
  opc     : Nat
  pf      : Nat
  entries : List MoultEntry
deriving DecidableEq, Repr

/-- A persistent record (Table 27-7): `at_` is its place in the record log, counted in bytes written since the log began;
`live` whether its STATE is live. -/
structure Record where
  type   : Nat
  instar : Nat
  key    : Nat
  data   : List Nat
  seq    : Nat := 0
  at_    : Nat := 0
  live   : Bool := true
deriving DecidableEq, Repr

/-- Boot control in force (R580). -/
structure BootCtl where
  seq    : Nat := 0
  active : Nat := 0
  trial  : Bool := false
  tries  : Nat := 0
deriving DecidableEq, Repr, Inhabited

/-- A physical flash sector in the wear ledger (R590): erases, state (0 GOOD, 1 SUSPECT, 2 RETIRED), verify retries, and the
spare that serves it or the sector a spare serves. `watched`: its WEAR_WATCH has been raised. -/
structure Sector where
  erases  : Nat := 0
  state   : Nat := 0
  retries : Nat := 0
  map     : Option Nat := none
  watched : Bool := false
deriving DecidableEq, Repr, Inhabited

/-- The flash (R577 to R592): its bytes where they are not erased (0xFF), boot control, the record log and its head and
tail, the records that still wait to be written, and the wear ledger. `ses` lists the standby sectors that the write session
has erased, none where no session is open. -/
structure Flash where
  bytes  : List (Nat × Nat) := []
  boot   : BootCtl := {}
  log    : List Record := []
  head   : Nat := 0
  tail   : Nat := 0
  seq    : Nat := 0
  wait   : List Record := []
  wear   : Tbl Sector := {}
  /-- Erases not yet recorded in the ledger on flash since this instant (R590), and the ledger's SEQ. -/
  dirty  : Option Nat := none
  ledger : Nat := 0
  ses    : Option (List Nat) := none
  full   : Bool := false
  /-- What SFDP tells of the board's flash: its size in MiB, its endurance where the parameters carry one (R577, R591), and its
  highest clock in MHz in 8D-8D-8D, where it advertises that, and in 1S-4S-4S; and VDDIO_FLASH in mV (R622;
  notes/assumptions/74.md). -/
  mib    : Nat := 256
  sfdp   : Option Nat := none
  oct    : Option Nat := none
  quad   : Nat := 100
  vio    : Nat := 1800
deriving DecidableEq, Repr, Inhabited

/-- A fuse copy (R553, R558): the 39 bits blown, and its health record. -/
structure FuseCopy where
  blown : Nat := 0
  last  : Option Nat := none
  cold  : Option Nat := none
  hot   : Option Nat := none
  drift : Bool := false
deriving DecidableEq, Repr, Inhabited

/-- A fuse word: copies A and B, its PENDING flag and its value in use (the shadow; FUSE.VALUE hides words 20 to 27). -/
structure FuseWord where
  a : FuseCopy := {}
  b : FuseCopy := {}
  pending : Bool := false
  value : Nat := 0
deriving DecidableEq, Repr, Inhabited

/-- The start in progress (25, 26, 27): the fuse sense goes on; the slots left in the boot order, its first, and the slot that runs;
the end of the boot watchdog. -/
structure Start where
  sensing : Bool := false
  order   : List Nat := []
  first   : Nat := 0
  slot    : Nat := 0
  wdog    : Option Nat := none
  /-- The steps of Table 25-3 already done. -/
  step    : Nat := 0
  /-- The lane group to retrain next, and the end of the retraining that goes on (R548). -/
  group   : Nat := 0
  retrain : Option Nat := none
  /-- The end of the 1 ms for which a WARM_RESET holds islands 0 to 24 (R551), and the end of the wait for ledgers; its requester. -/
  warm    : Option Nat := none
  ledgers : Option Nat := none
  cause   : Nat := 0
  /-- The reference event, in the deadline clock. -/
  ref     : Nat := 0
deriving DecidableEq, Repr, Inhabited

/-- A Chrysalis port (Table 27-10). -/
structure ChryPort where
  lane : Nat
  mac  : Nat
deriving DecidableEq, Repr, Inhabited

/-- A Chrysalis route: the key (address and prefix length, or label), the egress port, VLAN word, destination MAC and the
label that leaves. -/
structure ChryRoute where
  key    : Nat
  plen   : Nat
  egress : Nat
  vlan   : Nat
  dmac   : Nat
  label  : Nat := 0
deriving DecidableEq, Repr, Inhabited

/-- The Chrysalis table loaded at start step 6 (R546, R598). -/
structure Chry where
  ports : List (Option ChryPort) := []
  v4    : List ChryRoute := []
  v6    : List ChryRoute := []
  mpls  : List ChryRoute := []
deriving DecidableEq, Repr, Inhabited

/-- The steward firmware (19, 26, 27). -/
structure Stew where
  /-- The firmware runs and takes commands. -/
  running : Bool := false
  /-- Its image's ISA_VERSION, ROLLBACK_INDEX, MIGRATE_FROM, GRP_VER and the digest of the image. -/
  isa     : Nat := 0
  index   : Nat := 0
  from_   : Nat := 0
  grpVer  : Nat := 0
  digest  : List Nat := []
  imgs    : Tbl (Option ProgImage) := {}
  nextImg : Nat := 0
  /-- The end of the wait of a steward window's command, by window. -/
  due     : Tbl (Option Nat) := {}
  moults  : List MoultJob := []
  /-- The settings in force in the config region (CFG_SET items), and the config region as applied at start step 3 (R574). -/
  cfg     : Tbl (List Nat) := {}
  applied : List Nat := []
  /-- The last cause for which island 24 was reset while commands were BUSY. -/
  wasReset : Bool := false
  /-- The SPDM sessions open on secure channels 4 to 7. -/
  sessions : List Nat := []
  flash   : Flash := {}
  start   : Start := {}
  chry    : Chry := {}
  fuses   : Tbl FuseWord := {}
  /-- A valid health record is present (R558). -/
  health  : Bool := false
  /-- The lifecycle state of the last sense (R576). -/
  lcSeen  : Nat := 0
  /-- When RUN was entered, for the automatic commit of a trial. -/
  runAt   : Option Nat := none
deriving DecidableEq, Repr, Inhabited

end Sys2Proof.Machine
end

