-- ==== Sys2Proof/Machine/RegMap.lean ====
section
/-!
DEFINITION. The register map (spec/31_register_map.md): where each register and counter lies, how wide it is, and the
fields its chapter's field table gives it (bits, access type, and the values a write may leave there).
-/
namespace Sys2Proof.Machine

/-- A field of a register: the register, its lowest bit and its width. -/
structure Fld where
  reg : Reg
  lo  : Nat
  w   : Nat
deriving DecidableEq, Repr

/-- The access types of Table 03-1 (R64). -/
inductive Acc where
  | ro | rw | rw1c | rw1s | rc | wo | rwh | rwl | rws | hwu
deriving DecidableEq, Repr

/-- The values a write may leave in a field (R8 and the field tables' ranges): `any`; `range lo hi`; `zeroOr lo hi`
(0, or the range); `signed m` (two's complement from -m to m); `align n` (a multiple of n). -/
inductive Rng where
  | any
  | range (lo hi : Nat)
  | zeroOr (lo hi : Nat)
  | signed (m : Nat)
  | align (n : Nat)
deriving DecidableEq, Repr

/-- One row of a field table. -/
structure FieldRow where
  lo  : Nat
  w   : Nat
  acc : Acc
  rng : Rng
deriving DecidableEq, Repr

/-- The counter classes of Table 03-7 (R77); a gauge follows a quantity and has no largest value. -/
inductive CtrClass where
  | wrap64 | sat32 | sat16 | gauge
deriving DecidableEq, Repr

/-- Where a block element lies: the block's number, island and PF BAR0 base (Table 31-1), the offset in the block and
the dimensions (count, stride). -/
structure Place where
  blk  : Nat
  isl  : Nat
  base : Nat
  off  : Nat
  dims : List (Nat × Nat)
deriving DecidableEq, Repr

/-- The offset of element `i` (row-major) over dimensions `ds`, or none beyond them. -/
def dimOffset (ds : List (Nat × Nat)) (i : Nat) : Option Nat :=
  let r := ds.foldr (fun d (acc : Nat × Nat) => (acc.1 / d.1, acc.2 + acc.1 % d.1 * d.2)) (i, 0)
  if r.1 = 0 then some r.2 else none

namespace F

def POD_CORE_CTL_MODE : Fld := ⟨.POD_CORE_CTL, 0, 1⟩
def POD_CORE_CTL_FAULT_MODE : Fld := ⟨.POD_CORE_CTL, 1, 1⟩
def POD_CORE_CTL_QUANTUM : Fld := ⟨.POD_CORE_CTL, 7, 17⟩
def POD_CORE_CTL_THREAD_EN : Fld := ⟨.POD_CORE_CTL, 24, 8⟩
def POD_SUPERVISOR_CORE : Fld := ⟨.POD_SUPERVISOR, 0, 4⟩
def POD_SUPERVISOR_THREAD : Fld := ⟨.POD_SUPERVISOR, 4, 3⟩
def POD_SUPERVISOR_ENTRY : Fld := ⟨.POD_SUPERVISOR, 8, 18⟩
def POD_SUPERVISOR_HALTED : Fld := ⟨.POD_SUPERVISOR, 29, 1⟩
def POD_SUPERVISOR_RESTART : Fld := ⟨.POD_SUPERVISOR, 30, 1⟩
def POD_SUPERVISOR_LOCK : Fld := ⟨.POD_SUPERVISOR, 31, 1⟩
def POD_PARK_CTL_PARK_REQ : Fld := ⟨.POD_PARK_CTL, 0, 1⟩
def POD_PARK_CTL_STATE : Fld := ⟨.POD_PARK_CTL, 1, 2⟩
def POD_PARK_CTL_PARKED_EVT : Fld := ⟨.POD_PARK_CTL, 3, 1⟩
def POD_CLK_CFG_TARGET_MHZ : Fld := ⟨.POD_CLK_CFG, 0, 12⟩
def POD_CLK_CFG_CAP_MHZ : Fld := ⟨.POD_CLK_CFG, 12, 12⟩
def POD_CLK_STATUS_FREQ_MHZ : Fld := ⟨.POD_CLK_STATUS, 0, 12⟩
def POD_CLK_STATUS_AT_FLOOR : Fld := ⟨.POD_CLK_STATUS, 12, 1⟩
def POD_SUPV_EVT_EVT : Fld := ⟨.POD_SUPV_EVT, 0, 32⟩
def POD_SLOT_HANDLER_OFFSET : Fld := ⟨.POD_SLOT_HANDLER, 0, 18⟩
def POD_SLOT_HANDLER_VALID : Fld := ⟨.POD_SLOT_HANDLER, 31, 1⟩
def NET_GROUP_CFG_MODE : Fld := ⟨.NET_GROUP_CFG, 0, 4⟩
def NET_GROUP_CFG_DEGRADE_TMO : Fld := ⟨.NET_GROUP_CFG, 8, 8⟩
def NET_TUN_UDP_VXLAN_PORT : Fld := ⟨.NET_TUN_UDP, 0, 16⟩
def NET_TUN_UDP_GENEVE_PORT : Fld := ⟨.NET_TUN_UDP, 16, 16⟩
def NET_SYNCE_CFG_ENABLE : Fld := ⟨.NET_SYNCE_CFG, 0, 1⟩
def NET_SYNCE_CFG_LANE : Fld := ⟨.NET_SYNCE_CFG, 1, 5⟩
def NET_SYNCE_CFG_FREQ : Fld := ⟨.NET_SYNCE_CFG, 6, 2⟩
def NET_PORT_CFG_ENABLE : Fld := ⟨.NET_PORT_CFG, 0, 1⟩
def NET_PORT_CFG_LANE_MODE : Fld := ⟨.NET_PORT_CFG, 1, 3⟩
def NET_PORT_CFG_DEGRADE_EN : Fld := ⟨.NET_PORT_CFG, 4, 1⟩
def NET_PORT_CFG_RESTORE : Fld := ⟨.NET_PORT_CFG, 5, 1⟩
def NET_PORT_CFG_DEFAULT_PROFILE : Fld := ⟨.NET_PORT_CFG, 6, 4⟩
def NET_PORT_CFG_FC_MODE : Fld := ⟨.NET_PORT_CFG, 10, 2⟩
def NET_PORT_CFG_FC_RX_EN : Fld := ⟨.NET_PORT_CFG, 12, 1⟩
def NET_PORT_CFG_FC_TX_EN : Fld := ⟨.NET_PORT_CFG, 13, 1⟩
def NET_PORT_CFG_PFC_MASK : Fld := ⟨.NET_PORT_CFG, 16, 8⟩
def NET_PORT_CFG_MAX_FRAME : Fld := ⟨.NET_PORT_CFG, 32, 14⟩
def NET_PORT_STATUS_STATE : Fld := ⟨.NET_PORT_STATUS, 0, 3⟩
def NET_PORT_STATUS_WIDTH : Fld := ⟨.NET_PORT_STATUS, 3, 4⟩
def NET_PORT_STATUS_LOCAL_FAULT : Fld := ⟨.NET_PORT_STATUS, 7, 1⟩
def NET_PORT_STATUS_REMOTE_FAULT : Fld := ⟨.NET_PORT_STATUS, 8, 1⟩
def NET_PORT_STATUS_CHANGE : Fld := ⟨.NET_PORT_STATUS, 9, 1⟩
def NET_PORT_STATUS_RX_PAUSED : Fld := ⟨.NET_PORT_STATUS, 10, 1⟩
def NET_PORT_FC_PAUSE_QUANTA : Fld := ⟨.NET_PORT_FC, 0, 16⟩
def NET_PORT_FC_STORM_MS : Fld := ⟨.NET_PORT_FC, 16, 16⟩
def NET_TS_CORR_RX_PS : Fld := ⟨.NET_TS_CORR, 0, 16⟩
def NET_TS_CORR_TX_PS : Fld := ⟨.NET_TS_CORR, 16, 16⟩
def NET_TXTS_PI_PI : Fld := ⟨.NET_TXTS_PI, 0, 7⟩
def NET_TXTS_CI_CI : Fld := ⟨.NET_TXTS_CI, 0, 7⟩
def NET_PROFILE_CFG_SLOT : Fld := ⟨.NET_PROFILE_CFG, 0, 8⟩
def NET_PROFILE_CFG_INSTANCE : Fld := ⟨.NET_PROFILE_CFG, 8, 12⟩
def NET_PROFILE_CFG_ORDER_HASH : Fld := ⟨.NET_PROFILE_CFG, 20, 1⟩
def NET_PROFILE_CFG_TUNNEL_PARSE : Fld := ⟨.NET_PROFILE_CFG, 21, 1⟩
def NET_PROFILE_CFG_CLASS_SRC : Fld := ⟨.NET_PROFILE_CFG, 22, 2⟩
def NET_PROFILE_CFG_CLASS : Fld := ⟨.NET_PROFILE_CFG, 24, 3⟩
def NET_PROFILE_CFG_HASH_FIELDS : Fld := ⟨.NET_PROFILE_CFG, 32, 16⟩
def NET_PROFILE_SEL_PORT_MASK : Fld := ⟨.NET_PROFILE_SEL, 0, 8⟩
def NET_PROFILE_SEL_ETHERTYPE : Fld := ⟨.NET_PROFILE_SEL, 8, 16⟩
def NET_PROFILE_SEL_PROFILE : Fld := ⟨.NET_PROFILE_SEL, 24, 4⟩
def NET_PROFILE_SEL_VALID : Fld := ⟨.NET_PROFILE_SEL, 31, 1⟩
def NET_DSCP_MAP_CLASSES : Fld := ⟨.NET_DSCP_MAP, 0, 24⟩
def NET_LANE_CFG_RX_POL : Fld := ⟨.NET_LANE_CFG, 0, 2⟩
def NET_LANE_CFG_TX_INV : Fld := ⟨.NET_LANE_CFG, 2, 1⟩
def NET_LANE_CFG_LOOPBACK : Fld := ⟨.NET_LANE_CFG, 3, 3⟩
def NET_LANE_CFG_HIST_EN : Fld := ⟨.NET_LANE_CFG, 6, 1⟩
def NET_LANE_CFG_TX_PRESET : Fld := ⟨.NET_LANE_CFG, 7, 3⟩
def NET_LANE_STATUS_STATE : Fld := ⟨.NET_LANE_STATUS, 0, 4⟩
def NET_LANE_STATUS_SIGNAL : Fld := ⟨.NET_LANE_STATUS, 4, 1⟩
def NET_LANE_STATUS_CDR_LOCK : Fld := ⟨.NET_LANE_STATUS, 5, 1⟩
def NET_LANE_STATUS_RX_INV : Fld := ⟨.NET_LANE_STATUS, 6, 1⟩
def NET_LANE_STATUS_HIST_USED : Fld := ⟨.NET_LANE_STATUS, 7, 1⟩
def NET_LANE_STATUS_LOGICAL : Fld := ⟨.NET_LANE_STATUS, 8, 2⟩
def NET_LANE_STATUS_CHANGE : Fld := ⟨.NET_LANE_STATUS, 10, 1⟩
def NET_LANE_PRBS_PAT : Fld := ⟨.NET_LANE_PRBS, 0, 3⟩
def NET_LANE_PRBS_TX_EN : Fld := ⟨.NET_LANE_PRBS, 3, 1⟩
def NET_LANE_PRBS_RX_EN : Fld := ⟨.NET_LANE_PRBS, 4, 1⟩
def NET_LANE_PRBS_LOCKED : Fld := ⟨.NET_LANE_PRBS, 5, 1⟩
def NET_LANE_MARGIN_H_LEFT : Fld := ⟨.NET_LANE_MARGIN, 0, 8⟩
def NET_LANE_MARGIN_H_RIGHT : Fld := ⟨.NET_LANE_MARGIN, 8, 8⟩
def NET_LANE_MARGIN_V_TOP : Fld := ⟨.NET_LANE_MARGIN, 16, 8⟩
def NET_LANE_MARGIN_V_BOT : Fld := ⟨.NET_LANE_MARGIN, 24, 8⟩
def NET_EL_CFG_ENABLE : Fld := ⟨.NET_EL_CFG, 0, 1⟩
def NET_EL_CFG_QUAL_LOG2 : Fld := ⟨.NET_EL_CFG, 1, 6⟩
def NET_EL_CFG_QUAL_RETRAIN : Fld := ⟨.NET_EL_CFG, 7, 1⟩
def NET_EL_CFG_QUAL_ERR_MAX : Fld := ⟨.NET_EL_CFG, 8, 8⟩
def NET_EL_CFG_REPLAY_TMO : Fld := ⟨.NET_EL_CFG, 16, 7⟩
def NET_EL_STATUS_STATE : Fld := ⟨.NET_EL_STATUS, 0, 4⟩
def NET_EL_STATUS_PEER_MEMBER : Fld := ⟨.NET_EL_STATUS, 4, 2⟩
def NET_EL_STATUS_PEER_LINK : Fld := ⟨.NET_EL_STATUS, 6, 2⟩
def NET_EL_STATUS_LANE_MAP : Fld := ⟨.NET_EL_STATUS, 8, 8⟩
def NET_EL_STATUS_SKEW_MAX : Fld := ⟨.NET_EL_STATUS, 16, 6⟩
def NET_EL_STATUS_CHANGE : Fld := ⟨.NET_EL_STATUS, 22, 1⟩
def NET_EL_STATUS_SELF_PEER : Fld := ⟨.NET_EL_STATUS, 23, 1⟩
def NET_TXTS_WORDS : Fld := ⟨.NET_TXTS, 0, 64⟩
def HOST_PORT_CFG_HOST_HOLD_MS : Fld := ⟨.HOST_PORT_CFG, 0, 14⟩
def HOST_PORT_CFG_CLK_MODE : Fld := ⟨.HOST_PORT_CFG, 14, 2⟩
def HOST_PORT_CFG_MAX_SPEED : Fld := ⟨.HOST_PORT_CFG, 16, 3⟩
def HOST_PORT_CFG_LTR_US : Fld := ⟨.HOST_PORT_CFG, 19, 10⟩
def HOST_PORT_CFG_LOCK : Fld := ⟨.HOST_PORT_CFG, 31, 1⟩
def HOST_PORT_STATUS_STATE : Fld := ⟨.HOST_PORT_STATUS, 0, 3⟩
def HOST_PORT_STATUS_WIDTH : Fld := ⟨.HOST_PORT_STATUS, 3, 5⟩
def HOST_PORT_STATUS_SPEED : Fld := ⟨.HOST_PORT_STATUS, 8, 3⟩
def HOST_PORT_STATUS_FLIT : Fld := ⟨.HOST_PORT_STATUS, 11, 1⟩
def HOST_PORT_STATUS_CHANGE : Fld := ⟨.HOST_PORT_STATUS, 12, 1⟩
def HOST_PORT_STATUS_LEDGER_HELD : Fld := ⟨.HOST_PORT_STATUS, 13, 1⟩
def DMA_CHAN_CFG_ENABLE : Fld := ⟨.DMA_CHAN_CFG, 0, 1⟩
def DMA_CHAN_CFG_MODE : Fld := ⟨.DMA_CHAN_CFG, 1, 1⟩
def DMA_CHAN_CFG_PRIO : Fld := ⟨.DMA_CHAN_CFG, 2, 2⟩
def DMA_CHAN_CFG_BURST_CODE : Fld := ⟨.DMA_CHAN_CFG, 4, 3⟩
def DMA_CHAN_CFG_OWNER_PF : Fld := ⟨.DMA_CHAN_CFG, 7, 2⟩
def DMA_CHAN_CFG_LOCK : Fld := ⟨.DMA_CHAN_CFG, 31, 1⟩
def DMA_CHAN_CTL_FLUSH : Fld := ⟨.DMA_CHAN_CTL, 0, 1⟩
def DMA_CHAN_CTL_ABORT : Fld := ⟨.DMA_CHAN_CTL, 1, 1⟩
def DMA_CHAN_CTL_RESUME : Fld := ⟨.DMA_CHAN_CTL, 2, 1⟩
def DMA_CHAN_STATE_STATE : Fld := ⟨.DMA_CHAN_STATE, 0, 3⟩
def DMA_CHAN_STATE_FLUSH_PENDING : Fld := ⟨.DMA_CHAN_STATE, 3, 1⟩
def DMA_CHAN_STATE_SEQ : Fld := ⟨.DMA_CHAN_STATE, 4, 16⟩
def DMA_CHAN_STATE_RESIDUE : Fld := ⟨.DMA_CHAN_STATE, 32, 32⟩
def DMA_CHAN_STATUS_ADDR_ADDR : Fld := ⟨.DMA_CHAN_STATUS_ADDR, 0, 64⟩
def DMA_INST_CHAN_CHAN : Fld := ⟨.DMA_INST_CHAN, 0, 6⟩
def DMA_INST_CHAN_MOVING : Fld := ⟨.DMA_INST_CHAN, 6, 1⟩
def MIG_STATE_MSTATE : Fld := ⟨.MIG_STATE, 0, 3⟩
def MIG_STATE_TRACKING : Fld := ⟨.MIG_STATE, 3, 1⟩
def MIG_STATE_BANK : Fld := ⟨.MIG_STATE, 4, 1⟩
def MIG_STATE_OVERFLOW : Fld := ⟨.MIG_STATE, 5, 1⟩
def BUF_HBM_PARTITION_TABLE_GIB : Fld := ⟨.BUF_HBM_PARTITION, 0, 5⟩
def BUF_HBM_PARTITION_ACTIVE_GIB : Fld := ⟨.BUF_HBM_PARTITION, 8, 5⟩
def BUF_HBM_PARTITION_LOCK : Fld := ⟨.BUF_HBM_PARTITION, 31, 1⟩
def BUF_ADM_LOCK_LOCK : Fld := ⟨.BUF_ADM_LOCK, 0, 1⟩
def BUF_SPILL_CFG_WATERMARK : Fld := ⟨.BUF_SPILL_CFG, 0, 18⟩
def BUF_POOL_CFG_HOST_CELLS : Fld := ⟨.BUF_POOL_CFG, 0, 18⟩
def BUF_ONCHIP_FREE_CELLS : Fld := ⟨.BUF_ONCHIP_FREE, 0, 32⟩
def BUF_DEEP_FREE_PAGES_PAGES : Fld := ⟨.BUF_DEEP_FREE_PAGES, 0, 32⟩
def BUF_MOULT_DTB_NS : Fld := ⟨.BUF_MOULT_DTB, 0, 64⟩
def BUF_IAP_CFG_MIN_CELLS : Fld := ⟨.BUF_IAP_CFG, 0, 16⟩
def BUF_IAP_CFG_HEADROOM_CELLS : Fld := ⟨.BUF_IAP_CFG, 16, 16⟩
def BUF_IAP_CFG_ALPHA : Fld := ⟨.BUF_IAP_CFG, 32, 3⟩
def BUF_IAP_CFG_XOFF_OFF : Fld := ⟨.BUF_IAP_CFG, 36, 12⟩
def BUF_IAP_CFG_XON_OFF : Fld := ⟨.BUF_IAP_CFG, 48, 12⟩
def BUF_SLOT_STATE_ACTIVE : Fld := ⟨.BUF_SLOT_STATE, 0, 8⟩
def BUF_SLOT_STATE_RETIRING : Fld := ⟨.BUF_SLOT_STATE, 8, 8⟩
def BUF_SLOT_STATE_OLD_COUNT : Fld := ⟨.BUF_SLOT_STATE, 32, 16⟩
def TM_LIFETIME_LIFE_MS : Fld := ⟨.TM_LIFETIME, 0, 14⟩
def TM_PORT_HOLD_HOLD_MS : Fld := ⟨.TM_PORT_HOLD, 0, 10⟩
def TM_HOST_NODE_NODE : Fld := ⟨.TM_HOST_NODE, 0, 14⟩
def TM_INST_NODE_NODE : Fld := ⟨.TM_INST_NODE, 0, 14⟩
def TM_INST_NODE_LEVEL : Fld := ⟨.TM_INST_NODE, 14, 1⟩
def TM_RQ_QUEUE_QUEUE : Fld := ⟨.TM_RQ_QUEUE, 0, 17⟩
def TM_QPROF_QMAX_KB : Fld := ⟨.TM_QPROF, 0, 20⟩
def TM_QPROF_SPILL_KB : Fld := ⟨.TM_QPROF, 20, 16⟩
def TM_WRED_PROF_MIN_KB : Fld := ⟨.TM_WRED_PROF, 0, 16⟩
def TM_WRED_PROF_MAX_KB : Fld := ⟨.TM_WRED_PROF, 16, 16⟩
def TM_WRED_PROF_PMAX : Fld := ⟨.TM_WRED_PROF, 32, 8⟩
def TM_WRED_PROF_W : Fld := ⟨.TM_WRED_PROF, 40, 4⟩
def TM_WRED_PROF_ENABLE : Fld := ⟨.TM_WRED_PROF, 44, 1⟩
def TM_NODE2_PARENT : Fld := ⟨.TM_NODE2, 0, 14⟩
def TM_NODE2_PRIO : Fld := ⟨.TM_NODE2, 14, 2⟩
def TM_NODE2_WEIGHT : Fld := ⟨.TM_NODE2, 16, 8⟩
def TM_NODE2_ENABLE : Fld := ⟨.TM_NODE2, 24, 1⟩
def TM_NODE3_PARENT : Fld := ⟨.TM_NODE3, 0, 14⟩
def TM_NODE3_PRIO : Fld := ⟨.TM_NODE3, 14, 2⟩
def TM_NODE3_WEIGHT : Fld := ⟨.TM_NODE3, 16, 8⟩
def TM_NODE3_ENABLE : Fld := ⟨.TM_NODE3, 24, 1⟩
def TM_NODE4_PARENT : Fld := ⟨.TM_NODE4, 0, 14⟩
def TM_NODE4_PRIO : Fld := ⟨.TM_NODE4, 14, 2⟩
def TM_NODE4_WEIGHT : Fld := ⟨.TM_NODE4, 16, 8⟩
def TM_NODE4_ENABLE : Fld := ⟨.TM_NODE4, 24, 1⟩
def TM_SHAPE1_RATE_MBPS : Fld := ⟨.TM_SHAPE1, 0, 22⟩
def TM_SHAPE1_BURST : Fld := ⟨.TM_SHAPE1, 22, 16⟩
def TM_SHAPE1_COLD : Fld := ⟨.TM_SHAPE1, 38, 1⟩
def TM_SHAPE1_ADJ : Fld := ⟨.TM_SHAPE1, 39, 7⟩
def TM_SHAPE2_RATE_MBPS : Fld := ⟨.TM_SHAPE2, 0, 22⟩
def TM_SHAPE2_BURST : Fld := ⟨.TM_SHAPE2, 22, 16⟩
def TM_SHAPE2_COLD : Fld := ⟨.TM_SHAPE2, 38, 1⟩
def TM_SHAPE2_ADJ : Fld := ⟨.TM_SHAPE2, 39, 7⟩
def TM_SHAPE3_RATE_MBPS : Fld := ⟨.TM_SHAPE3, 0, 22⟩
def TM_SHAPE3_BURST : Fld := ⟨.TM_SHAPE3, 22, 16⟩
def TM_SHAPE3_COLD : Fld := ⟨.TM_SHAPE3, 38, 1⟩
def TM_SHAPE3_ADJ : Fld := ⟨.TM_SHAPE3, 39, 7⟩
def TM_SHAPE4_RATE_MBPS : Fld := ⟨.TM_SHAPE4, 0, 22⟩
def TM_SHAPE4_BURST : Fld := ⟨.TM_SHAPE4, 22, 16⟩
def TM_SHAPE4_COLD : Fld := ⟨.TM_SHAPE4, 38, 1⟩
def TM_SHAPE4_ADJ : Fld := ⟨.TM_SHAPE4, 39, 7⟩
def TM_SHAPE5_RATE_MBPS : Fld := ⟨.TM_SHAPE5, 0, 22⟩
def TM_SHAPE5_BURST : Fld := ⟨.TM_SHAPE5, 22, 16⟩
def TM_SHAPE5_COLD : Fld := ⟨.TM_SHAPE5, 38, 1⟩
def TM_SHAPE5_ADJ : Fld := ⟨.TM_SHAPE5, 39, 7⟩
def TM_TOKENS1_TOKENS : Fld := ⟨.TM_TOKENS1, 0, 64⟩
def TM_TOKENS2_TOKENS : Fld := ⟨.TM_TOKENS2, 0, 64⟩
def TM_TOKENS3_TOKENS : Fld := ⟨.TM_TOKENS3, 0, 64⟩
def TM_TOKENS4_TOKENS : Fld := ⟨.TM_TOKENS4, 0, 64⟩
def TM_TOKENS5_TOKENS : Fld := ⟨.TM_TOKENS5, 0, 64⟩
def TM_Q_CFG_PARENT : Fld := ⟨.TM_Q_CFG, 0, 14⟩
def TM_Q_CFG_PRIO : Fld := ⟨.TM_Q_CFG, 14, 2⟩
def TM_Q_CFG_WEIGHT : Fld := ⟨.TM_Q_CFG, 16, 8⟩
def TM_Q_CFG_CLASS : Fld := ⟨.TM_Q_CFG, 24, 3⟩
def TM_Q_CFG_ENABLE : Fld := ⟨.TM_Q_CFG, 27, 1⟩
def TM_Q_CFG_PROF : Fld := ⟨.TM_Q_CFG, 28, 6⟩
def STATS_EPOCH_CTL_SWITCH : Fld := ⟨.STATS_EPOCH_CTL, 0, 1⟩
def STATS_EPOCH_CTL_CLOSING : Fld := ⟨.STATS_EPOCH_CTL, 1, 1⟩
def STATS_EPOCH_CTL_EPOCH_CLOSED : Fld := ⟨.STATS_EPOCH_CTL, 2, 1⟩
def STATS_EPOCH_CTL_OPEN_BANK : Fld := ⟨.STATS_EPOCH_CTL, 3, 1⟩
def STATS_EPOCH_CTL_EPOCH : Fld := ⟨.STATS_EPOCH_CTL, 4, 28⟩
def STATS_EPOCH_SWITCH_DTB_NS : Fld := ⟨.STATS_EPOCH_SWITCH_DTB, 0, 64⟩
def STATS_EPOCH_PERIOD_N : Fld := ⟨.STATS_EPOCH_PERIOD, 0, 32⟩
def TABLE_T1_CFG_PINNED_STEP : Fld := ⟨.TABLE_T1_CFG, 0, 4⟩
def TABLE_T1_CFG_CACHE_MIB : Fld := ⟨.TABLE_T1_CFG, 16, 6⟩
def TABLE_T1_CFG_LOCK : Fld := ⟨.TABLE_T1_CFG, 31, 1⟩
def TABLE_REMOTE_CFG_TMO : Fld := ⟨.TABLE_REMOTE_CFG, 0, 7⟩
def TABLE_SHARD_MAP_OWNER : Fld := ⟨.TABLE_SHARD_MAP, 0, 3⟩
def TABLE_BULK_BASE_BASE : Fld := ⟨.TABLE_BULK_BASE, 0, 64⟩
def TABLE_BULK_CFG_LOG2_SIZE : Fld := ⟨.TABLE_BULK_CFG, 0, 5⟩
def TABLE_BULK_CFG_ENABLE : Fld := ⟨.TABLE_BULK_CFG, 5, 1⟩
def TABLE_BULK_CFG_TMO : Fld := ⟨.TABLE_BULK_CFG, 6, 10⟩
def TABLE_BULK_PI_PI : Fld := ⟨.TABLE_BULK_PI, 0, 16⟩
def TABLE_BULK_CI_CI : Fld := ⟨.TABLE_BULK_CI, 0, 16⟩
def TABLE_BULK_STATUS_STATUS : Fld := ⟨.TABLE_BULK_STATUS, 0, 8⟩
def TABLE_BULK_STATUS_FAIL_INDEX : Fld := ⟨.TABLE_BULK_STATUS, 8, 16⟩
def TABLE_BULK_STATUS_BATCH_SEQ : Fld := ⟨.TABLE_BULK_STATUS, 24, 8⟩
def TABLE_NOTE_BASE_BASE : Fld := ⟨.TABLE_NOTE_BASE, 0, 64⟩
def TABLE_NOTE_CFG_LOG2_SIZE : Fld := ⟨.TABLE_NOTE_CFG, 0, 5⟩
def TABLE_NOTE_CFG_ENABLE : Fld := ⟨.TABLE_NOTE_CFG, 5, 1⟩
def TABLE_NOTE_PI_PI : Fld := ⟨.TABLE_NOTE_PI, 0, 32⟩
def TABLE_NOTE_CI_CI : Fld := ⟨.TABLE_NOTE_CI, 0, 32⟩
def TABLE_DESC_CFG_VALID : Fld := ⟨.TABLE_DESC_CFG, 0, 1⟩
def TABLE_DESC_CFG_TYPE : Fld := ⟨.TABLE_DESC_CFG, 1, 3⟩
def TABLE_DESC_CFG_PLACE : Fld := ⟨.TABLE_DESC_CFG, 4, 2⟩
def TABLE_DESC_CFG_SCOPE : Fld := ⟨.TABLE_DESC_CFG, 6, 2⟩
def TABLE_DESC_CFG_SHARED_READ : Fld := ⟨.TABLE_DESC_CFG, 8, 1⟩
def TABLE_DESC_CFG_LEARN : Fld := ⟨.TABLE_DESC_CFG, 9, 1⟩
def TABLE_DESC_CFG_AGE_EN : Fld := ⟨.TABLE_DESC_CFG, 10, 1⟩
def TABLE_DESC_CFG_HIT_CNT : Fld := ⟨.TABLE_DESC_CFG, 11, 1⟩
def TABLE_DESC_CFG_UNFIT : Fld := ⟨.TABLE_DESC_CFG, 12, 1⟩
def TABLE_DESC_CFG_OWNER : Fld := ⟨.TABLE_DESC_CFG, 16, 12⟩
def TABLE_DESC_CFG_KEY_LEN : Fld := ⟨.TABLE_DESC_CFG, 32, 7⟩
def TABLE_DESC_CFG_RESULT_LEN : Fld := ⟨.TABLE_DESC_CFG, 40, 8⟩
def TABLE_DESC_CFG_EXACT_LEN : Fld := ⟨.TABLE_DESC_CFG, 48, 7⟩
def TABLE_DESC_CFG_RANGE_SIZE : Fld := ⟨.TABLE_DESC_CFG, 55, 2⟩
def TABLE_DESC_CAP_CAPACITY : Fld := ⟨.TABLE_DESC_CAP, 0, 28⟩
def TABLE_DESC_CAP_ENTRIES : Fld := ⟨.TABLE_DESC_CAP, 32, 28⟩
def TABLE_DESC_SEQ_WRITE_SEQ : Fld := ⟨.TABLE_DESC_SEQ, 0, 32⟩
def TABLE_AGE_CFG_PERIOD_MS : Fld := ⟨.TABLE_AGE_CFG, 0, 16⟩
def TABLE_AGE_CFG_LIMIT : Fld := ⟨.TABLE_AGE_CFG, 16, 8⟩
def TABLE_AGE_CFG_ACTION : Fld := ⟨.TABLE_AGE_CFG, 24, 1⟩
def TABLE_LEARN_CFG_MODE : Fld := ⟨.TABLE_LEARN_CFG, 0, 1⟩
def TABLE_LEARN_CFG_HOLDOFF_US : Fld := ⟨.TABLE_LEARN_CFG, 16, 16⟩
def CRYPTO_NOTE_BASE_BASE : Fld := ⟨.CRYPTO_NOTE_BASE, 0, 64⟩
def CRYPTO_NOTE_CFG_LOG2_SIZE : Fld := ⟨.CRYPTO_NOTE_CFG, 0, 4⟩
def CRYPTO_NOTE_CFG_ENABLE : Fld := ⟨.CRYPTO_NOTE_CFG, 4, 1⟩
def CRYPTO_NOTE_PI_PI : Fld := ⟨.CRYPTO_NOTE_PI, 0, 32⟩
def CRYPTO_NOTE_CI_CI : Fld := ⟨.CRYPTO_NOTE_CI, 0, 32⟩
def STM_FW_STATUS_RUN_SLOT : Fld := ⟨.STM_FW_STATUS, 0, 1⟩
def STM_FW_STATUS_ACTIVE_SLOT : Fld := ⟨.STM_FW_STATUS, 1, 1⟩
def STM_FW_STATUS_TRIAL : Fld := ⟨.STM_FW_STATUS, 2, 1⟩
def STM_FW_STATUS_TRIES : Fld := ⟨.STM_FW_STATUS, 3, 2⟩
def STM_FW_STATUS_FALLBACK : Fld := ⟨.STM_FW_STATUS, 5, 1⟩
def STM_FW_STATUS_CFG_PENDING : Fld := ⟨.STM_FW_STATUS, 6, 1⟩
def STM_FW_STATUS_EXHAUSTED : Fld := ⟨.STM_FW_STATUS, 7, 1⟩
def STM_FW_STATUS_RUN_INSTAR : Fld := ⟨.STM_FW_STATUS, 16, 16⟩
def MGT_SMB_CFG_SPEED : Fld := ⟨.MGT_SMB_CFG, 0, 2⟩
def MGT_SMB_CFG_BMC_ADDR : Fld := ⟨.MGT_SMB_CFG, 2, 7⟩
def MGT_SMB_STATUS_OWN_ADDR : Fld := ⟨.MGT_SMB_STATUS, 0, 7⟩
def MGT_SMB_STATUS_EID : Fld := ⟨.MGT_SMB_STATUS, 7, 8⟩
def MGT_SMB_STATUS_EID_VALID : Fld := ⟨.MGT_SMB_STATUS, 15, 1⟩
def MGT_SMB_STATUS_SESSIONS : Fld := ⟨.MGT_SMB_STATUS, 16, 3⟩
def MGT_I2C_CFG_ROLE : Fld := ⟨.MGT_I2C_CFG, 0, 2⟩
def MGT_I2C_CFG_SPEED : Fld := ⟨.MGT_I2C_CFG, 2, 2⟩
def MGT_I2C_CFG_MUX0_ADDR : Fld := ⟨.MGT_I2C_CFG, 4, 7⟩
def MGT_I2C_CFG_MUX1_ADDR : Fld := ⟨.MGT_I2C_CFG, 11, 7⟩
def MGT_I2C_CFG_POLL_MS : Fld := ⟨.MGT_I2C_CFG, 18, 10⟩
def MGT_I2C_CFG_LOCK : Fld := ⟨.MGT_I2C_CFG, 31, 1⟩
def MGT_I2C_STATUS_FAILED : Fld := ⟨.MGT_I2C_STATUS, 0, 1⟩
def MGT_ARB_LOG_BYTE : Fld := ⟨.MGT_ARB_LOG, 0, 8⟩
def MGT_ARB_LOG_BIT : Fld := ⟨.MGT_ARB_LOG, 8, 3⟩
def MGT_ARB_LOG_TRY : Fld := ⟨.MGT_ARB_LOG, 11, 4⟩
def MGT_ARB_LOG_VALID : Fld := ⟨.MGT_ARB_LOG, 15, 1⟩
def MGT_MOD_MAP_PORT : Fld := ⟨.MGT_MOD_MAP, 0, 2⟩
def MGT_MOD_MAP_MUX : Fld := ⟨.MGT_MOD_MAP, 2, 1⟩
def MGT_MOD_MAP_USE_MUX : Fld := ⟨.MGT_MOD_MAP, 3, 1⟩
def MGT_MOD_MAP_CHANNEL : Fld := ⟨.MGT_MOD_MAP, 4, 3⟩
def MGT_MOD_MAP_NETPORT : Fld := ⟨.MGT_MOD_MAP, 7, 5⟩
def MGT_MOD_MAP_VALID : Fld := ⟨.MGT_MOD_MAP, 12, 1⟩
def MGT_MOD_STATUS_PRESENT : Fld := ⟨.MGT_MOD_STATUS, 0, 1⟩
def MGT_MOD_STATUS_STATE : Fld := ⟨.MGT_MOD_STATUS, 1, 3⟩
def MGT_MOD_STATUS_FLAGS_SET : Fld := ⟨.MGT_MOD_STATUS, 4, 1⟩
def MGT_MOD_STATUS_CHANGE : Fld := ⟨.MGT_MOD_STATUS, 5, 1⟩
def MGT_MOD_FLAGS_FLAGS : Fld := ⟨.MGT_MOD_FLAGS, 0, 64⟩
def MGT_AVS_RAIL_PORT : Fld := ⟨.MGT_AVS_RAIL, 0, 2⟩
def MGT_AVS_RAIL_ADDR : Fld := ⟨.MGT_AVS_RAIL, 2, 7⟩
def MGT_AVS_RAIL_PAGE : Fld := ⟨.MGT_AVS_RAIL, 9, 4⟩
def MGT_AVS_RAIL_VALID : Fld := ⟨.MGT_AVS_RAIL, 13, 1⟩
def MGT_AVS_READ_VOUT : Fld := ⟨.MGT_AVS_READ, 0, 16⟩
def MGT_AVS_READ_IOUT : Fld := ⟨.MGT_AVS_READ, 16, 16⟩
def MGT_AVS_READ_STATUS_WORD : Fld := ⟨.MGT_AVS_READ, 32, 16⟩
def EYE_CTL_LOCK : Fld := ⟨.EYE_CTL, 0, 1⟩
def EYE_THROT_THROTTLE_MHZ : Fld := ⟨.EYE_THROT, 0, 12⟩
def EYE_CH_CFG_GAIN : Fld := ⟨.EYE_CH_CFG, 0, 1⟩
def EYE_CH_CFG_OSR : Fld := ⟨.EYE_CH_CFG, 1, 3⟩
def EYE_CH_CFG_CHOP : Fld := ⟨.EYE_CH_CFG, 4, 1⟩
def EYE_CH_CFG_SAMPLES : Fld := ⟨.EYE_CH_CFG, 5, 4⟩
def EYE_THR_WARN : Fld := ⟨.EYE_THR, 0, 8⟩
def EYE_THR_THROT : Fld := ⟨.EYE_THR, 8, 8⟩
def EYE_THR_CRIT : Fld := ⟨.EYE_THR, 16, 8⟩
def EYE_THR_HYST : Fld := ⟨.EYE_THR, 24, 5⟩
def EYE_COND_COND : Fld := ⟨.EYE_COND, 0, 3⟩
def EYE_COND_RUN : Fld := ⟨.EYE_COND, 3, 4⟩
def EYE_LAST_VALUE : Fld := ⟨.EYE_LAST, 0, 16⟩
def EYE_LAST_VALID : Fld := ⟨.EYE_LAST, 16, 1⟩
def EYE_LAST_SETTLE : Fld := ⟨.EYE_LAST, 17, 3⟩
def EYE_LAST_CLIP : Fld := ⟨.EYE_LAST, 20, 1⟩
def EYE_LAST_GAIN : Fld := ⟨.EYE_LAST, 21, 1⟩
def EYE_LAST_OSR : Fld := ⟨.EYE_LAST, 22, 3⟩
def EYE_LAST_CHOP : Fld := ⟨.EYE_LAST, 25, 1⟩
def EYE_LAST_SEQ : Fld := ⟨.EYE_LAST, 32, 16⟩
def EYE_GOOD_VALUE : Fld := ⟨.EYE_GOOD, 0, 16⟩
def EYE_GOOD_VALID : Fld := ⟨.EYE_GOOD, 16, 1⟩
def EYE_GOOD_SETTLE : Fld := ⟨.EYE_GOOD, 17, 3⟩
def EYE_GOOD_CLIP : Fld := ⟨.EYE_GOOD, 20, 1⟩
def EYE_GOOD_GAIN : Fld := ⟨.EYE_GOOD, 21, 1⟩
def EYE_GOOD_OSR : Fld := ⟨.EYE_GOOD, 22, 3⟩
def EYE_GOOD_CHOP : Fld := ⟨.EYE_GOOD, 25, 1⟩
def EYE_GOOD_SEQ : Fld := ⟨.EYE_GOOD, 32, 16⟩
def FCOL_STATUS_HALTED : Fld := ⟨.FCOL_STATUS, 0, 1⟩
def FCOL_STATUS_LOG_FAILED : Fld := ⟨.FCOL_STATUS, 1, 1⟩
def FCOL_STATUS_LOG_FULL : Fld := ⟨.FCOL_STATUS, 2, 1⟩
def FCOL_STATUS_UNACKED : Fld := ⟨.FCOL_STATUS, 3, 9⟩
def FCOL_FPSW_FATAL : Fld := ⟨.FCOL_FPSW, 0, 26⟩
def FCOL_LOCK_LOCK : Fld := ⟨.FCOL_LOCK, 0, 1⟩
def FCOL_ACK_SEQ : Fld := ⟨.FCOL_ACK, 0, 16⟩
def FCOL_LOG_PI_PI : Fld := ⟨.FCOL_LOG_PI, 0, 16⟩
def FCOL_PART_ISO_POD : Fld := ⟨.FCOL_PART_ISO, 0, 16⟩
def FCOL_PART_ISO_LU : Fld := ⟨.FCOL_PART_ISO, 16, 8⟩
def FCOL_PART_ISO_SLICE : Fld := ⟨.FCOL_PART_ISO, 24, 4⟩
def FCOL_ROUTER_ISO_ROUTERS : Fld := ⟨.FCOL_ROUTER_ISO, 0, 36⟩
def FCOL_PC_RETIRED_PCS : Fld := ⟨.FCOL_PC_RETIRED, 0, 64⟩
def FCOL_ACTION_L0 : Fld := ⟨.FCOL_ACTION, 0, 6⟩
def FCOL_ACTION_L1 : Fld := ⟨.FCOL_ACTION, 6, 6⟩
def FCOL_ACTION_L2 : Fld := ⟨.FCOL_ACTION, 12, 6⟩
def FCOL_ACTION_L3 : Fld := ⟨.FCOL_ACTION, 18, 6⟩
def FCOL_ACTION_L4 : Fld := ⟨.FCOL_ACTION, 24, 6⟩
def GRP_CFG_ENABLE : Fld := ⟨.GRP_CFG, 0, 1⟩
def GRP_CFG_LOCK : Fld := ⟨.GRP_CFG, 31, 1⟩
def GRP_STATUS_ID : Fld := ⟨.GRP_STATUS, 0, 3⟩
def GRP_STATUS_STATE : Fld := ⟨.GRP_STATUS, 3, 3⟩
def GRP_STATUS_LEADER : Fld := ⟨.GRP_STATUS, 6, 3⟩
def GRP_STATUS_CONFIGURED : Fld := ⟨.GRP_STATUS, 9, 4⟩
def GRP_STATUS_CURRENT : Fld := ⟨.GRP_STATUS, 13, 4⟩
def GRP_STATUS_CONTACT : Fld := ⟨.GRP_STATUS, 17, 4⟩
def GRP_STATUS_PTP_LOCK : Fld := ⟨.GRP_STATUS, 21, 1⟩
def GRP_STATUS_TIME_DIVERGED : Fld := ⟨.GRP_STATUS, 22, 1⟩
def GRP_STATUS_CHANGE : Fld := ⟨.GRP_STATUS, 23, 1⟩
def GRP_STATUS_VER_MINOR : Fld := ⟨.GRP_STATUS, 24, 4⟩
def GRP_STATUS_VER_MAJOR : Fld := ⟨.GRP_STATUS, 28, 4⟩
def GRP_STATUS_EPOCH : Fld := ⟨.GRP_STATUS, 32, 32⟩
def GRP_DIGEST_DIGEST : Fld := ⟨.GRP_DIGEST, 0, 64⟩
def GRP_LEADER_DIGEST_DIGEST : Fld := ⟨.GRP_LEADER_DIGEST, 0, 64⟩
def GRP_TIME_OFFSET_NS : Fld := ⟨.GRP_TIME_OFFSET, 0, 64⟩
def GRP_GQ_BASE_QUEUE : Fld := ⟨.GRP_GQ_BASE, 0, 17⟩
def PWR_STATE_STATE : Fld := ⟨.PWR_STATE, 0, 3⟩
def PWR_STATE_WAKE_CAUSE : Fld := ⟨.PWR_STATE, 3, 4⟩
def PWR_STATE_XTAL_32K_OK : Fld := ⟨.PWR_STATE, 7, 1⟩
def PWR_CTL_COCOON_REQ : Fld := ⟨.PWR_CTL, 0, 1⟩
def PWR_WAKE_CFG_GBL_WAKE_EN : Fld := ⟨.PWR_WAKE_CFG, 0, 1⟩
def PWR_WAKE_CFG_GBL_PULSE_EN : Fld := ⟨.PWR_WAKE_CFG, 1, 1⟩
def PWR_WAKE_CFG_WAKE_PIN_EN : Fld := ⟨.PWR_WAKE_CFG, 2, 1⟩
def PWR_WAKE_CFG_TIMER_EN : Fld := ⟨.PWR_WAKE_CFG, 3, 1⟩
def PWR_WAKE_CFG_TIMER_S : Fld := ⟨.PWR_WAKE_CFG, 4, 16⟩
def PWR_WAKE_CFG_PG_TMO_MS : Fld := ⟨.PWR_WAKE_CFG, 20, 7⟩
def PWR_PARK_CFG_AUTO_WAKE : Fld := ⟨.PWR_PARK_CFG, 0, 1⟩
def PWR_PARK_CFG_LOAD_THRESH : Fld := ⟨.PWR_PARK_CFG, 1, 8⟩
def PWR_AVS_CFG_MODE : Fld := ⟨.PWR_AVS_CFG, 0, 1⟩
def PWR_AVS_CFG_FIXED_MV : Fld := ⟨.PWR_AVS_CFG, 1, 10⟩
def PWR_AVS_STATUS_TARGET_MV : Fld := ⟨.PWR_AVS_STATUS, 0, 10⟩
def PWR_AVS_STATUS_CONFIRMED_MV : Fld := ⟨.PWR_AVS_STATUS, 10, 10⟩
def PWR_AVS_STATUS_USABLE : Fld := ⟨.PWR_AVS_STATUS, 20, 1⟩
def TIME_DTB_NS : Fld := ⟨.TIME_DTB, 0, 64⟩
def TIME_STEP_NS : Fld := ⟨.TIME_STEP, 0, 64⟩
def TIME_ADJ_PPB : Fld := ⟨.TIME_ADJ, 0, 32⟩
def TIME_CTL_LOCKED : Fld := ⟨.TIME_CTL, 0, 1⟩
def TIME_CTL_UNTRACED : Fld := ⟨.TIME_CTL, 1, 1⟩
def TIME_CTL_LOCK_TMO_S : Fld := ⟨.TIME_CTL, 2, 6⟩
def TIME_CTL_STEER_EN : Fld := ⟨.TIME_CTL, 8, 1⟩
def RST_STRAPS_BOOTMODE : Fld := ⟨.RST_STRAPS, 0, 3⟩
def RST_STRAPS_GID : Fld := ⟨.RST_STRAPS, 3, 2⟩
def RST_STRAPS_HOSTBIF : Fld := ⟨.RST_STRAPS, 5, 1⟩
def RST_STRAPS_BOOTMODE_BAD : Fld := ⟨.RST_STRAPS, 6, 1⟩
def RST_START_PHASE : Fld := ⟨.RST_START, 0, 4⟩
def RST_START_LAST_CAUSE : Fld := ⟨.RST_START, 4, 4⟩
def RST_WARM_CTL_GO : Fld := ⟨.RST_WARM_CTL, 0, 1⟩
def RST_WARM_CTL_KEY : Fld := ⟨.RST_WARM_CTL, 16, 16⟩
def RST_CHRY_STATUS_UP : Fld := ⟨.RST_CHRY_STATUS, 0, 4⟩
def RST_CHRY_STATUS_ACTIVE : Fld := ⟨.RST_CHRY_STATUS, 4, 1⟩
def RST_START_REF_NS : Fld := ⟨.RST_START_REF, 0, 64⟩
def RST_MILESTONE_NS : Fld := ⟨.RST_MILESTONE, 0, 64⟩
def FUSE_STATUS_DONE : Fld := ⟨.FUSE_STATUS, 0, 1⟩
def FUSE_STATUS_SECURE_HOLD : Fld := ⟨.FUSE_STATUS, 1, 1⟩
def FUSE_STATUS_RECORD_NEW : Fld := ⟨.FUSE_STATUS, 2, 1⟩
def FUSE_STATUS_LC : Fld := ⟨.FUSE_STATUS, 3, 2⟩
def FUSE_STATUS_BAND : Fld := ⟨.FUSE_STATUS, 5, 1⟩
def FUSE_STATUS_NOT_SETTLED : Fld := ⟨.FUSE_STATUS, 6, 10⟩
def FUSE_STATUS_FAIL_WORD : Fld := ⟨.FUSE_STATUS, 16, 10⟩
def FUSE_ROLLBACK_VALUE : Fld := ⟨.FUSE_ROLLBACK, 0, 7⟩
def FUSE_ROLLBACK_SOFT : Fld := ⟨.FUSE_ROLLBACK, 7, 1⟩
def FUSE_ROLLBACK_HARD : Fld := ⟨.FUSE_ROLLBACK, 8, 1⟩
def FUSE_SENSE_TJ_TJ : Fld := ⟨.FUSE_SENSE_TJ, 0, 8⟩
def FUSE_SENSE_DTB_NS : Fld := ⟨.FUSE_SENSE_DTB, 0, 64⟩
def FUSE_WORD_STATE_STATE : Fld := ⟨.FUSE_WORD_STATE, 0, 3⟩
def FUSE_WORD_STATE_COPY : Fld := ⟨.FUSE_WORD_STATE, 3, 2⟩
def FUSE_WORD_STATE_DRIFT_A : Fld := ⟨.FUSE_WORD_STATE, 5, 1⟩
def FUSE_WORD_STATE_DRIFT_B : Fld := ⟨.FUSE_WORD_STATE, 6, 1⟩
def FUSE_VALUE_DATA : Fld := ⟨.FUSE_VALUE, 0, 32⟩
def IDE_STREAM_ACTIVE : Fld := ⟨.IDE_STREAM, 0, 1⟩
def IDE_STREAM_TRUSTED : Fld := ⟨.IDE_STREAM, 1, 1⟩
def IDE_STREAM_KEY_SET : Fld := ⟨.IDE_STREAM, 2, 1⟩
def HBM_PC_STATUS_STATE : Fld := ⟨.HBM_PC_STATUS, 0, 2⟩
def HBM_PC_STATUS_PART : Fld := ⟨.HBM_PC_STATUS, 2, 1⟩
def ROB_USED_ENTRIES : Fld := ⟨.ROB_USED, 0, 19⟩
def ROB_USED_KEYS : Fld := ⟨.ROB_USED, 32, 18⟩
def TOK_POD_LOAD_OUT : Fld := ⟨.TOK_POD_LOAD, 0, 9⟩
def TOK_POD_LOAD_REPORT : Fld := ⟨.TOK_POD_LOAD, 16, 9⟩
def LU_STATUS_RETIRED : Fld := ⟨.LU_STATUS, 0, 1⟩
def LU_STATUS_WALKS : Fld := ⟨.LU_STATUS, 1, 12⟩
def XSPI_STATUS_MODE : Fld := ⟨.XSPI_STATUS, 0, 2⟩
def XSPI_STATUS_MHZ : Fld := ⟨.XSPI_STATUS, 2, 8⟩
def XSPI_STATUS_SIZE_MIB : Fld := ⟨.XSPI_STATUS, 10, 16⟩
def CLK_PLL_STATUS_POD : Fld := ⟨.CLK_PLL_STATUS, 0, 16⟩
def CLK_PLL_STATUS_ISL : Fld := ⟨.CLK_PLL_STATUS, 16, 9⟩
def QE_LEDGER_BASE_BASE : Fld := ⟨.QE_LEDGER_BASE, 0, 64⟩
def QE_LEDGER_SIZE_SIZE : Fld := ⟨.QE_LEDGER_SIZE, 0, 32⟩
def QE_LEDGER_ACK_SEQ : Fld := ⟨.QE_LEDGER_ACK, 0, 32⟩
def QE_LEDGER_STATUS_UNWRITTEN : Fld := ⟨.QE_LEDGER_STATUS, 0, 1⟩
def QE_LEDGER_STATUS_UNACKED : Fld := ⟨.QE_LEDGER_STATUS, 1, 1⟩
def QE_LEDGER_SEQ_SEQ : Fld := ⟨.QE_LEDGER_SEQ, 0, 32⟩
def QE_INST_ARB_WEIGHT : Fld := ⟨.QE_INST_ARB, 0, 10⟩
def QE_QCTX_CFG_TYPE : Fld := ⟨.QE_QCTX_CFG, 0, 1⟩
def QE_QCTX_CFG_LOG2_SIZE : Fld := ⟨.QE_QCTX_CFG, 1, 5⟩
def QE_QCTX_CFG_SLOT : Fld := ⟨.QE_QCTX_CFG, 6, 8⟩
def QE_QCTX_CFG_CQ : Fld := ⟨.QE_QCTX_CFG, 14, 15⟩
def QE_QCTX_ARB_WEIGHT : Fld := ⟨.QE_QCTX_ARB, 0, 8⟩
def QE_QCTX_ARB_BURST : Fld := ⟨.QE_QCTX_ARB, 8, 7⟩
def QE_QCTX_STATE_STATE : Fld := ⟨.QE_QCTX_STATE, 0, 2⟩
def QE_QCTX_STATE_ERR_CODE : Fld := ⟨.QE_QCTX_STATE, 2, 8⟩
def QE_QCTX_STATE_ERR_INDEX : Fld := ⟨.QE_QCTX_STATE, 32, 32⟩
def QE_QCTX_CTL_ENABLE : Fld := ⟨.QE_QCTX_CTL, 0, 1⟩
def QE_QCTX_CTL_RESUME : Fld := ⟨.QE_QCTX_CTL, 1, 1⟩
def QE_QCTX_CTL_RESUME_INDEX : Fld := ⟨.QE_QCTX_CTL, 32, 32⟩
def QE_QCTX_BASE_BASE : Fld := ⟨.QE_QCTX_BASE, 0, 64⟩
def QE_QCTX_HWB_ADDR : Fld := ⟨.QE_QCTX_HWB, 0, 64⟩
def QE_QCTX_PI_PI : Fld := ⟨.QE_QCTX_PI, 0, 32⟩
def QE_QCTX_CI_CI : Fld := ⟨.QE_QCTX_CI, 0, 32⟩
def QE_QCTX_DONE_DONE : Fld := ⟨.QE_QCTX_DONE, 0, 32⟩
def QE_CQCTX_BASE_BASE : Fld := ⟨.QE_CQCTX_BASE, 0, 64⟩
def QE_CQCTX_CFG_LOG2_SIZE : Fld := ⟨.QE_CQCTX_CFG, 0, 5⟩
def QE_CQCTX_CFG_ENABLE : Fld := ⟨.QE_CQCTX_CFG, 5, 1⟩
def QE_CQCTX_CFG_DEST : Fld := ⟨.QE_CQCTX_CFG, 6, 1⟩
def QE_CQCTX_CFG_VECTOR : Fld := ⟨.QE_CQCTX_CFG, 7, 11⟩
def QE_CQCTX_CFG_EQ : Fld := ⟨.QE_CQCTX_CFG, 18, 12⟩
def QE_CQCTX_FLAGS_ARMED : Fld := ⟨.QE_CQCTX_FLAGS, 0, 1⟩
def QE_CQCTX_FLAGS_FULL : Fld := ⟨.QE_CQCTX_FLAGS, 1, 1⟩
def QE_CQCTX_STATE_WPI : Fld := ⟨.QE_CQCTX_STATE, 0, 32⟩
def QE_CQCTX_STATE_RCI : Fld := ⟨.QE_CQCTX_STATE, 32, 32⟩
def QE_EQCTX_BASE_BASE : Fld := ⟨.QE_EQCTX_BASE, 0, 64⟩
def QE_EQCTX_CFG_LOG2_SIZE : Fld := ⟨.QE_EQCTX_CFG, 0, 5⟩
def QE_EQCTX_CFG_ENABLE : Fld := ⟨.QE_EQCTX_CFG, 5, 1⟩
def QE_EQCTX_CFG_VECTOR : Fld := ⟨.QE_EQCTX_CFG, 6, 11⟩
def QE_EQCTX_FLAGS_ARMED : Fld := ⟨.QE_EQCTX_FLAGS, 0, 1⟩
def QE_EQCTX_FLAGS_OVERFLOW : Fld := ⟨.QE_EQCTX_FLAGS, 1, 1⟩
def QE_EQCTX_STATE_WPI : Fld := ⟨.QE_EQCTX_STATE, 0, 32⟩
def QE_EQCTX_STATE_RCI : Fld := ⟨.QE_EQCTX_STATE, 32, 32⟩
def QE_QPAGE_SQRQ : Fld := ⟨.QE_QPAGE, 0, 6⟩
def QE_QPAGE_CQ : Fld := ⟨.QE_QPAGE, 8, 6⟩
def QE_QPAGE_EQ : Fld := ⟨.QE_QPAGE, 16, 5⟩
def QE_DB_LAST_REJECT_CAUSE : Fld := ⟨.QE_DB_LAST_REJECT, 0, 4⟩
def QE_DB_LAST_REJECT_QUEUE : Fld := ⟨.QE_DB_LAST_REJECT, 16, 16⟩
def INST_PF_MODE_EQUAL : Fld := ⟨.INST_PF_MODE, 0, 1⟩
def INST_EQUAL_NODE_NODE : Fld := ⟨.INST_EQUAL_NODE, 0, 14⟩
def INST_PF_ALLOT_BASE : Fld := ⟨.INST_PF_ALLOT, 0, 32⟩
def INST_PF_ALLOT_COUNT : Fld := ⟨.INST_PF_ALLOT, 32, 32⟩
def INST_EQUAL_RSV_COUNT : Fld := ⟨.INST_EQUAL_RSV, 0, 64⟩
def INST_STATE_STATE : Fld := ⟨.INST_STATE, 0, 3⟩
def INST_STATE_HOLD : Fld := ⟨.INST_STATE, 3, 1⟩
def INST_STATE_GENERATION : Fld := ⟨.INST_STATE, 16, 12⟩
def INST_SUB_CFG_DESC_RATE : Fld := ⟨.INST_SUB_CFG, 0, 18⟩
def INST_SUB_CFG_DESC_BURST : Fld := ⟨.INST_SUB_CFG, 18, 16⟩
def INST_SUB_CFG_BYTE_RATE : Fld := ⟨.INST_SUB_CFG, 34, 20⟩
def INST_SUB_CFG_BYTE_BURST : Fld := ⟨.INST_SUB_CFG, 54, 9⟩
def INST_SUB_CFG_COLD : Fld := ⟨.INST_SUB_CFG, 63, 1⟩
def INST_INFLIGHT_CUR : Fld := ⟨.INST_INFLIGHT, 0, 17⟩
def INST_INFLIGHT_PREV : Fld := ⟨.INST_INFLIGHT, 32, 17⟩
def INST_SUB_TOKENS_DESC : Fld := ⟨.INST_SUB_TOKENS, 0, 32⟩
def INST_SUB_TOKENS_BYTES : Fld := ⟨.INST_SUB_TOKENS, 32, 32⟩
def INST_RANGE_BASE : Fld := ⟨.INST_RANGE, 0, 32⟩
def INST_RANGE_COUNT : Fld := ⟨.INST_RANGE, 32, 32⟩
def MBX_TX_MSG_WORD : Fld := ⟨.MBX_TX_MSG, 0, 64⟩
def MBX_TX_CFG_MODE : Fld := ⟨.MBX_TX_CFG, 0, 1⟩
def MBX_TX_CFG_TMO_MS : Fld := ⟨.MBX_TX_CFG, 1, 14⟩
def MBX_TX_CTL_SEND : Fld := ⟨.MBX_TX_CTL, 0, 1⟩
def MBX_TX_CTL_CANCEL : Fld := ⟨.MBX_TX_CTL, 1, 1⟩
def MBX_TX_STATUS_STATE : Fld := ⟨.MBX_TX_STATUS, 0, 2⟩
def MBX_TX_STATUS_REASON : Fld := ⟨.MBX_TX_STATUS, 2, 3⟩
def MBX_TX_STATUS_CHANGE : Fld := ⟨.MBX_TX_STATUS, 5, 1⟩
def MBX_TX_STATUS_SEQ : Fld := ⟨.MBX_TX_STATUS, 16, 16⟩
def MBX_RX_MSG_WORD : Fld := ⟨.MBX_RX_MSG, 0, 64⟩
def MBX_RX_INFO_FULL : Fld := ⟨.MBX_RX_INFO, 0, 1⟩
def MBX_RX_INFO_SRC : Fld := ⟨.MBX_RX_INFO, 1, 2⟩
def MBX_RX_INFO_GEN : Fld := ⟨.MBX_RX_INFO, 4, 12⟩
def MBX_RX_INFO_SEQ : Fld := ⟨.MBX_RX_INFO, 16, 16⟩
def MBX_RX_TAKE_SEQ : Fld := ⟨.MBX_RX_TAKE, 0, 16⟩
def MBX_RX_TAKE_VALID : Fld := ⟨.MBX_RX_TAKE, 16, 1⟩
def MBX_SHM_BASE_BASE : Fld := ⟨.MBX_SHM_BASE, 0, 64⟩
def MBX_SHM_CFG_LOG2_SIZE : Fld := ⟨.MBX_SHM_CFG, 0, 5⟩
def MBX_SHM_CFG_ENABLE : Fld := ⟨.MBX_SHM_CFG, 5, 1⟩
def MBX_T_TX_MSG_WORD : Fld := ⟨.MBX_T_TX_MSG, 0, 64⟩
def MBX_T_TX_CFG_MODE : Fld := ⟨.MBX_T_TX_CFG, 0, 1⟩
def MBX_T_TX_CFG_TMO_MS : Fld := ⟨.MBX_T_TX_CFG, 1, 14⟩
def MBX_T_TX_CTL_SEND : Fld := ⟨.MBX_T_TX_CTL, 0, 1⟩
def MBX_T_TX_CTL_CANCEL : Fld := ⟨.MBX_T_TX_CTL, 1, 1⟩
def MBX_T_TX_STATUS_STATE : Fld := ⟨.MBX_T_TX_STATUS, 0, 2⟩
def MBX_T_TX_STATUS_REASON : Fld := ⟨.MBX_T_TX_STATUS, 2, 3⟩
def MBX_T_TX_STATUS_CHANGE : Fld := ⟨.MBX_T_TX_STATUS, 5, 1⟩
def MBX_T_TX_STATUS_SEQ : Fld := ⟨.MBX_T_TX_STATUS, 16, 16⟩
def MBX_T_RX_MSG_WORD : Fld := ⟨.MBX_T_RX_MSG, 0, 64⟩
def MBX_T_RX_INFO_FULL : Fld := ⟨.MBX_T_RX_INFO, 0, 1⟩
def MBX_T_RX_INFO_SRC : Fld := ⟨.MBX_T_RX_INFO, 1, 2⟩
def MBX_T_RX_INFO_GEN : Fld := ⟨.MBX_T_RX_INFO, 4, 12⟩
def MBX_T_RX_INFO_SEQ : Fld := ⟨.MBX_T_RX_INFO, 16, 16⟩
def MBX_T_RX_TAKE_SEQ : Fld := ⟨.MBX_T_RX_TAKE, 0, 16⟩
def MBX_T_RX_TAKE_VALID : Fld := ⟨.MBX_T_RX_TAKE, 16, 1⟩
def EVT_RAISED_BITS : Fld := ⟨.EVT_RAISED, 0, 32⟩
def EVT_ROUTE_EN_MSIX : Fld := ⟨.EVT_ROUTE, 0, 1⟩
def EVT_ROUTE_EN_EQ : Fld := ⟨.EVT_ROUTE, 1, 1⟩
def EVT_ROUTE_EN_SUPV : Fld := ⟨.EVT_ROUTE, 2, 1⟩
def EVT_ROUTE_EN_STEWARD : Fld := ⟨.EVT_ROUTE, 3, 1⟩
def EVT_ROUTE_EN_ALERT : Fld := ⟨.EVT_ROUTE, 4, 1⟩
def EVT_ROUTE_EN_FAULT : Fld := ⟨.EVT_ROUTE, 5, 1⟩
def EVT_ROUTE_PF : Fld := ⟨.EVT_ROUTE, 6, 2⟩
def EVT_ROUTE_VECTOR : Fld := ⟨.EVT_ROUTE, 8, 11⟩
def EVT_ROUTE_EQ : Fld := ⟨.EVT_ROUTE, 19, 12⟩
def EVT_ROUTE_SUPV_MASK : Fld := ⟨.EVT_ROUTE, 32, 16⟩
def EVT_VEC_MOD_INTERVAL_US : Fld := ⟨.EVT_VEC_MOD, 0, 10⟩
def EVT_IROUTE_EN_MSIX : Fld := ⟨.EVT_IROUTE, 0, 1⟩
def EVT_IROUTE_EN_EQ : Fld := ⟨.EVT_IROUTE, 1, 1⟩
def EVT_IROUTE_VECTOR : Fld := ⟨.EVT_IROUTE, 2, 11⟩
def EVT_IROUTE_EQ : Fld := ⟨.EVT_IROUTE, 13, 12⟩
def EVT_VF_VEC_MOD_INTERVAL_US : Fld := ⟨.EVT_VF_VEC_MOD, 0, 10⟩
def NVME_CONN_CFG_VALID : Fld := ⟨.NVME_CONN_CFG, 0, 1⟩
def NVME_CONN_CFG_HDGST : Fld := ⟨.NVME_CONN_CFG, 1, 1⟩
def NVME_CONN_CFG_DDGST : Fld := ⟨.NVME_CONN_CFG, 2, 1⟩
def NVME_CONN_CFG_TX_EN : Fld := ⟨.NVME_CONN_CFG, 3, 1⟩
def NVME_CONN_CFG_RX_EN : Fld := ⟨.NVME_CONN_CFG, 4, 1⟩
def NVME_CONN_CFG_CID_LOG2 : Fld := ⟨.NVME_CONN_CFG, 8, 4⟩
def NVME_CONN_CFG_CID_BASE : Fld := ⟨.NVME_CONN_CFG, 12, 52⟩
def NVME_CONN_RESYNC_SEQ : Fld := ⟨.NVME_CONN_RESYNC, 0, 32⟩
def NVME_CONN_RESYNC_ARM : Fld := ⟨.NVME_CONN_RESYNC, 32, 1⟩
def NVME_CONN_RESYNC_RX_MODE : Fld := ⟨.NVME_CONN_RESYNC, 33, 2⟩
def NVME_CPAGE_CONN : Fld := ⟨.NVME_CPAGE, 0, 4⟩
def BLK_ID_BLOCK : Fld := ⟨.BLK_ID, 0, 8⟩
def BLK_ID_ISLAND : Fld := ⟨.BLK_ID, 8, 5⟩
def BLK_ID_LAYOUT : Fld := ⟨.BLK_ID, 16, 16⟩
def BLK_STATUS_WRITE_LOST : Fld := ⟨.BLK_STATUS, 0, 1⟩
def BLK_STATUS_WRAPPED : Fld := ⟨.BLK_STATUS, 1, 1⟩
def BLK_STATUS_SAT : Fld := ⟨.BLK_STATUS, 2, 1⟩
def BLK_STATUS_IGNORED : Fld := ⟨.BLK_STATUS, 3, 1⟩
def BLK_STATUS_LAST_CAUSE : Fld := ⟨.BLK_STATUS, 8, 4⟩
def BLK_IGNORED_COUNT : Fld := ⟨.BLK_IGNORED, 0, 16⟩
def BLK_LAST_ADDR_OFFSET : Fld := ⟨.BLK_LAST_ADDR, 0, 24⟩

end F

/-- The field rows of a register, from its field table. -/
def Reg.fields : Reg → List FieldRow
  | .POD_CORE_CTL => [⟨0, 1, .rw, .any⟩, ⟨1, 1, .rw, .any⟩, ⟨7, 17, .rw, (.range 256 65536)⟩, ⟨24, 8, .rw, .any⟩]
  | .POD_SUPERVISOR => [⟨0, 4, .rwl, .any⟩, ⟨4, 3, .rwl, .any⟩, ⟨8, 18, .rwl, .any⟩, ⟨29, 1, .ro, .any⟩, ⟨30, 1, .rw1s, .any⟩, ⟨31, 1, .rw1s, .any⟩]
  | .POD_PARK_CTL => [⟨0, 1, .rw, .any⟩, ⟨1, 2, .ro, .any⟩, ⟨3, 1, .rw1c, .any⟩]
  | .POD_CLK_CFG => [⟨0, 12, .rw, (.range 1200 2200)⟩, ⟨12, 12, .ro, .any⟩]
  | .POD_CLK_STATUS => [⟨0, 12, .ro, .any⟩, ⟨12, 1, .ro, .any⟩]
  | .POD_SUPV_EVT => [⟨0, 32, .ro, .any⟩]
  | .POD_SLOT_HANDLER => [⟨0, 18, .rw, .any⟩, ⟨31, 1, .rw, .any⟩]
  | .NET_GROUP_CFG => [⟨0, 4, .rw, .any⟩, ⟨8, 8, .rw, (.range 1 100)⟩]
  | .NET_TUN_UDP => [⟨0, 16, .rw, .any⟩, ⟨16, 16, .rw, .any⟩]
  | .NET_SYNCE_CFG => [⟨0, 1, .rw, .any⟩, ⟨1, 5, .rw, .any⟩, ⟨6, 2, .rw, (.range 0 1)⟩]
  | .NET_PORT_CFG => [⟨0, 1, .rw, .any⟩, ⟨1, 3, .rw, (.range 0 4)⟩, ⟨4, 1, .rw, .any⟩, ⟨5, 1, .rw1s, .any⟩, ⟨6, 4, .rw, .any⟩, ⟨10, 2, .rw, (.range 0 2)⟩, ⟨12, 1, .rw, .any⟩, ⟨13, 1, .rw, .any⟩, ⟨16, 8, .rw, .any⟩, ⟨32, 14, .rw, (.range 64 16383)⟩]
  | .NET_PORT_STATUS => [⟨0, 3, .ro, .any⟩, ⟨3, 4, .ro, .any⟩, ⟨7, 1, .ro, .any⟩, ⟨8, 1, .ro, .any⟩, ⟨9, 1, .rw1c, .any⟩, ⟨10, 1, .ro, .any⟩]
  | .NET_PORT_FC => [⟨0, 16, .rw, .any⟩, ⟨16, 16, .rw, (.zeroOr 10 10000)⟩]
  | .NET_TS_CORR => [⟨0, 16, .rw, .any⟩, ⟨16, 16, .rw, .any⟩]
  | .NET_TXTS_PI => [⟨0, 7, .ro, .any⟩]
  | .NET_TXTS_CI => [⟨0, 7, .rw, .any⟩]
  | .NET_PROFILE_CFG => [⟨0, 8, .rw, .any⟩, ⟨8, 12, .rw, (.range 0 2051)⟩, ⟨20, 1, .rw, .any⟩, ⟨21, 1, .rw, .any⟩, ⟨22, 2, .rw, .any⟩, ⟨24, 3, .rw, .any⟩, ⟨32, 16, .rw, .any⟩]
  | .NET_PROFILE_SEL => [⟨0, 8, .rw, .any⟩, ⟨8, 16, .rw, .any⟩, ⟨24, 4, .rw, .any⟩, ⟨31, 1, .rw, .any⟩]
  | .NET_DSCP_MAP => [⟨0, 24, .rw, .any⟩]
  | .NET_LANE_CFG => [⟨0, 2, .rw, (.range 0 2)⟩, ⟨2, 1, .rw, .any⟩, ⟨3, 3, .rw, (.range 0 3)⟩, ⟨6, 1, .rw, .any⟩, ⟨7, 3, .rw, .any⟩]
  | .NET_LANE_STATUS => [⟨0, 4, .ro, .any⟩, ⟨4, 1, .ro, .any⟩, ⟨5, 1, .ro, .any⟩, ⟨6, 1, .ro, .any⟩, ⟨7, 1, .ro, .any⟩, ⟨8, 2, .ro, .any⟩, ⟨10, 1, .rw1c, .any⟩]
  | .NET_LANE_PRBS => [⟨0, 3, .rw, (.range 0 4)⟩, ⟨3, 1, .rw, .any⟩, ⟨4, 1, .rw, .any⟩, ⟨5, 1, .ro, .any⟩]
  | .NET_LANE_MARGIN => [⟨0, 8, .ro, .any⟩, ⟨8, 8, .ro, .any⟩, ⟨16, 8, .ro, .any⟩, ⟨24, 8, .ro, .any⟩]
  | .NET_EL_CFG => [⟨0, 1, .rw, .any⟩, ⟨1, 6, .rw, (.zeroOr 26 36)⟩, ⟨7, 1, .rw, .any⟩, ⟨8, 8, .rw, .any⟩, ⟨16, 7, .rw, (.range 1 100)⟩]
  | .NET_EL_STATUS => [⟨0, 4, .ro, .any⟩, ⟨4, 2, .ro, .any⟩, ⟨6, 2, .ro, .any⟩, ⟨8, 8, .ro, .any⟩, ⟨16, 6, .ro, .any⟩, ⟨22, 1, .rw1c, .any⟩, ⟨23, 1, .ro, .any⟩]
  | .NET_TXTS => [⟨0, 64, .ro, .any⟩]
  | .HOST_PORT_CFG => [⟨0, 14, .rw, (.range 1 10000)⟩, ⟨14, 2, .rwl, (.range 0 2)⟩, ⟨16, 3, .rwl, (.range 1 6)⟩, ⟨19, 10, .rw, (.range 1 1000)⟩, ⟨31, 1, .rw1s, .any⟩]
  | .HOST_PORT_STATUS => [⟨0, 3, .ro, .any⟩, ⟨3, 5, .ro, .any⟩, ⟨8, 3, .ro, .any⟩, ⟨11, 1, .ro, .any⟩, ⟨12, 1, .rw1c, .any⟩, ⟨13, 1, .ro, .any⟩]
  | .DMA_CHAN_CFG => [⟨0, 1, .rwl, .any⟩, ⟨1, 1, .rw, .any⟩, ⟨2, 2, .rw, .any⟩, ⟨4, 3, .rw, (.range 0 4)⟩, ⟨7, 2, .rwl, .any⟩, ⟨31, 1, .rw1s, .any⟩]
  | .DMA_CHAN_CTL => [⟨0, 1, .rw1s, .any⟩, ⟨1, 1, .rw1s, .any⟩, ⟨2, 1, .rw1s, .any⟩]
  | .DMA_CHAN_STATE => [⟨0, 3, .ro, .any⟩, ⟨3, 1, .ro, .any⟩, ⟨4, 16, .ro, .any⟩, ⟨32, 32, .ro, .any⟩]
  | .DMA_CHAN_STATUS_ADDR => [⟨0, 64, .rw, (.align 32)⟩]
  | .DMA_INST_CHAN => [⟨0, 6, .rw, .any⟩, ⟨6, 1, .ro, .any⟩]
  | .MIG_STATE => [⟨0, 3, .ro, .any⟩, ⟨3, 1, .ro, .any⟩, ⟨4, 1, .ro, .any⟩, ⟨5, 1, .rw1c, .any⟩]
  | .BUF_HBM_PARTITION => [⟨0, 5, .rwl, (.range 2 30)⟩, ⟨8, 5, .ro, .any⟩, ⟨31, 1, .rw1s, .any⟩]
  | .BUF_ADM_LOCK => [⟨0, 1, .rw1s, .any⟩]
  | .BUF_SPILL_CFG => [⟨0, 18, .rw, .any⟩]
  | .BUF_POOL_CFG => [⟨0, 18, .rwl, .any⟩]
  | .BUF_ONCHIP_FREE => [⟨0, 32, .ro, .any⟩]
  | .BUF_DEEP_FREE_PAGES => [⟨0, 32, .ro, .any⟩]
  | .BUF_MOULT_DTB => [⟨0, 64, .ro, .any⟩]
  | .BUF_IAP_CFG => [⟨0, 16, .rwl, .any⟩, ⟨16, 16, .rwl, .any⟩, ⟨32, 3, .rwl, .any⟩, ⟨36, 12, .rwl, .any⟩, ⟨48, 12, .rwl, .any⟩]
  | .BUF_SLOT_STATE => [⟨0, 8, .ro, .any⟩, ⟨8, 8, .ro, .any⟩, ⟨32, 16, .ro, .any⟩]
  | .TM_LIFETIME => [⟨0, 14, .rw, (.range 25 10000)⟩]
  | .TM_PORT_HOLD => [⟨0, 10, .rw, (.range 0 1000)⟩]
  | .TM_HOST_NODE => [⟨0, 14, .rwl, .any⟩]
  | .TM_INST_NODE => [⟨0, 14, .rw, .any⟩, ⟨14, 1, .rw, .any⟩]
  | .TM_RQ_QUEUE => [⟨0, 17, .ro, .any⟩]
  | .TM_QPROF => [⟨0, 20, .rw, (.range 1 1048575)⟩, ⟨20, 16, .rw, .any⟩]
  | .TM_WRED_PROF => [⟨0, 16, .rw, .any⟩, ⟨16, 16, .rw, .any⟩, ⟨32, 8, .rw, .any⟩, ⟨40, 4, .rw, .any⟩, ⟨44, 1, .rw, .any⟩]
  | .TM_NODE2 => [⟨0, 14, .rw, .any⟩, ⟨14, 2, .rw, .any⟩, ⟨16, 8, .rw, (.range 1 255)⟩, ⟨24, 1, .rw, .any⟩]
  | .TM_NODE3 => [⟨0, 14, .rw, .any⟩, ⟨14, 2, .rw, .any⟩, ⟨16, 8, .rw, (.range 1 255)⟩, ⟨24, 1, .rw, .any⟩]
  | .TM_NODE4 => [⟨0, 14, .rw, .any⟩, ⟨14, 2, .rw, .any⟩, ⟨16, 8, .rw, (.range 1 255)⟩, ⟨24, 1, .rw, .any⟩]
  | .TM_SHAPE1 => [⟨0, 22, .rw, (.zeroOr 1 800000)⟩, ⟨22, 16, .rw, (.range 256 65535)⟩, ⟨38, 1, .rw, .any⟩, ⟨39, 7, .rw, .any⟩]
  | .TM_SHAPE2 => [⟨0, 22, .rw, (.zeroOr 1 800000)⟩, ⟨22, 16, .rw, (.range 256 65535)⟩, ⟨38, 1, .rw, .any⟩, ⟨39, 7, .rw, .any⟩]
  | .TM_SHAPE3 => [⟨0, 22, .rw, (.zeroOr 1 800000)⟩, ⟨22, 16, .rw, (.range 256 65535)⟩, ⟨38, 1, .rw, .any⟩, ⟨39, 7, .rw, .any⟩]
  | .TM_SHAPE4 => [⟨0, 22, .rw, (.zeroOr 1 800000)⟩, ⟨22, 16, .rw, (.range 256 65535)⟩, ⟨38, 1, .rw, .any⟩, ⟨39, 7, .rw, .any⟩]
  | .TM_SHAPE5 => [⟨0, 22, .rw, (.zeroOr 1 800000)⟩, ⟨22, 16, .rw, (.range 256 65535)⟩, ⟨38, 1, .rw, .any⟩, ⟨39, 7, .rw, .any⟩]
  | .TM_TOKENS1 => [⟨0, 64, .ro, .any⟩]
  | .TM_TOKENS2 => [⟨0, 64, .ro, .any⟩]
  | .TM_TOKENS3 => [⟨0, 64, .ro, .any⟩]
  | .TM_TOKENS4 => [⟨0, 64, .ro, .any⟩]
  | .TM_TOKENS5 => [⟨0, 64, .ro, .any⟩]
  | .TM_Q_CFG => [⟨0, 14, .rw, .any⟩, ⟨14, 2, .rw, .any⟩, ⟨16, 8, .rw, (.range 1 255)⟩, ⟨24, 3, .rw, .any⟩, ⟨27, 1, .rw, .any⟩, ⟨28, 6, .rw, .any⟩]
  | .STATS_EPOCH_CTL => [⟨0, 1, .rw1s, .any⟩, ⟨1, 1, .ro, .any⟩, ⟨2, 1, .rw1c, .any⟩, ⟨3, 1, .ro, .any⟩, ⟨4, 28, .ro, .any⟩]
  | .STATS_EPOCH_SWITCH_DTB => [⟨0, 64, .ro, .any⟩]
  | .STATS_EPOCH_PERIOD => [⟨0, 32, .rw, (.zeroOr 1 3600000)⟩]
  | .TABLE_T1_CFG => [⟨0, 4, .rwl, (.range 1 10)⟩, ⟨16, 6, .ro, .any⟩, ⟨31, 1, .rw1s, .any⟩]
  | .TABLE_REMOTE_CFG => [⟨0, 7, .rw, (.range 1 100)⟩]
  | .TABLE_SHARD_MAP => [⟨0, 3, .ro, .any⟩]
  | .TABLE_BULK_BASE => [⟨0, 64, .rw, (.align 4096)⟩]
  | .TABLE_BULK_CFG => [⟨0, 5, .rw, (.range 6 16)⟩, ⟨5, 1, .rw, .any⟩, ⟨6, 10, .rw, (.range 1 1000)⟩]
  | .TABLE_BULK_PI => [⟨0, 16, .rw, .any⟩]
  | .TABLE_BULK_CI => [⟨0, 16, .ro, .any⟩]
  | .TABLE_BULK_STATUS => [⟨0, 8, .ro, .any⟩, ⟨8, 16, .ro, .any⟩, ⟨24, 8, .ro, .any⟩]
  | .TABLE_NOTE_BASE => [⟨0, 64, .rw, .any⟩]
  | .TABLE_NOTE_CFG => [⟨0, 5, .rw, (.range 6 16)⟩, ⟨5, 1, .rw, .any⟩]
  | .TABLE_NOTE_PI => [⟨0, 32, .ro, .any⟩]
  | .TABLE_NOTE_CI => [⟨0, 32, .rw, .any⟩]
  | .TABLE_DESC_CFG => [⟨0, 1, .ro, .any⟩, ⟨1, 3, .ro, .any⟩, ⟨4, 2, .ro, .any⟩, ⟨6, 2, .ro, .any⟩, ⟨8, 1, .ro, .any⟩, ⟨9, 1, .ro, .any⟩, ⟨10, 1, .ro, .any⟩, ⟨11, 1, .ro, .any⟩, ⟨12, 1, .ro, .any⟩, ⟨16, 12, .ro, .any⟩, ⟨32, 7, .ro, .any⟩, ⟨40, 8, .ro, .any⟩, ⟨48, 7, .ro, .any⟩, ⟨55, 2, .ro, .any⟩]
  | .TABLE_DESC_CAP => [⟨0, 28, .ro, .any⟩, ⟨32, 28, .ro, .any⟩]
  | .TABLE_DESC_SEQ => [⟨0, 32, .ro, .any⟩]
  | .TABLE_AGE_CFG => [⟨0, 16, .ro, .any⟩, ⟨16, 8, .ro, .any⟩, ⟨24, 1, .ro, .any⟩]
  | .TABLE_LEARN_CFG => [⟨0, 1, .ro, .any⟩, ⟨16, 16, .ro, .any⟩]
  | .CRYPTO_NOTE_BASE => [⟨0, 64, .rw, .any⟩]
  | .CRYPTO_NOTE_CFG => [⟨0, 4, .rw, (.range 6 12)⟩, ⟨4, 1, .rw, .any⟩]
  | .CRYPTO_NOTE_PI => [⟨0, 32, .ro, .any⟩]
  | .CRYPTO_NOTE_CI => [⟨0, 32, .rw, .any⟩]
  | .STM_FW_STATUS => [⟨0, 1, .ro, .any⟩, ⟨1, 1, .ro, .any⟩, ⟨2, 1, .ro, .any⟩, ⟨3, 2, .ro, .any⟩, ⟨5, 1, .ro, .any⟩, ⟨6, 1, .ro, .any⟩, ⟨7, 1, .ro, .any⟩, ⟨16, 16, .ro, .any⟩]
  | .MGT_SMB_CFG => [⟨0, 2, .rw, (.range 0 2)⟩, ⟨2, 7, .rw, .any⟩]
  | .MGT_SMB_STATUS => [⟨0, 7, .ro, .any⟩, ⟨7, 8, .ro, .any⟩, ⟨15, 1, .ro, .any⟩, ⟨16, 3, .ro, .any⟩]
  | .MGT_I2C_CFG => [⟨0, 2, .rwl, (.range 0 2)⟩, ⟨2, 2, .rwl, (.range 0 2)⟩, ⟨4, 7, .rwl, .any⟩, ⟨11, 7, .rwl, .any⟩, ⟨18, 10, .rwl, (.range 10 1000)⟩, ⟨31, 1, .rw1s, .any⟩]
  | .MGT_I2C_STATUS => [⟨0, 1, .ro, .any⟩]
  | .MGT_ARB_LOG => [⟨0, 8, .ro, .any⟩, ⟨8, 3, .ro, .any⟩, ⟨11, 4, .ro, .any⟩, ⟨15, 1, .rw1c, .any⟩]
  | .MGT_MOD_MAP => [⟨0, 2, .rwl, .any⟩, ⟨2, 1, .rwl, .any⟩, ⟨3, 1, .rwl, .any⟩, ⟨4, 3, .rwl, .any⟩, ⟨7, 5, .rwl, .any⟩, ⟨12, 1, .rwl, .any⟩]
  | .MGT_MOD_STATUS => [⟨0, 1, .ro, .any⟩, ⟨1, 3, .ro, .any⟩, ⟨4, 1, .ro, .any⟩, ⟨5, 1, .rw1c, .any⟩]
  | .MGT_MOD_FLAGS => [⟨0, 64, .rw1c, .any⟩]
  | .MGT_AVS_RAIL => [⟨0, 2, .rwl, .any⟩, ⟨2, 7, .rwl, .any⟩, ⟨9, 4, .rwl, .any⟩, ⟨13, 1, .rwl, .any⟩]
  | .MGT_AVS_READ => [⟨0, 16, .ro, .any⟩, ⟨16, 16, .ro, .any⟩, ⟨32, 16, .ro, .any⟩]
  | .EYE_CTL => [⟨0, 1, .rw1s, .any⟩]
  | .EYE_THROT => [⟨0, 12, .rw, (.range 1200 2000)⟩]
  | .EYE_CH_CFG => [⟨0, 1, .rw, .any⟩, ⟨1, 3, .rw, (.range 0 4)⟩, ⟨4, 1, .rw, .any⟩, ⟨5, 4, .rw, (.range 1 15)⟩]
  | .EYE_THR => [⟨0, 8, .rw, .any⟩, ⟨8, 8, .rw, .any⟩, ⟨16, 8, .rwl, .any⟩, ⟨24, 5, .rw, (.range 1 31)⟩]
  | .EYE_COND => [⟨0, 3, .ro, .any⟩, ⟨3, 4, .ro, .any⟩]
  | .EYE_LAST => [⟨0, 16, .ro, .any⟩, ⟨16, 1, .ro, .any⟩, ⟨17, 3, .ro, .any⟩, ⟨20, 1, .ro, .any⟩, ⟨21, 1, .ro, .any⟩, ⟨22, 3, .ro, .any⟩, ⟨25, 1, .ro, .any⟩, ⟨32, 16, .ro, .any⟩]
  | .EYE_GOOD => [⟨0, 16, .ro, .any⟩, ⟨16, 1, .ro, .any⟩, ⟨17, 3, .ro, .any⟩, ⟨20, 1, .ro, .any⟩, ⟨21, 1, .ro, .any⟩, ⟨22, 3, .ro, .any⟩, ⟨25, 1, .ro, .any⟩, ⟨32, 16, .ro, .any⟩]
  | .FCOL_STATUS => [⟨0, 1, .ro, .any⟩, ⟨1, 1, .ro, .any⟩, ⟨2, 1, .ro, .any⟩, ⟨3, 9, .ro, .any⟩]
  | .FCOL_FPSW => [⟨0, 26, .rw1c, .any⟩]
  | .FCOL_LOCK => [⟨0, 1, .rw1s, .any⟩]
  | .FCOL_ACK => [⟨0, 16, .wo, .any⟩]
  | .FCOL_LOG_PI => [⟨0, 16, .ro, .any⟩]
  | .FCOL_PART_ISO => [⟨0, 16, .rw1c, .any⟩, ⟨16, 8, .ro, .any⟩, ⟨24, 4, .ro, .any⟩]
  | .FCOL_ROUTER_ISO => [⟨0, 36, .ro, .any⟩]
  | .FCOL_PC_RETIRED => [⟨0, 64, .ro, .any⟩]
  | .FCOL_ACTION => [⟨0, 6, .rwl, .any⟩, ⟨6, 6, .rwl, .any⟩, ⟨12, 6, .rwl, .any⟩, ⟨18, 6, .rwl, .any⟩, ⟨24, 6, .rwl, .any⟩]
  | .GRP_CFG => [⟨0, 1, .rwl, .any⟩, ⟨31, 1, .rw1s, .any⟩]
  | .GRP_STATUS => [⟨0, 3, .ro, .any⟩, ⟨3, 3, .ro, .any⟩, ⟨6, 3, .ro, .any⟩, ⟨9, 4, .ro, .any⟩, ⟨13, 4, .ro, .any⟩, ⟨17, 4, .ro, .any⟩, ⟨21, 1, .ro, .any⟩, ⟨22, 1, .ro, .any⟩, ⟨23, 1, .rw1c, .any⟩, ⟨24, 4, .ro, .any⟩, ⟨28, 4, .ro, .any⟩, ⟨32, 32, .ro, .any⟩]
  | .GRP_DIGEST => [⟨0, 64, .ro, .any⟩]
  | .GRP_LEADER_DIGEST => [⟨0, 64, .ro, .any⟩]
  | .GRP_TIME_OFFSET => [⟨0, 64, .ro, .any⟩]
  | .GRP_GQ_BASE => [⟨0, 17, .rwl, .any⟩]
  | .PWR_STATE => [⟨0, 3, .ro, .any⟩, ⟨3, 4, .ro, .any⟩, ⟨7, 1, .ro, .any⟩]
  | .PWR_CTL => [⟨0, 1, .rw1s, .any⟩]
  | .PWR_WAKE_CFG => [⟨0, 1, .rws, .any⟩, ⟨1, 1, .rws, .any⟩, ⟨2, 1, .rws, .any⟩, ⟨3, 1, .rws, .any⟩, ⟨4, 16, .rws, (.range 1 65535)⟩, ⟨20, 7, .rws, (.range 10 100)⟩]
  | .PWR_PARK_CFG => [⟨0, 1, .rw, .any⟩, ⟨1, 8, .rw, (.range 16 255)⟩]
  | .PWR_AVS_CFG => [⟨0, 1, .rw, .any⟩, ⟨1, 10, .rw, (.range 650 900)⟩]
  | .PWR_AVS_STATUS => [⟨0, 10, .ro, .any⟩, ⟨10, 10, .ro, .any⟩, ⟨20, 1, .ro, .any⟩]
  | .TIME_DTB => [⟨0, 64, .ro, .any⟩]
  | .TIME_STEP => [⟨0, 64, .wo, .any⟩]
  | .TIME_ADJ => [⟨0, 32, .rw, (.signed 500000000)⟩]
  | .TIME_CTL => [⟨0, 1, .rwh, .any⟩, ⟨1, 1, .ro, .any⟩, ⟨2, 6, .rw, (.range 1 60)⟩, ⟨8, 1, .rw, .any⟩]
  | .RST_STRAPS => [⟨0, 3, .ro, .any⟩, ⟨3, 2, .ro, .any⟩, ⟨5, 1, .ro, .any⟩, ⟨6, 1, .ro, .any⟩]
  | .RST_START => [⟨0, 4, .ro, .any⟩, ⟨4, 4, .ro, .any⟩]
  | .RST_WARM_CTL => [⟨0, 1, .rw1s, .any⟩, ⟨16, 16, .wo, .any⟩]
  | .RST_CHRY_STATUS => [⟨0, 4, .ro, .any⟩, ⟨4, 1, .ro, .any⟩]
  | .RST_START_REF => [⟨0, 64, .ro, .any⟩]
  | .RST_MILESTONE => [⟨0, 64, .ro, .any⟩]
  | .FUSE_STATUS => [⟨0, 1, .ro, .any⟩, ⟨1, 1, .ro, .any⟩, ⟨2, 1, .ro, .any⟩, ⟨3, 2, .ro, .any⟩, ⟨5, 1, .ro, .any⟩, ⟨6, 10, .ro, .any⟩, ⟨16, 10, .ro, .any⟩]
  | .FUSE_ROLLBACK => [⟨0, 7, .ro, .any⟩, ⟨7, 1, .ro, .any⟩, ⟨8, 1, .ro, .any⟩]
  | .FUSE_SENSE_TJ => [⟨0, 8, .ro, .any⟩]
  | .FUSE_SENSE_DTB => [⟨0, 64, .ro, .any⟩]
  | .FUSE_WORD_STATE => [⟨0, 3, .ro, .any⟩, ⟨3, 2, .ro, .any⟩, ⟨5, 1, .ro, .any⟩, ⟨6, 1, .ro, .any⟩]
  | .FUSE_VALUE => [⟨0, 32, .ro, .any⟩]
  | .IDE_STREAM => [⟨0, 1, .ro, .any⟩, ⟨1, 1, .ro, .any⟩, ⟨2, 1, .ro, .any⟩]
  | .HBM_PC_STATUS => [⟨0, 2, .ro, .any⟩, ⟨2, 1, .ro, .any⟩]
  | .ROB_USED => [⟨0, 19, .ro, .any⟩, ⟨32, 18, .ro, .any⟩]
  | .TOK_POD_LOAD => [⟨0, 9, .ro, .any⟩, ⟨16, 9, .ro, .any⟩]
  | .LU_STATUS => [⟨0, 1, .ro, .any⟩, ⟨1, 12, .ro, .any⟩]
  | .XSPI_STATUS => [⟨0, 2, .ro, .any⟩, ⟨2, 8, .ro, .any⟩, ⟨10, 16, .ro, .any⟩]
  | .CLK_PLL_STATUS => [⟨0, 16, .ro, .any⟩, ⟨16, 9, .ro, .any⟩]
  | .QE_LEDGER_BASE => [⟨0, 64, .rw, (.align 64)⟩]
  | .QE_LEDGER_SIZE => [⟨0, 32, .rw, .any⟩]
  | .QE_LEDGER_ACK => [⟨0, 32, .wo, .any⟩]
  | .QE_LEDGER_STATUS => [⟨0, 1, .rw1c, .any⟩, ⟨1, 1, .ro, .any⟩]
  | .QE_LEDGER_SEQ => [⟨0, 32, .ro, .any⟩]
  | .QE_INST_ARB => [⟨0, 10, .rw, (.range 1 1023)⟩]
  | .QE_QCTX_CFG => [⟨0, 1, .rwl, .any⟩, ⟨1, 5, .rwl, (.range 6 16)⟩, ⟨6, 8, .rwl, .any⟩, ⟨14, 15, .rwl, .any⟩]
  | .QE_QCTX_ARB => [⟨0, 8, .rw, (.range 1 255)⟩, ⟨8, 7, .rw, (.range 1 64)⟩]
  | .QE_QCTX_STATE => [⟨0, 2, .ro, .any⟩, ⟨2, 8, .ro, .any⟩, ⟨32, 32, .ro, .any⟩]
  | .QE_QCTX_CTL => [⟨0, 1, .rw, .any⟩, ⟨1, 1, .rw1s, .any⟩, ⟨32, 32, .rw, .any⟩]
  | .QE_QCTX_BASE => [⟨0, 64, .rwl, .any⟩]
  | .QE_QCTX_HWB => [⟨0, 64, .rwl, .any⟩]
  | .QE_QCTX_PI => [⟨0, 32, .ro, .any⟩]
  | .QE_QCTX_CI => [⟨0, 32, .ro, .any⟩]
  | .QE_QCTX_DONE => [⟨0, 32, .ro, .any⟩]
  | .QE_CQCTX_BASE => [⟨0, 64, .rwl, .any⟩]
  | .QE_CQCTX_CFG => [⟨0, 5, .rwl, (.range 6 16)⟩, ⟨5, 1, .rw, .any⟩, ⟨6, 1, .rwl, .any⟩, ⟨7, 11, .rwl, .any⟩, ⟨18, 12, .rwl, .any⟩]
  | .QE_CQCTX_FLAGS => [⟨0, 1, .ro, .any⟩, ⟨1, 1, .rw1c, .any⟩]
  | .QE_CQCTX_STATE => [⟨0, 32, .ro, .any⟩, ⟨32, 32, .ro, .any⟩]
  | .QE_EQCTX_BASE => [⟨0, 64, .rwl, .any⟩]
  | .QE_EQCTX_CFG => [⟨0, 5, .rwl, (.range 6 16)⟩, ⟨5, 1, .rw, .any⟩, ⟨6, 11, .rwl, .any⟩]
  | .QE_EQCTX_FLAGS => [⟨0, 1, .ro, .any⟩, ⟨1, 1, .rw1c, .any⟩]
  | .QE_EQCTX_STATE => [⟨0, 32, .ro, .any⟩, ⟨32, 32, .ro, .any⟩]
  | .QE_QPAGE => [⟨0, 6, .rw, .any⟩, ⟨8, 6, .rw, .any⟩, ⟨16, 5, .rw, .any⟩]
  | .QE_DB_LAST_REJECT => [⟨0, 4, .ro, .any⟩, ⟨16, 16, .ro, .any⟩]
  | .INST_PF_MODE => [⟨0, 1, .ro, .any⟩]
  | .INST_EQUAL_NODE => [⟨0, 14, .ro, .any⟩]
  | .INST_PF_ALLOT => [⟨0, 32, .ro, .any⟩, ⟨32, 32, .ro, .any⟩]
  | .INST_EQUAL_RSV => [⟨0, 64, .ro, .any⟩]
  | .INST_STATE => [⟨0, 3, .ro, .any⟩, ⟨3, 1, .ro, .any⟩, ⟨16, 12, .ro, .any⟩]
  | .INST_SUB_CFG => [⟨0, 18, .rw, (.zeroOr 1 200000)⟩, ⟨18, 16, .rw, (.range 64 65535)⟩, ⟨34, 20, .rw, (.zeroOr 1 800000)⟩, ⟨54, 9, .rw, (.range 1 511)⟩, ⟨63, 1, .rw, .any⟩]
  | .INST_INFLIGHT => [⟨0, 17, .ro, .any⟩, ⟨32, 17, .ro, .any⟩]
  | .INST_SUB_TOKENS => [⟨0, 32, .ro, .any⟩, ⟨32, 32, .ro, .any⟩]
  | .INST_RANGE => [⟨0, 32, .ro, .any⟩, ⟨32, 32, .ro, .any⟩]
  | .MBX_TX_MSG => [⟨0, 64, .rw, .any⟩]
  | .MBX_TX_CFG => [⟨0, 1, .rw, .any⟩, ⟨1, 14, .rw, (.range 1 10000)⟩]
  | .MBX_TX_CTL => [⟨0, 1, .rw1s, .any⟩, ⟨1, 1, .rw1s, .any⟩]
  | .MBX_TX_STATUS => [⟨0, 2, .ro, .any⟩, ⟨2, 3, .ro, .any⟩, ⟨5, 1, .rw1c, .any⟩, ⟨16, 16, .ro, .any⟩]
  | .MBX_RX_MSG => [⟨0, 64, .ro, .any⟩]
  | .MBX_RX_INFO => [⟨0, 1, .ro, .any⟩, ⟨1, 2, .ro, .any⟩, ⟨4, 12, .ro, .any⟩, ⟨16, 16, .ro, .any⟩]
  | .MBX_RX_TAKE => [⟨0, 16, .rc, .any⟩, ⟨16, 1, .rc, .any⟩]
  | .MBX_SHM_BASE => [⟨0, 64, .rw, (.align 4096)⟩]
  | .MBX_SHM_CFG => [⟨0, 5, .rw, (.range 12 24)⟩, ⟨5, 1, .rw, .any⟩]
  | .MBX_T_TX_MSG => [⟨0, 64, .rw, .any⟩]
  | .MBX_T_TX_CFG => [⟨0, 1, .rw, .any⟩, ⟨1, 14, .rw, (.range 1 10000)⟩]
  | .MBX_T_TX_CTL => [⟨0, 1, .rw1s, .any⟩, ⟨1, 1, .rw1s, .any⟩]
  | .MBX_T_TX_STATUS => [⟨0, 2, .ro, .any⟩, ⟨2, 3, .ro, .any⟩, ⟨5, 1, .rw1c, .any⟩, ⟨16, 16, .ro, .any⟩]
  | .MBX_T_RX_MSG => [⟨0, 64, .ro, .any⟩]
  | .MBX_T_RX_INFO => [⟨0, 1, .ro, .any⟩, ⟨1, 2, .ro, .any⟩, ⟨4, 12, .ro, .any⟩, ⟨16, 16, .ro, .any⟩]
  | .MBX_T_RX_TAKE => [⟨0, 16, .rc, .any⟩, ⟨16, 1, .rc, .any⟩]
  | .EVT_RAISED => [⟨0, 32, .rw1c, .any⟩]
  | .EVT_ROUTE => [⟨0, 1, .rw, .any⟩, ⟨1, 1, .rw, .any⟩, ⟨2, 1, .rw, .any⟩, ⟨3, 1, .rw, .any⟩, ⟨4, 1, .rw, .any⟩, ⟨5, 1, .rw, .any⟩, ⟨6, 2, .rw, .any⟩, ⟨8, 11, .rw, .any⟩, ⟨19, 12, .rw, .any⟩, ⟨32, 16, .rw, .any⟩]
  | .EVT_VEC_MOD => [⟨0, 10, .rw, (.range 0 1000)⟩]
  | .EVT_IROUTE => [⟨0, 1, .rw, .any⟩, ⟨1, 1, .rw, .any⟩, ⟨2, 11, .rw, .any⟩, ⟨13, 12, .rw, .any⟩]
  | .EVT_VF_VEC_MOD => [⟨0, 10, .rw, (.range 0 1000)⟩]
  | .NVME_CONN_CFG => [⟨0, 1, .rw, .any⟩, ⟨1, 1, .rw, .any⟩, ⟨2, 1, .rw, .any⟩, ⟨3, 1, .rw, .any⟩, ⟨4, 1, .rw, .any⟩, ⟨8, 4, .rw, (.range 4 12)⟩, ⟨12, 52, .rw, .any⟩]
  | .NVME_CONN_RESYNC => [⟨0, 32, .rw, .any⟩, ⟨32, 1, .rw1s, .any⟩, ⟨33, 2, .ro, .any⟩]
  | .NVME_CPAGE => [⟨0, 4, .rw, .any⟩]
  | .BLK_ID => [⟨0, 8, .ro, .any⟩, ⟨8, 5, .ro, .any⟩, ⟨16, 16, .ro, .any⟩]
  | .BLK_STATUS => [⟨0, 1, .rw1c, .any⟩, ⟨1, 1, .rw1c, .any⟩, ⟨2, 1, .rw1c, .any⟩, ⟨3, 1, .rw1c, .any⟩, ⟨8, 4, .ro, .any⟩]
  | .BLK_IGNORED => [⟨0, 16, .ro, .any⟩]
  | .BLK_LAST_ADDR => [⟨0, 24, .ro, .any⟩]

/-- Where a register lies in PF BAR0 (Tables 31-1 to 31-3 and 31-6). The header registers of R73 lie at the base of every
block; `headerPlace` gives theirs. -/
def Reg.place : Reg → Place
  | .POD_CORE_CTL => ⟨0, 0, 0x0, 0x100, [(16, 1048576), (16, 4)]⟩
  | .POD_SUPERVISOR => ⟨0, 0, 0x0, 0x140, [(16, 1048576)]⟩
  | .POD_PARK_CTL => ⟨0, 0, 0x0, 0x148, [(16, 1048576)]⟩
  | .POD_CLK_CFG => ⟨0, 0, 0x0, 0x150, [(16, 1048576)]⟩
  | .POD_CLK_STATUS => ⟨0, 0, 0x0, 0x154, [(16, 1048576)]⟩
  | .POD_SUPV_EVT => ⟨0, 0, 0x0, 0x200, [(16, 1048576), (48, 4)]⟩
  | .POD_SLOT_HANDLER => ⟨0, 0, 0x0, 0x800, [(16, 1048576), (256, 4)]⟩
  | .NET_GROUP_CFG => ⟨1, 16, 0x1000000, 0x100, [(4, 1048576)]⟩
  | .NET_TUN_UDP => ⟨1, 16, 0x1000000, 0x104, [(4, 1048576)]⟩
  | .NET_SYNCE_CFG => ⟨1, 16, 0x1000000, 0x108, [(4, 1048576), (2, 4)]⟩
  | .NET_PORT_CFG => ⟨1, 16, 0x1000000, 0x200, [(4, 1048576), (8, 8)]⟩
  | .NET_PORT_STATUS => ⟨1, 16, 0x1000000, 0x240, [(4, 1048576), (8, 4)]⟩
  | .NET_PORT_FC => ⟨1, 16, 0x1000000, 0x260, [(4, 1048576), (8, 4)]⟩
  | .NET_TS_CORR => ⟨1, 16, 0x1000000, 0x280, [(4, 1048576), (8, 4)]⟩
  | .NET_TXTS_PI => ⟨1, 16, 0x1000000, 0x2A0, [(4, 1048576), (8, 4)]⟩
  | .NET_TXTS_CI => ⟨1, 16, 0x1000000, 0x2C0, [(4, 1048576), (8, 4)]⟩
  | .NET_PROFILE_CFG => ⟨1, 16, 0x1000000, 0x300, [(4, 1048576), (16, 8)]⟩
  | .NET_PROFILE_SEL => ⟨1, 16, 0x1000000, 0x380, [(4, 1048576), (16, 4)]⟩
  | .NET_DSCP_MAP => ⟨1, 16, 0x1000000, 0x3C0, [(4, 1048576), (8, 4)]⟩
  | .NET_LANE_CFG => ⟨1, 16, 0x1000000, 0x400, [(4, 1048576), (12, 4)]⟩
  | .NET_LANE_STATUS => ⟨1, 16, 0x1000000, 0x440, [(4, 1048576), (12, 4)]⟩
  | .NET_LANE_PRBS => ⟨1, 16, 0x1000000, 0x480, [(4, 1048576), (12, 4)]⟩
  | .NET_LANE_MARGIN => ⟨1, 16, 0x1000000, 0x4C0, [(4, 1048576), (12, 4)]⟩
  | .NET_EL_CFG => ⟨1, 16, 0x1000000, 0x500, [(4, 1048576)]⟩
  | .NET_EL_STATUS => ⟨1, 16, 0x1000000, 0x504, [(4, 1048576)]⟩
  | .NET_TXTS => ⟨1, 16, 0x1000000, 0x2000, [(4, 1048576), (8, 1024), (64, 16)]⟩
  | .HOST_PORT_CFG => ⟨5, 20, 0x1400000, 0x100, [(2, 4)]⟩
  | .HOST_PORT_STATUS => ⟨5, 20, 0x1400000, 0x108, [(2, 4)]⟩
  | .DMA_CHAN_CFG => ⟨7, 20, 0x1500000, 0x100, [(64, 4)]⟩
  | .DMA_CHAN_CTL => ⟨7, 20, 0x1500000, 0x200, [(64, 4)]⟩
  | .DMA_CHAN_STATE => ⟨7, 20, 0x1500000, 0x400, [(64, 8)]⟩
  | .DMA_CHAN_STATUS_ADDR => ⟨7, 20, 0x1500000, 0x600, [(64, 8)]⟩
  | .DMA_INST_CHAN => ⟨7, 20, 0x1500000, 0x1000, [(2052, 4)]⟩
  | .MIG_STATE => ⟨12, 20, 0x1600000, 0x8000, [(2052, 4)]⟩
  | .BUF_HBM_PARTITION => ⟨15, 21, 0x2800000, 0x100, []⟩
  | .BUF_ADM_LOCK => ⟨15, 21, 0x2800000, 0x104, []⟩
  | .BUF_SPILL_CFG => ⟨15, 21, 0x2800000, 0x108, []⟩
  | .BUF_POOL_CFG => ⟨15, 21, 0x2800000, 0x10C, []⟩
  | .BUF_ONCHIP_FREE => ⟨15, 21, 0x2800000, 0x110, []⟩
  | .BUF_DEEP_FREE_PAGES => ⟨15, 21, 0x2800000, 0x114, []⟩
  | .BUF_MOULT_DTB => ⟨15, 21, 0x2800000, 0x118, []⟩
  | .BUF_IAP_CFG => ⟨15, 21, 0x2800000, 0x1000, [(36, 64), (8, 8)]⟩
  | .BUF_SLOT_STATE => ⟨15, 21, 0x2800000, 0x2000, [(256, 8)]⟩
  | .TM_LIFETIME => ⟨16, 21, 0x3000000, 0x100, []⟩
  | .TM_PORT_HOLD => ⟨16, 21, 0x3000000, 0x200, [(32, 4)]⟩
  | .TM_HOST_NODE => ⟨16, 21, 0x3000000, 0x300, [(2, 4)]⟩
  | .TM_INST_NODE => ⟨16, 21, 0x3000000, 0x1000, [(2052, 4)]⟩
  | .TM_RQ_QUEUE => ⟨16, 21, 0x3000000, 0x4000, [(2052, 4)]⟩
  | .TM_QPROF => ⟨16, 21, 0x3000000, 0x8000, [(64, 8)]⟩
  | .TM_WRED_PROF => ⟨16, 21, 0x3000000, 0x8200, [(64, 8)]⟩
  | .TM_NODE2 => ⟨16, 21, 0x3000000, 0x10000, [(512, 4)]⟩
  | .TM_NODE3 => ⟨16, 21, 0x3000000, 0x11000, [(4096, 4)]⟩
  | .TM_NODE4 => ⟨16, 21, 0x3000000, 0x18000, [(16384, 4)]⟩
  | .TM_SHAPE1 => ⟨16, 21, 0x3000000, 0x30000, [(64, 8)]⟩
  | .TM_SHAPE2 => ⟨16, 21, 0x3000000, 0x31000, [(512, 8)]⟩
  | .TM_SHAPE3 => ⟨16, 21, 0x3000000, 0x32000, [(4096, 8)]⟩
  | .TM_SHAPE4 => ⟨16, 21, 0x3000000, 0x40000, [(16384, 8)]⟩
  | .TM_SHAPE5 => ⟨16, 21, 0x3000000, 0x100000, [(131072, 8)]⟩
  | .TM_TOKENS1 => ⟨16, 21, 0x3000000, 0x430000, [(64, 8)]⟩
  | .TM_TOKENS2 => ⟨16, 21, 0x3000000, 0x431000, [(512, 8)]⟩
  | .TM_TOKENS3 => ⟨16, 21, 0x3000000, 0x432000, [(4096, 8)]⟩
  | .TM_TOKENS4 => ⟨16, 21, 0x3000000, 0x440000, [(16384, 8)]⟩
  | .TM_TOKENS5 => ⟨16, 21, 0x3000000, 0x500000, [(131072, 8)]⟩
  | .TM_Q_CFG => ⟨16, 21, 0x3000000, 0x200000, [(131072, 8)]⟩
  | .STATS_EPOCH_CTL => ⟨17, 21, 0x2900000, 0x100, []⟩
  | .STATS_EPOCH_SWITCH_DTB => ⟨17, 21, 0x2900000, 0x108, []⟩
  | .STATS_EPOCH_PERIOD => ⟨17, 21, 0x2900000, 0x110, []⟩
  | .TABLE_T1_CFG => ⟨23, 22, 0x4000000, 0x100, []⟩
  | .TABLE_REMOTE_CFG => ⟨23, 22, 0x4000000, 0x104, []⟩
  | .TABLE_SHARD_MAP => ⟨23, 22, 0x4000000, 0x400, [(256, 4)]⟩
  | .TABLE_BULK_BASE => ⟨23, 22, 0x4000000, 0x800, [(4, 8)]⟩
  | .TABLE_BULK_CFG => ⟨23, 22, 0x4000000, 0x820, [(4, 4)]⟩
  | .TABLE_BULK_PI => ⟨23, 22, 0x4000000, 0x830, [(4, 4)]⟩
  | .TABLE_BULK_CI => ⟨23, 22, 0x4000000, 0x840, [(4, 4)]⟩
  | .TABLE_BULK_STATUS => ⟨23, 22, 0x4000000, 0x850, [(4, 4)]⟩
  | .TABLE_NOTE_BASE => ⟨23, 22, 0x4000000, 0x860, [(4, 8)]⟩
  | .TABLE_NOTE_CFG => ⟨23, 22, 0x4000000, 0x880, [(4, 4)]⟩
  | .TABLE_NOTE_PI => ⟨23, 22, 0x4000000, 0x890, [(4, 4)]⟩
  | .TABLE_NOTE_CI => ⟨23, 22, 0x4000000, 0x8A0, [(4, 4)]⟩
  | .TABLE_DESC_CFG => ⟨23, 22, 0x4000000, 0x4000, [(1024, 8)]⟩
  | .TABLE_DESC_CAP => ⟨23, 22, 0x4000000, 0x6000, [(1024, 8)]⟩
  | .TABLE_DESC_SEQ => ⟨23, 22, 0x4000000, 0x8000, [(1024, 4)]⟩
  | .TABLE_AGE_CFG => ⟨23, 22, 0x4000000, 0x9000, [(1024, 4)]⟩
  | .TABLE_LEARN_CFG => ⟨23, 22, 0x4000000, 0xA000, [(1024, 4)]⟩
  | .CRYPTO_NOTE_BASE => ⟨25, 23, 0x4200000, 0x100, [(4, 8)]⟩
  | .CRYPTO_NOTE_CFG => ⟨25, 23, 0x4200000, 0x120, [(4, 4)]⟩
  | .CRYPTO_NOTE_PI => ⟨25, 23, 0x4200000, 0x130, [(4, 4)]⟩
  | .CRYPTO_NOTE_CI => ⟨25, 23, 0x4200000, 0x140, [(4, 4)]⟩
  | .STM_FW_STATUS => ⟨26, 24, 0x4300000, 0x100, []⟩
  | .MGT_SMB_CFG => ⟨27, 24, 0x4400000, 0x100, []⟩
  | .MGT_SMB_STATUS => ⟨27, 24, 0x4400000, 0x104, []⟩
  | .MGT_I2C_CFG => ⟨27, 24, 0x4400000, 0x110, [(4, 4)]⟩
  | .MGT_I2C_STATUS => ⟨27, 24, 0x4400000, 0x120, [(4, 4)]⟩
  | .MGT_ARB_LOG => ⟨27, 24, 0x4400000, 0x130, [(5, 4)]⟩
  | .MGT_MOD_MAP => ⟨27, 24, 0x4400000, 0x200, [(32, 4)]⟩
  | .MGT_MOD_STATUS => ⟨27, 24, 0x4400000, 0x280, [(32, 4)]⟩
  | .MGT_MOD_FLAGS => ⟨27, 24, 0x4400000, 0x300, [(32, 8)]⟩
  | .MGT_AVS_RAIL => ⟨27, 24, 0x4400000, 0x400, [(4, 4)]⟩
  | .MGT_AVS_READ => ⟨27, 24, 0x4400000, 0x410, [(4, 8)]⟩
  | .EYE_CTL => ⟨28, 24, 0x4500000, 0x100, []⟩
  | .EYE_THROT => ⟨28, 24, 0x4500000, 0x104, []⟩
  | .EYE_CH_CFG => ⟨28, 24, 0x4500000, 0x200, [(24, 4)]⟩
  | .EYE_THR => ⟨28, 24, 0x4500000, 0x280, [(24, 4)]⟩
  | .EYE_COND => ⟨28, 24, 0x4500000, 0x300, [(24, 4)]⟩
  | .EYE_LAST => ⟨28, 24, 0x4500000, 0x400, [(24, 8)]⟩
  | .EYE_GOOD => ⟨28, 24, 0x4500000, 0x500, [(24, 8)]⟩
  | .FCOL_STATUS => ⟨31, 25, 0x4800000, 0x100, []⟩
  | .FCOL_FPSW => ⟨31, 25, 0x4800000, 0x104, []⟩
  | .FCOL_LOCK => ⟨31, 25, 0x4800000, 0x108, []⟩
  | .FCOL_ACK => ⟨31, 25, 0x4800000, 0x10C, []⟩
  | .FCOL_LOG_PI => ⟨31, 25, 0x4800000, 0x110, []⟩
  | .FCOL_PART_ISO => ⟨31, 25, 0x4800000, 0x118, []⟩
  | .FCOL_ROUTER_ISO => ⟨31, 25, 0x4800000, 0x120, []⟩
  | .FCOL_PC_RETIRED => ⟨31, 25, 0x4800000, 0x128, []⟩
  | .FCOL_ACTION => ⟨31, 25, 0x4800000, 0x200, [(16, 4)]⟩
  | .GRP_CFG => ⟨32, 25, 0x4900000, 0x100, []⟩
  | .GRP_STATUS => ⟨32, 25, 0x4900000, 0x108, []⟩
  | .GRP_DIGEST => ⟨32, 25, 0x4900000, 0x110, []⟩
  | .GRP_LEADER_DIGEST => ⟨32, 25, 0x4900000, 0x118, []⟩
  | .GRP_TIME_OFFSET => ⟨32, 25, 0x4900000, 0x120, []⟩
  | .GRP_GQ_BASE => ⟨32, 25, 0x4900000, 0x130, [(3, 4)]⟩
  | .PWR_STATE => ⟨33, 25, 0x4A00000, 0x100, []⟩
  | .PWR_CTL => ⟨33, 25, 0x4A00000, 0x104, []⟩
  | .PWR_WAKE_CFG => ⟨33, 25, 0x4A00000, 0x108, []⟩
  | .PWR_PARK_CFG => ⟨33, 25, 0x4A00000, 0x10C, []⟩
  | .PWR_AVS_CFG => ⟨33, 25, 0x4A00000, 0x110, [(4, 4)]⟩
  | .PWR_AVS_STATUS => ⟨33, 25, 0x4A00000, 0x120, [(4, 4)]⟩
  | .TIME_DTB => ⟨34, 25, 0x4B00000, 0x100, []⟩
  | .TIME_STEP => ⟨34, 25, 0x4B00000, 0x108, []⟩
  | .TIME_ADJ => ⟨34, 25, 0x4B00000, 0x110, []⟩
  | .TIME_CTL => ⟨34, 25, 0x4B00000, 0x114, []⟩
  | .RST_STRAPS => ⟨35, 25, 0x4C00000, 0x100, []⟩
  | .RST_START => ⟨35, 25, 0x4C00000, 0x104, []⟩
  | .RST_WARM_CTL => ⟨35, 25, 0x4C00000, 0x108, []⟩
  | .RST_CHRY_STATUS => ⟨35, 25, 0x4C00000, 0x10C, []⟩
  | .RST_START_REF => ⟨35, 25, 0x4C00000, 0x110, []⟩
  | .RST_MILESTONE => ⟨35, 25, 0x4C00000, 0x140, [(8, 8)]⟩
  | .FUSE_STATUS => ⟨36, 25, 0x4D00000, 0x100, []⟩
  | .FUSE_ROLLBACK => ⟨36, 25, 0x4D00000, 0x104, []⟩
  | .FUSE_SENSE_TJ => ⟨36, 25, 0x4D00000, 0x108, []⟩
  | .FUSE_SENSE_DTB => ⟨36, 25, 0x4D00000, 0x110, []⟩
  | .FUSE_WORD_STATE => ⟨36, 25, 0x4D00000, 0x1000, [(512, 4)]⟩
  | .FUSE_VALUE => ⟨36, 25, 0x4D00000, 0x2000, [(512, 4)]⟩
  | .IDE_STREAM => ⟨14, 20, 0x1800000, 0x100, [(2, 32), (5, 4)]⟩
  | .HBM_PC_STATUS => ⟨19, 21, 0x2B00000, 0x100, [(64, 4)]⟩
  | .ROB_USED => ⟨20, 21, 0x2C00000, 0x100, []⟩
  | .TOK_POD_LOAD => ⟨22, 21, 0x2E00000, 0x100, [(16, 4)]⟩
  | .LU_STATUS => ⟨24, 22, 0x4100000, 0x100, [(8, 4)]⟩
  | .XSPI_STATUS => ⟨29, 24, 0x4600000, 0x100, []⟩
  | .CLK_PLL_STATUS => ⟨37, 25, 0x4E00000, 0x100, []⟩
  | .QE_LEDGER_BASE => ⟨6, 20, 0x2000000, 0x100, [(4, 64)]⟩
  | .QE_LEDGER_SIZE => ⟨6, 20, 0x2000000, 0x108, [(4, 64)]⟩
  | .QE_LEDGER_ACK => ⟨6, 20, 0x2000000, 0x110, [(4, 64)]⟩
  | .QE_LEDGER_STATUS => ⟨6, 20, 0x2000000, 0x118, [(4, 64)]⟩
  | .QE_LEDGER_SEQ => ⟨6, 20, 0x2000000, 0x120, [(4, 64)]⟩
  | .QE_INST_ARB => ⟨6, 20, 0x2000000, 0x1000, [(2052, 4)]⟩
  | .QE_QCTX_CFG => ⟨6, 20, 0x2000000, 0x100000, [(65536, 64)]⟩
  | .QE_QCTX_ARB => ⟨6, 20, 0x2000000, 0x100008, [(65536, 64)]⟩
  | .QE_QCTX_STATE => ⟨6, 20, 0x2000000, 0x100010, [(65536, 64)]⟩
  | .QE_QCTX_CTL => ⟨6, 20, 0x2000000, 0x100018, [(65536, 64)]⟩
  | .QE_QCTX_BASE => ⟨6, 20, 0x2000000, 0x100020, [(65536, 64)]⟩
  | .QE_QCTX_HWB => ⟨6, 20, 0x2000000, 0x100028, [(65536, 64)]⟩
  | .QE_QCTX_PI => ⟨6, 20, 0x2000000, 0x100030, [(65536, 64)]⟩
  | .QE_QCTX_CI => ⟨6, 20, 0x2000000, 0x100034, [(65536, 64)]⟩
  | .QE_QCTX_DONE => ⟨6, 20, 0x2000000, 0x100038, [(65536, 64)]⟩
  | .QE_CQCTX_BASE => ⟨6, 20, 0x2000000, 0x500000, [(32768, 32)]⟩
  | .QE_CQCTX_CFG => ⟨6, 20, 0x2000000, 0x500008, [(32768, 32)]⟩
  | .QE_CQCTX_FLAGS => ⟨6, 20, 0x2000000, 0x50000C, [(32768, 32)]⟩
  | .QE_CQCTX_STATE => ⟨6, 20, 0x2000000, 0x500010, [(32768, 32)]⟩
  | .QE_EQCTX_BASE => ⟨6, 20, 0x2000000, 0x600000, [(4096, 32)]⟩
  | .QE_EQCTX_CFG => ⟨6, 20, 0x2000000, 0x600008, [(4096, 32)]⟩
  | .QE_EQCTX_FLAGS => ⟨6, 20, 0x2000000, 0x60000C, [(4096, 32)]⟩
  | .QE_EQCTX_STATE => ⟨6, 20, 0x2000000, 0x600010, [(4096, 32)]⟩
  | .QE_QPAGE => ⟨6, 20, 0x2000000, 0x680020, [(2052, 512)]⟩
  | .QE_DB_LAST_REJECT => ⟨6, 20, 0x2000000, 0x680028, [(2052, 512)]⟩
  | .INST_PF_MODE => ⟨8, 20, 0x5000000, 0x100, [(4, 4)]⟩
  | .INST_EQUAL_NODE => ⟨8, 20, 0x5000000, 0x110, [(4, 4)]⟩
  | .INST_PF_ALLOT => ⟨8, 20, 0x5000000, 0x200, [(4, 128), (16, 8)]⟩
  | .INST_EQUAL_RSV => ⟨8, 20, 0x5000000, 0x400, [(4, 128), (16, 8)]⟩
  | .INST_STATE => ⟨8, 20, 0x5000000, 0x100100, [(2052, 512)]⟩
  | .INST_SUB_CFG => ⟨8, 20, 0x5000000, 0x100108, [(2052, 512)]⟩
  | .INST_INFLIGHT => ⟨8, 20, 0x5000000, 0x100110, [(2052, 512)]⟩
  | .INST_SUB_TOKENS => ⟨8, 20, 0x5000000, 0x100118, [(2052, 512)]⟩
  | .INST_RANGE => ⟨8, 20, 0x5000000, 0x100180, [(2052, 512), (16, 8)]⟩
  | .MBX_TX_MSG => ⟨9, 20, 0x5800000, 0x100040, [(2052, 512), (8, 8)]⟩
  | .MBX_TX_CFG => ⟨9, 20, 0x5800000, 0x100080, [(2052, 512)]⟩
  | .MBX_TX_CTL => ⟨9, 20, 0x5800000, 0x100088, [(2052, 512)]⟩
  | .MBX_TX_STATUS => ⟨9, 20, 0x5800000, 0x100090, [(2052, 512)]⟩
  | .MBX_RX_MSG => ⟨9, 20, 0x5800000, 0x1000C0, [(2052, 512), (8, 8)]⟩
  | .MBX_RX_INFO => ⟨9, 20, 0x5800000, 0x100100, [(2052, 512)]⟩
  | .MBX_RX_TAKE => ⟨9, 20, 0x5800000, 0x100108, [(2052, 512)]⟩
  | .MBX_SHM_BASE => ⟨9, 20, 0x5800000, 0x100110, [(2052, 512)]⟩
  | .MBX_SHM_CFG => ⟨9, 20, 0x5800000, 0x100118, [(2052, 512)]⟩
  | .MBX_T_TX_MSG => ⟨9, 20, 0x5800000, 0x201040, [(2052, 512), (8, 8)]⟩
  | .MBX_T_TX_CFG => ⟨9, 20, 0x5800000, 0x201080, [(2052, 512)]⟩
  | .MBX_T_TX_CTL => ⟨9, 20, 0x5800000, 0x201088, [(2052, 512)]⟩
  | .MBX_T_TX_STATUS => ⟨9, 20, 0x5800000, 0x201090, [(2052, 512)]⟩
  | .MBX_T_RX_MSG => ⟨9, 20, 0x5800000, 0x2010C0, [(2052, 512), (8, 8)]⟩
  | .MBX_T_RX_INFO => ⟨9, 20, 0x5800000, 0x201100, [(2052, 512)]⟩
  | .MBX_T_RX_TAKE => ⟨9, 20, 0x5800000, 0x201108, [(2052, 512)]⟩
  | .EVT_RAISED => ⟨10, 20, 0x5C00000, 0x100, [(48, 4)]⟩
  | .EVT_ROUTE => ⟨10, 20, 0x5C00000, 0x8000, [(1536, 8)]⟩
  | .EVT_VEC_MOD => ⟨10, 20, 0x5C00000, 0x10000, [(4, 8192), (2048, 4)]⟩
  | .EVT_IROUTE => ⟨10, 20, 0x5C00000, 0x100100, [(2052, 1024), (64, 4)]⟩
  | .EVT_VF_VEC_MOD => ⟨10, 20, 0x5C00000, 0x100200, [(2052, 1024), (64, 4)]⟩
  | .NVME_CONN_CFG => ⟨11, 20, 0x5400000, 0x100000, [(16384, 16)]⟩
  | .NVME_CONN_RESYNC => ⟨11, 20, 0x5400000, 0x100008, [(16384, 16)]⟩
  | .NVME_CPAGE => ⟨11, 20, 0x5400000, 0x200020, [(2052, 512)]⟩
  | .BLK_ID => ⟨0, 0, 0x0, 0x0, []⟩
  | .BLK_STATUS => ⟨0, 0, 0x0, 0x8, []⟩
  | .BLK_IGNORED => ⟨0, 0, 0x0, 0x10, []⟩
  | .BLK_LAST_ADDR => ⟨0, 0, 0x0, 0x18, []⟩

/-- The width of a register in bits. -/
def Reg.width : Reg → Nat
  | .NET_PORT_CFG => 64
  | .NET_PROFILE_CFG => 64
  | .NET_TXTS => 128
  | .DMA_CHAN_STATE => 64
  | .DMA_CHAN_STATUS_ADDR => 64
  | .BUF_MOULT_DTB => 64
  | .BUF_IAP_CFG => 64
  | .BUF_SLOT_STATE => 64
  | .TM_QPROF => 64
  | .TM_WRED_PROF => 64
  | .TM_SHAPE1 => 64
  | .TM_SHAPE2 => 64
  | .TM_SHAPE3 => 64
  | .TM_SHAPE4 => 64
  | .TM_SHAPE5 => 64
  | .TM_TOKENS1 => 64
  | .TM_TOKENS2 => 64
  | .TM_TOKENS3 => 64
  | .TM_TOKENS4 => 64
  | .TM_TOKENS5 => 64
  | .TM_Q_CFG => 64
  | .STATS_EPOCH_CTL => 64
  | .STATS_EPOCH_SWITCH_DTB => 64
  | .TABLE_BULK_BASE => 64
  | .TABLE_NOTE_BASE => 64
  | .TABLE_DESC_CFG => 64
  | .TABLE_DESC_CAP => 64
  | .CRYPTO_NOTE_BASE => 64
  | .MGT_MOD_FLAGS => 64
  | .MGT_AVS_READ => 64
  | .EYE_LAST => 64
  | .EYE_GOOD => 64
  | .FCOL_PART_ISO => 64
  | .FCOL_ROUTER_ISO => 64
  | .FCOL_PC_RETIRED => 64
  | .GRP_STATUS => 64
  | .GRP_DIGEST => 64
  | .GRP_LEADER_DIGEST => 64
  | .GRP_TIME_OFFSET => 64
  | .TIME_DTB => 64
  | .TIME_STEP => 64
  | .RST_START_REF => 64
  | .RST_MILESTONE => 64
  | .FUSE_SENSE_DTB => 64
  | .ROB_USED => 64
  | .QE_LEDGER_BASE => 64
  | .QE_QCTX_STATE => 64
  | .QE_QCTX_CTL => 64
  | .QE_QCTX_BASE => 64
  | .QE_QCTX_HWB => 64
  | .QE_CQCTX_BASE => 64
  | .QE_CQCTX_STATE => 64
  | .QE_EQCTX_BASE => 64
  | .QE_EQCTX_STATE => 64
  | .INST_PF_ALLOT => 64
  | .INST_EQUAL_RSV => 64
  | .INST_SUB_CFG => 64
  | .INST_INFLIGHT => 64
  | .INST_SUB_TOKENS => 64
  | .INST_RANGE => 64
  | .MBX_TX_MSG => 64
  | .MBX_RX_MSG => 64
  | .MBX_SHM_BASE => 64
  | .MBX_T_TX_MSG => 64
  | .MBX_T_RX_MSG => 64
  | .EVT_ROUTE => 64
  | .NVME_CONN_CFG => 64
  | .NVME_CONN_RESYNC => 64
  | _ => 32

/-- The lock bit that closes a register's RWL fields, in the same element (`self`), or in a named register. -/
def Reg.lockBit : Reg → Option (Reg × Nat)
  | .POD_SUPERVISOR => some (.POD_SUPERVISOR, 31)
  | .HOST_PORT_CFG => some (.HOST_PORT_CFG, 31)
  | .DMA_CHAN_CFG => some (.DMA_CHAN_CFG, 31)
  | .BUF_HBM_PARTITION => some (.BUF_HBM_PARTITION, 31)
  | .BUF_POOL_CFG => some (.BUF_ADM_LOCK, 0)
  | .BUF_IAP_CFG => some (.BUF_ADM_LOCK, 0)
  | .TM_HOST_NODE => some (.BUF_ADM_LOCK, 0)
  | .TABLE_T1_CFG => some (.TABLE_T1_CFG, 31)
  | .MGT_I2C_CFG => some (.MGT_I2C_CFG, 31)
  | .MGT_MOD_MAP => some (.MGT_I2C_CFG, 31)
  | .MGT_AVS_RAIL => some (.MGT_I2C_CFG, 31)
  | .EYE_THR => some (.EYE_CTL, 0)
  | .FCOL_ACTION => some (.FCOL_LOCK, 0)
  | .GRP_CFG => some (.GRP_CFG, 31)
  | .GRP_GQ_BASE => some (.GRP_CFG, 31)
  | .QE_LEDGER_BASE => some (.QE_LEDGER_STATUS, 1)
  | .QE_LEDGER_SIZE => some (.QE_LEDGER_STATUS, 1)
  | _ => none

/-- Every register, in the order of the map. -/
def Reg.all : List Reg :=
  [.POD_CORE_CTL, .POD_SUPERVISOR, .POD_PARK_CTL, .POD_CLK_CFG, .POD_CLK_STATUS, .POD_SUPV_EVT,
   .POD_SLOT_HANDLER, .NET_GROUP_CFG, .NET_TUN_UDP, .NET_SYNCE_CFG, .NET_PORT_CFG, .NET_PORT_STATUS,
   .NET_PORT_FC, .NET_TS_CORR, .NET_TXTS_PI, .NET_TXTS_CI, .NET_PROFILE_CFG, .NET_PROFILE_SEL,
   .NET_DSCP_MAP, .NET_LANE_CFG, .NET_LANE_STATUS, .NET_LANE_PRBS, .NET_LANE_MARGIN, .NET_EL_CFG,
   .NET_EL_STATUS, .NET_TXTS, .HOST_PORT_CFG, .HOST_PORT_STATUS, .DMA_CHAN_CFG, .DMA_CHAN_CTL,
   .DMA_CHAN_STATE, .DMA_CHAN_STATUS_ADDR, .DMA_INST_CHAN, .MIG_STATE, .BUF_HBM_PARTITION, .BUF_ADM_LOCK,
   .BUF_SPILL_CFG, .BUF_POOL_CFG, .BUF_ONCHIP_FREE, .BUF_DEEP_FREE_PAGES, .BUF_MOULT_DTB, .BUF_IAP_CFG,
   .BUF_SLOT_STATE, .TM_LIFETIME, .TM_PORT_HOLD, .TM_HOST_NODE, .TM_INST_NODE, .TM_RQ_QUEUE,
   .TM_QPROF, .TM_WRED_PROF, .TM_NODE2, .TM_NODE3, .TM_NODE4, .TM_SHAPE1,
   .TM_SHAPE2, .TM_SHAPE3, .TM_SHAPE4, .TM_SHAPE5, .TM_TOKENS1, .TM_TOKENS2,
   .TM_TOKENS3, .TM_TOKENS4, .TM_TOKENS5, .TM_Q_CFG, .STATS_EPOCH_CTL, .STATS_EPOCH_SWITCH_DTB,
   .STATS_EPOCH_PERIOD, .TABLE_T1_CFG, .TABLE_REMOTE_CFG, .TABLE_SHARD_MAP, .TABLE_BULK_BASE, .TABLE_BULK_CFG,
   .TABLE_BULK_PI, .TABLE_BULK_CI, .TABLE_BULK_STATUS, .TABLE_NOTE_BASE, .TABLE_NOTE_CFG, .TABLE_NOTE_PI,
   .TABLE_NOTE_CI, .TABLE_DESC_CFG, .TABLE_DESC_CAP, .TABLE_DESC_SEQ, .TABLE_AGE_CFG, .TABLE_LEARN_CFG,
   .CRYPTO_NOTE_BASE, .CRYPTO_NOTE_CFG, .CRYPTO_NOTE_PI, .CRYPTO_NOTE_CI, .STM_FW_STATUS, .MGT_SMB_CFG,
   .MGT_SMB_STATUS, .MGT_I2C_CFG, .MGT_I2C_STATUS, .MGT_ARB_LOG, .MGT_MOD_MAP, .MGT_MOD_STATUS,
   .MGT_MOD_FLAGS, .MGT_AVS_RAIL, .MGT_AVS_READ, .EYE_CTL, .EYE_THROT, .EYE_CH_CFG,
   .EYE_THR, .EYE_COND, .EYE_LAST, .EYE_GOOD, .FCOL_STATUS, .FCOL_FPSW] ++
  [.FCOL_LOCK, .FCOL_ACK, .FCOL_LOG_PI, .FCOL_PART_ISO, .FCOL_ROUTER_ISO, .FCOL_PC_RETIRED,
   .FCOL_ACTION, .GRP_CFG, .GRP_STATUS, .GRP_DIGEST, .GRP_LEADER_DIGEST, .GRP_TIME_OFFSET,
   .GRP_GQ_BASE, .PWR_STATE, .PWR_CTL, .PWR_WAKE_CFG, .PWR_PARK_CFG, .PWR_AVS_CFG,
   .PWR_AVS_STATUS, .TIME_DTB, .TIME_STEP, .TIME_ADJ, .TIME_CTL, .RST_STRAPS,
   .RST_START, .RST_WARM_CTL, .RST_CHRY_STATUS, .RST_START_REF, .RST_MILESTONE, .FUSE_STATUS,
   .FUSE_ROLLBACK, .FUSE_SENSE_TJ, .FUSE_SENSE_DTB, .FUSE_WORD_STATE, .FUSE_VALUE, .IDE_STREAM,
   .HBM_PC_STATUS, .ROB_USED, .TOK_POD_LOAD, .LU_STATUS, .XSPI_STATUS, .CLK_PLL_STATUS,
   .QE_LEDGER_BASE, .QE_LEDGER_SIZE, .QE_LEDGER_ACK, .QE_LEDGER_STATUS, .QE_LEDGER_SEQ, .QE_INST_ARB,
   .QE_QCTX_CFG, .QE_QCTX_ARB, .QE_QCTX_STATE, .QE_QCTX_CTL, .QE_QCTX_BASE, .QE_QCTX_HWB,
   .QE_QCTX_PI, .QE_QCTX_CI, .QE_QCTX_DONE, .QE_CQCTX_BASE, .QE_CQCTX_CFG, .QE_CQCTX_FLAGS,
   .QE_CQCTX_STATE, .QE_EQCTX_BASE, .QE_EQCTX_CFG, .QE_EQCTX_FLAGS, .QE_EQCTX_STATE, .QE_QPAGE,
   .QE_DB_LAST_REJECT, .INST_PF_MODE, .INST_EQUAL_NODE, .INST_PF_ALLOT, .INST_EQUAL_RSV, .INST_STATE,
   .INST_SUB_CFG, .INST_INFLIGHT, .INST_SUB_TOKENS, .INST_RANGE, .MBX_TX_MSG, .MBX_TX_CFG,
   .MBX_TX_CTL, .MBX_TX_STATUS, .MBX_RX_MSG, .MBX_RX_INFO, .MBX_RX_TAKE, .MBX_SHM_BASE,
   .MBX_SHM_CFG, .MBX_T_TX_MSG, .MBX_T_TX_CFG, .MBX_T_TX_CTL, .MBX_T_TX_STATUS, .MBX_T_RX_MSG,
   .MBX_T_RX_INFO, .MBX_T_RX_TAKE, .EVT_RAISED, .EVT_ROUTE, .EVT_VEC_MOD, .EVT_IROUTE,
   .EVT_VF_VEC_MOD, .NVME_CONN_CFG, .NVME_CONN_RESYNC, .NVME_CPAGE, .BLK_ID, .BLK_STATUS,
   .BLK_IGNORED, .BLK_LAST_ADDR]

/-- Where a counter lies (R648): counters of a region lie in the order listed, each on a 64-byte boundary, an element
taking 4 bytes (SAT16, SAT32), 8 (WRAP64, gauges) or 16 (banked). -/
def Ctr.place : Ctr → Place
  | .POD_PROG_FAULT_CNT => ⟨0, 0, 0x0, 0x400, [(16, 1048576), (256, 4)]⟩
  | .POD_NOTE_DROP => ⟨0, 0, 0x0, 0x158, [(16, 1048576)]⟩
  | .NET_RX_FRAMES => ⟨1, 16, 0x1000000, 0x4000, [(4, 1048576), (8, 128), (8, 16)]⟩
  | .NET_RX_BYTES => ⟨1, 16, 0x1000000, 0x4400, [(4, 1048576), (8, 128), (8, 16)]⟩
  | .NET_TX_FRAMES => ⟨1, 16, 0x1000000, 0x4800, [(4, 1048576), (8, 128), (8, 16)]⟩
  | .NET_TX_BYTES => ⟨1, 16, 0x1000000, 0x4C00, [(4, 1048576), (8, 128), (8, 16)]⟩
  | .NET_RX_OVERSIZE => ⟨1, 16, 0x1000000, 0x5000, [(4, 1048576), (8, 4)]⟩
  | .NET_RX_RUNT => ⟨1, 16, 0x1000000, 0x5040, [(4, 1048576), (8, 4)]⟩
  | .NET_RX_FCS => ⟨1, 16, 0x1000000, 0x5080, [(4, 1048576), (8, 4)]⟩
  | .NET_RX_FIFO => ⟨1, 16, 0x1000000, 0x50C0, [(4, 1048576), (8, 32), (8, 4)]⟩
  | .NET_RX_ADMIT => ⟨1, 16, 0x1000000, 0x51C0, [(4, 1048576), (8, 32), (8, 4)]⟩
  | .NET_RX_MACCTL => ⟨1, 16, 0x1000000, 0x52C0, [(4, 1048576), (8, 4)]⟩
  | .NET_RX_PAUSE => ⟨1, 16, 0x1000000, 0x5300, [(4, 1048576), (8, 32), (8, 4)]⟩
  | .NET_TX_PAUSE => ⟨1, 16, 0x1000000, 0x5400, [(4, 1048576), (8, 32), (8, 4)]⟩
  | .NET_PFC_STORM => ⟨1, 16, 0x1000000, 0x5500, [(4, 1048576), (8, 4)]⟩
  | .NET_TX_ABORT => ⟨1, 16, 0x1000000, 0x5540, [(4, 1048576), (8, 4)]⟩
  | .NET_TXTS_DROP => ⟨1, 16, 0x1000000, 0x5580, [(4, 1048576), (8, 4)]⟩
  | .NET_LOS_CNT => ⟨1, 16, 0x1000000, 0x55C0, [(4, 1048576), (12, 4)]⟩
  | .NET_CDR_LOSS => ⟨1, 16, 0x1000000, 0x5600, [(4, 1048576), (12, 4)]⟩
  | .NET_LOCK_FAIL => ⟨1, 16, 0x1000000, 0x5640, [(4, 1048576), (12, 4)]⟩
  | .NET_HIST_REJECT => ⟨1, 16, 0x1000000, 0x5680, [(4, 1048576), (12, 4)]⟩
  | .NET_SH_ERR => ⟨1, 16, 0x1000000, 0x56C0, [(4, 1048576), (12, 4)]⟩
  | .NET_PRBS_ERR => ⟨1, 16, 0x1000000, 0x5700, [(4, 1048576), (12, 4)]⟩
  | .NET_PRBS_BITS => ⟨1, 16, 0x1000000, 0x5740, [(4, 1048576), (12, 8)]⟩
  | .NET_FEC_CW_CORR => ⟨1, 16, 0x1000000, 0x57C0, [(4, 1048576), (8, 16)]⟩
  | .NET_FEC_SYM_CORR => ⟨1, 16, 0x1000000, 0x5840, [(4, 1048576), (8, 16)]⟩
  | .NET_FEC_CW_UNCORR => ⟨1, 16, 0x1000000, 0x58C0, [(4, 1048576), (8, 4)]⟩
  | .NET_EL_TX_MSG => ⟨1, 16, 0x1000000, 0x5900, [(4, 1048576)]⟩
  | .NET_EL_RX_MSG => ⟨1, 16, 0x1000000, 0x5940, [(4, 1048576)]⟩
  | .NET_EL_TX_BYTES => ⟨1, 16, 0x1000000, 0x5980, [(4, 1048576)]⟩
  | .NET_EL_RX_BYTES => ⟨1, 16, 0x1000000, 0x59C0, [(4, 1048576)]⟩
  | .NET_EL_CRC_ERR => ⟨1, 16, 0x1000000, 0x5A00, [(4, 1048576)]⟩
  | .NET_EL_CHK_ERR => ⟨1, 16, 0x1000000, 0x5A40, [(4, 1048576)]⟩
  | .NET_EL_BAD_BTYPE => ⟨1, 16, 0x1000000, 0x5A80, [(4, 1048576)]⟩
  | .NET_EL_REPLAY => ⟨1, 16, 0x1000000, 0x5AC0, [(4, 1048576)]⟩
  | .NET_EL_DUP => ⟨1, 16, 0x1000000, 0x5B00, [(4, 1048576)]⟩
  | .NET_EL_MAP_ERR => ⟨1, 16, 0x1000000, 0x5B40, [(4, 1048576)]⟩
  | .NET_EL_QUAL_FAIL => ⟨1, 16, 0x1000000, 0x5B80, [(4, 1048576)]⟩
  | .NET_EL_DOWN => ⟨1, 16, 0x1000000, 0x5BC0, [(4, 1048576)]⟩
  | .HOST_STALE_CPL => ⟨5, 20, 0x1400000, 0x1000, [(2, 4)]⟩
  | .HOST_CPL_TIMEOUT => ⟨5, 20, 0x1400000, 0x1040, [(2, 4)]⟩
  | .HOST_BAD_ACCESS => ⟨5, 20, 0x1400000, 0x1080, [(2, 4)]⟩
  | .HOST_POISON_RX => ⟨5, 20, 0x1400000, 0x10C0, [(2, 4)]⟩
  | .HOST_DETACH_CNT => ⟨5, 20, 0x1400000, 0x1100, [(2, 4)]⟩
  | .DMA_CHAN_WR_BYTES => ⟨7, 20, 0x1500000, 0x4000, [(64, 16)]⟩
  | .DMA_CHAN_RD_BYTES => ⟨7, 20, 0x1500000, 0x4400, [(64, 16)]⟩
  | .DMA_RD_ERR => ⟨7, 20, 0x1500000, 0x4800, [(64, 4)]⟩
  | .DMA_STALE_DROP => ⟨7, 20, 0x1500000, 0x4900, [(64, 4)]⟩
  | .DMA_WR_NO_INST => ⟨7, 20, 0x1500000, 0x4A00, []⟩
  | .DMA_WR_DATA_ERR => ⟨7, 20, 0x1500000, 0x4A40, []⟩
  | .DMA_ABORT_CNT => ⟨7, 20, 0x1500000, 0x4A80, [(64, 4)]⟩
  | .DMA_FLUSH_FAIL_CNT => ⟨7, 20, 0x1500000, 0x4B80, [(64, 4)]⟩
  | .HDRI_CSUM_SKIP => ⟨13, 20, 0x1700000, 0x100, []⟩
  | .HDRE_CSUM_SKIP => ⟨18, 21, 0x2A00000, 0x100, []⟩
  | .BUF_ACCEPT_CNT => ⟨15, 21, 0x2800000, 0x4000, [(2084, 16)]⟩
  | .BUF_INFLIGHT => ⟨15, 21, 0x2800000, 0xC240, [(2084, 16)]⟩
  | .BUF_DISP_CNT_PORT => ⟨15, 21, 0x2800000, 0x14480, [(32, 128), (8, 16)]⟩
  | .BUF_XOFF_CNT => ⟨15, 21, 0x2800000, 0x15480, [(32, 32), (8, 4)]⟩
  | .BUF_ADM_REORDER_FULL => ⟨15, 21, 0x2800000, 0x15880, []⟩
  | .BUF_EXPIRED_PRECOMMIT => ⟨15, 21, 0x2800000, 0x158C0, []⟩
  | .BUF_SPILL_BYTES => ⟨15, 21, 0x2800000, 0x15900, []⟩
  | .BUF_UNSPILL_BYTES => ⟨15, 21, 0x2800000, 0x15940, []⟩
  | .BUF_PROG_CNT => ⟨15, 21, 0x2800000, 0x80000, [(16384, 16)]⟩
  | .TM_Q_ENQ_BYTES => ⟨16, 21, 0x3000000, 0x800000, [(131072, 16)]⟩
  | .TM_Q_TX_BYTES => ⟨16, 21, 0x3000000, 0xA00000, [(131072, 16)]⟩
  | .TM_Q_LIMIT_DROP => ⟨16, 21, 0x3000000, 0xC00000, [(131072, 4)]⟩
  | .TM_Q_WRED_DROP => ⟨16, 21, 0x3000000, 0xC80000, [(131072, 4)]⟩
  | .TM_Q_DEEP_DROP => ⟨16, 21, 0x3000000, 0xD00000, [(131072, 4)]⟩
  | .TM_Q_EXPIRED => ⟨16, 21, 0x3000000, 0xD80000, [(131072, 4)]⟩
  | .TM_Q_HOLD_DROP => ⟨16, 21, 0x3000000, 0xE00000, [(131072, 4)]⟩
  | .TM_Q_DEEP_LOST => ⟨16, 21, 0x3000000, 0xE80000, [(131072, 4)]⟩
  | .STATS_LATE_UPDATES => ⟨17, 21, 0x2900000, 0x114, []⟩
  | .TABLE_LK_LOOKUPS => ⟨23, 22, 0x4000000, 0x10000, [(1024, 16)]⟩
  | .TABLE_LK_HITS => ⟨23, 22, 0x4000000, 0x14000, [(1024, 16)]⟩
  | .TABLE_LK_ERR => ⟨23, 22, 0x4000000, 0x18000, [(1024, 4)]⟩
  | .TABLE_T1_FILL_CNT => ⟨23, 22, 0x4000000, 0x19000, []⟩
  | .TABLE_FILL_VOID_CNT => ⟨23, 22, 0x4000000, 0x19040, []⟩
  | .TABLE_CAS_FAIL => ⟨23, 22, 0x4000000, 0x19080, []⟩
  | .TABLE_ATOMIC_MISS => ⟨23, 22, 0x4000000, 0x190C0, []⟩
  | .TABLE_REMOTE_FAIL_CNT => ⟨23, 22, 0x4000000, 0x19100, []⟩
  | .TABLE_TWR_FAIL => ⟨23, 22, 0x4000000, 0x19140, []⟩
  | .TABLE_CNT_MISS => ⟨23, 22, 0x4000000, 0x19180, []⟩
  | .TABLE_LEARN_SUPPRESSED => ⟨23, 22, 0x4000000, 0x191C0, []⟩
  | .TABLE_NOTE_DROP => ⟨23, 22, 0x4000000, 0x19200, [(4, 4)]⟩
  | .CRYPTO_CW_ERR => ⟨25, 23, 0x4200000, 0x4000, [(5, 4)]⟩
  | .CRYPTO_NOTE_DROP => ⟨25, 23, 0x4200000, 0x4040, [(4, 4)]⟩
  | .CRYPTO_TX_EXHAUSTED => ⟨25, 23, 0x4200000, 0x4080, [(32, 4)]⟩
  | .CRYPTO_TX_PROT_PKTS => ⟨25, 23, 0x4200000, 0x4100, [(32, 16)]⟩
  | .CRYPTO_TX_PROT_OCTETS => ⟨25, 23, 0x4200000, 0x4300, [(32, 16)]⟩
  | .CRYPTO_VERDICT_CNT => ⟨25, 23, 0x4200000, 0x4500, [(256, 16)]⟩
  | .CRYPTO_SAUP_DUP => ⟨25, 23, 0x4200000, 0x5500, []⟩
  | .CRYPTO_SAUP_LATE => ⟨25, 23, 0x4200000, 0x5540, []⟩
  | .CRYPTO_SAUP_NO_SA => ⟨25, 23, 0x4200000, 0x5580, []⟩
  | .STM_SEC_REFUSED => ⟨26, 24, 0x4300000, 0x104, []⟩
  | .MGT_ARB_LOST => ⟨27, 24, 0x4400000, 0x2000, [(5, 4)]⟩
  | .MGT_BUS_TMO => ⟨27, 24, 0x4400000, 0x2040, [(4, 4)]⟩
  | .MGT_BUS_RECOVER => ⟨27, 24, 0x4400000, 0x2080, [(4, 4)]⟩
  | .MGT_PAGE_RACE => ⟨27, 24, 0x4400000, 0x20C0, [(4, 4)]⟩
  | .MGT_SMB_PEC_ERR => ⟨27, 24, 0x4400000, 0x2100, []⟩
  | .MGT_MCTP_DROP => ⟨27, 24, 0x4400000, 0x2140, []⟩
  | .EYE_CROSS_CNT => ⟨28, 24, 0x4500000, 0x2000, [(24, 4)]⟩
  | .EYE_CLIP_CNT => ⟨28, 24, 0x4500000, 0x2080, [(24, 4)]⟩
  | .SWY_DROP_ABSENT => ⟨30, 24, 0x4700000, 0x100, []⟩
  | .FCOL_SUPPRESSED => ⟨31, 25, 0x4800000, 0x240, []⟩
  | .FCOL_LOG_LOST => ⟨31, 25, 0x4800000, 0x244, []⟩
  | .GRP_GBL_RX => ⟨32, 25, 0x4900000, 0x2000, []⟩
  | .GRP_GBL_CRC_ERR => ⟨32, 25, 0x4900000, 0x2040, []⟩
  | .GRP_GBL_EDGE => ⟨32, 25, 0x4900000, 0x2080, []⟩
  | .GRP_GBL_OVERRUN => ⟨32, 25, 0x4900000, 0x20C0, []⟩
  | .GRP_RENDEZVOUS_CNT => ⟨32, 25, 0x4900000, 0x2100, []⟩
  | .GRP_FWD_TX => ⟨32, 25, 0x4900000, 0x2140, [(4, 16)]⟩
  | .GRP_FWD_RX => ⟨32, 25, 0x4900000, 0x2180, [(4, 16)]⟩
  | .GRP_FWD_REFUSED => ⟨32, 25, 0x4900000, 0x21C0, [(4, 4)]⟩
  | .GRP_FWD_DUP => ⟨32, 25, 0x4900000, 0x2200, [(4, 4)]⟩
  | .GRP_FWD_HOLD_DROP => ⟨32, 25, 0x4900000, 0x2240, [(4, 4)]⟩
  | .RST_CHRY_FWD => ⟨35, 25, 0x4C00000, 0x180, []⟩
  | .RST_CHRY_UNFWD => ⟨35, 25, 0x4C00000, 0x188, []⟩
  | .QE_DB_REJECT => ⟨6, 20, 0x2000000, 0x680040, [(2052, 512)]⟩
  | .QE_Q_ERROR_CNT => ⟨6, 20, 0x2000000, 0x680044, [(2052, 512)]⟩
  | .QE_DESC_FETCHED => ⟨6, 20, 0x2000000, 0x680080, [(2052, 512)]⟩
  | .QE_DISP_CNT_INST => ⟨6, 20, 0x2000000, 0x680100, [(2052, 512), (8, 16)]⟩
  | .QE_CQ_FULL_CNT => ⟨6, 20, 0x2000000, 0x500018, [(32768, 32)]⟩
  | .QE_EQ_DROP => ⟨6, 20, 0x2000000, 0x600018, [(4096, 32)]⟩
  | .INST_DRAIN_FORCED => ⟨8, 20, 0x5000000, 0x600, [(4, 4)]⟩
  | .INST_VIEW_WRITE => ⟨8, 20, 0x5000000, 0x610, [(4, 4)]⟩
  | .MBX_POST_DROP => ⟨9, 20, 0x5800000, 0x100, []⟩
  | .MBX_SEND_BUSY => ⟨9, 20, 0x5800000, 0x100180, [(2052, 512)]⟩
  | .MBX_T_SEND_BUSY => ⟨9, 20, 0x5800000, 0x201180, [(2052, 512)]⟩
  | .NVME_PLACED_BYTES => ⟨11, 20, 0x5400000, 0x200100, [(2052, 512)]⟩
  | .NVME_HDGST_ERR => ⟨11, 20, 0x5400000, 0x200110, [(2052, 512)]⟩
  | .NVME_DDGST_ERR => ⟨11, 20, 0x5400000, 0x200114, [(2052, 512)]⟩
  | .NVME_FALLBACK_SEG => ⟨11, 20, 0x5400000, 0x200118, [(2052, 512)]⟩
  | .NVME_CID_MISS => ⟨11, 20, 0x5400000, 0x20011C, [(2052, 512)]⟩
  | .NVME_TX_UNSYNCED => ⟨11, 20, 0x5400000, 0x200120, [(2052, 512)]⟩
  | .CMT_DISCARDED => ⟨21, 21, 0x2D00000, 0x100, []⟩
  | .CMT_RESENT => ⟨21, 21, 0x2D00000, 0x108, []⟩

/-- The class of a counter (its counter table). -/
def Ctr.cls : Ctr → CtrClass
  | .NET_RX_FRAMES => .wrap64
  | .NET_RX_BYTES => .wrap64
  | .NET_TX_FRAMES => .wrap64
  | .NET_TX_BYTES => .wrap64
  | .NET_LOS_CNT => .sat16
  | .NET_CDR_LOSS => .sat16
  | .NET_LOCK_FAIL => .sat16
  | .NET_HIST_REJECT => .sat16
  | .NET_SH_ERR => .sat16
  | .NET_PRBS_BITS => .wrap64
  | .NET_FEC_CW_CORR => .wrap64
  | .NET_FEC_SYM_CORR => .wrap64
  | .NET_EL_TX_MSG => .wrap64
  | .NET_EL_RX_MSG => .wrap64
  | .NET_EL_TX_BYTES => .wrap64
  | .NET_EL_RX_BYTES => .wrap64
  | .NET_EL_MAP_ERR => .sat16
  | .NET_EL_QUAL_FAIL => .sat16
  | .NET_EL_DOWN => .sat16
  | .HOST_DETACH_CNT => .sat16
  | .DMA_CHAN_WR_BYTES => .wrap64
  | .DMA_CHAN_RD_BYTES => .wrap64
  | .DMA_ABORT_CNT => .sat16
  | .DMA_FLUSH_FAIL_CNT => .sat16
  | .BUF_ACCEPT_CNT => .wrap64
  | .BUF_INFLIGHT => .gauge
  | .BUF_DISP_CNT_PORT => .wrap64
  | .BUF_SPILL_BYTES => .wrap64
  | .BUF_UNSPILL_BYTES => .wrap64
  | .BUF_PROG_CNT => .wrap64
  | .TM_Q_ENQ_BYTES => .wrap64
  | .TM_Q_TX_BYTES => .wrap64
  | .TABLE_LK_LOOKUPS => .wrap64
  | .TABLE_LK_HITS => .wrap64
  | .TABLE_T1_FILL_CNT => .wrap64
  | .TABLE_FILL_VOID_CNT => .wrap64
  | .CRYPTO_TX_PROT_PKTS => .wrap64
  | .CRYPTO_TX_PROT_OCTETS => .wrap64
  | .CRYPTO_VERDICT_CNT => .wrap64
  | .MGT_BUS_TMO => .sat16
  | .MGT_BUS_RECOVER => .sat16
  | .MGT_PAGE_RACE => .sat16
  | .EYE_CROSS_CNT => .sat16
  | .EYE_CLIP_CNT => .sat16
  | .GRP_GBL_RX => .wrap64
  | .GRP_RENDEZVOUS_CNT => .sat16
  | .GRP_FWD_TX => .wrap64
  | .GRP_FWD_RX => .wrap64
  | .RST_CHRY_FWD => .wrap64
  | .QE_Q_ERROR_CNT => .sat16
  | .QE_DESC_FETCHED => .wrap64
  | .QE_DISP_CNT_INST => .wrap64
  | .MBX_SEND_BUSY => .sat16
  | .MBX_T_SEND_BUSY => .sat16
  | .NVME_PLACED_BYTES => .wrap64
  | .CMT_DISCARDED => .wrap64
  | .CMT_RESENT => .wrap64
  | _ => .sat32

/-- Whether a counter is banked (R80). -/
def Ctr.banked : Ctr → Bool
  | .NET_RX_FRAMES => true
  | .NET_RX_BYTES => true
  | .NET_TX_FRAMES => true
  | .NET_TX_BYTES => true
  | .NET_FEC_CW_CORR => true
  | .NET_FEC_SYM_CORR => true
  | .NET_EL_TX_MSG => true
  | .NET_EL_RX_MSG => true
  | .NET_EL_TX_BYTES => true
  | .NET_EL_RX_BYTES => true
  | .DMA_CHAN_WR_BYTES => true
  | .DMA_CHAN_RD_BYTES => true
  | .BUF_ACCEPT_CNT => true
  | .BUF_INFLIGHT => true
  | .BUF_DISP_CNT_PORT => true
  | .BUF_SPILL_BYTES => true
  | .BUF_UNSPILL_BYTES => true
  | .BUF_PROG_CNT => true
  | .TM_Q_ENQ_BYTES => true
  | .TM_Q_TX_BYTES => true
  | .TABLE_LK_LOOKUPS => true
  | .TABLE_LK_HITS => true
  | .TABLE_T1_FILL_CNT => true
  | .CRYPTO_TX_PROT_PKTS => true
  | .CRYPTO_TX_PROT_OCTETS => true
  | .CRYPTO_VERDICT_CNT => true
  | .GRP_FWD_TX => true
  | .GRP_FWD_RX => true
  | .QE_DESC_FETCHED => true
  | .QE_DISP_CNT_INST => true
  | .NVME_PLACED_BYTES => true
  | _ => false

/-- Every counter, in the order of the map. -/
def Ctr.all : List Ctr :=
  [.POD_PROG_FAULT_CNT, .POD_NOTE_DROP, .NET_RX_FRAMES, .NET_RX_BYTES, .NET_TX_FRAMES, .NET_TX_BYTES,
   .NET_RX_OVERSIZE, .NET_RX_RUNT, .NET_RX_FCS, .NET_RX_FIFO, .NET_RX_ADMIT, .NET_RX_MACCTL,
   .NET_RX_PAUSE, .NET_TX_PAUSE, .NET_PFC_STORM, .NET_TX_ABORT, .NET_TXTS_DROP, .NET_LOS_CNT,
   .NET_CDR_LOSS, .NET_LOCK_FAIL, .NET_HIST_REJECT, .NET_SH_ERR, .NET_PRBS_ERR, .NET_PRBS_BITS,
   .NET_FEC_CW_CORR, .NET_FEC_SYM_CORR, .NET_FEC_CW_UNCORR, .NET_EL_TX_MSG, .NET_EL_RX_MSG, .NET_EL_TX_BYTES,
   .NET_EL_RX_BYTES, .NET_EL_CRC_ERR, .NET_EL_CHK_ERR, .NET_EL_BAD_BTYPE, .NET_EL_REPLAY, .NET_EL_DUP,
   .NET_EL_MAP_ERR, .NET_EL_QUAL_FAIL, .NET_EL_DOWN, .HOST_STALE_CPL, .HOST_CPL_TIMEOUT, .HOST_BAD_ACCESS,
   .HOST_POISON_RX, .HOST_DETACH_CNT, .DMA_CHAN_WR_BYTES, .DMA_CHAN_RD_BYTES, .DMA_RD_ERR, .DMA_STALE_DROP,
   .DMA_WR_NO_INST, .DMA_WR_DATA_ERR, .DMA_ABORT_CNT, .DMA_FLUSH_FAIL_CNT, .HDRI_CSUM_SKIP, .HDRE_CSUM_SKIP,
   .BUF_ACCEPT_CNT, .BUF_INFLIGHT, .BUF_DISP_CNT_PORT, .BUF_XOFF_CNT, .BUF_ADM_REORDER_FULL, .BUF_EXPIRED_PRECOMMIT,
   .BUF_SPILL_BYTES, .BUF_UNSPILL_BYTES, .BUF_PROG_CNT, .TM_Q_ENQ_BYTES, .TM_Q_TX_BYTES, .TM_Q_LIMIT_DROP] ++
  [.TM_Q_WRED_DROP, .TM_Q_DEEP_DROP, .TM_Q_EXPIRED, .TM_Q_HOLD_DROP, .TM_Q_DEEP_LOST, .STATS_LATE_UPDATES,
   .TABLE_LK_LOOKUPS, .TABLE_LK_HITS, .TABLE_LK_ERR, .TABLE_T1_FILL_CNT, .TABLE_FILL_VOID_CNT, .TABLE_CAS_FAIL,
   .TABLE_ATOMIC_MISS, .TABLE_REMOTE_FAIL_CNT, .TABLE_TWR_FAIL, .TABLE_CNT_MISS, .TABLE_LEARN_SUPPRESSED, .TABLE_NOTE_DROP,
   .CRYPTO_CW_ERR, .CRYPTO_NOTE_DROP, .CRYPTO_TX_EXHAUSTED, .CRYPTO_TX_PROT_PKTS, .CRYPTO_TX_PROT_OCTETS, .CRYPTO_VERDICT_CNT,
   .CRYPTO_SAUP_DUP, .CRYPTO_SAUP_LATE, .CRYPTO_SAUP_NO_SA, .STM_SEC_REFUSED, .MGT_ARB_LOST, .MGT_BUS_TMO,
   .MGT_BUS_RECOVER, .MGT_PAGE_RACE, .MGT_SMB_PEC_ERR, .MGT_MCTP_DROP, .EYE_CROSS_CNT, .EYE_CLIP_CNT,
   .SWY_DROP_ABSENT, .FCOL_SUPPRESSED, .FCOL_LOG_LOST, .GRP_GBL_RX, .GRP_GBL_CRC_ERR, .GRP_GBL_EDGE,
   .GRP_GBL_OVERRUN, .GRP_RENDEZVOUS_CNT, .GRP_FWD_TX, .GRP_FWD_RX, .GRP_FWD_REFUSED, .GRP_FWD_DUP,
   .GRP_FWD_HOLD_DROP, .RST_CHRY_FWD, .RST_CHRY_UNFWD, .QE_DB_REJECT, .QE_Q_ERROR_CNT, .QE_DESC_FETCHED,
   .QE_DISP_CNT_INST, .QE_CQ_FULL_CNT, .QE_EQ_DROP, .INST_DRAIN_FORCED, .INST_VIEW_WRITE, .MBX_POST_DROP,
   .MBX_SEND_BUSY, .MBX_T_SEND_BUSY, .NVME_PLACED_BYTES, .NVME_HDGST_ERR, .NVME_DDGST_ERR, .NVME_FALLBACK_SEG,
   .NVME_CID_MISS, .NVME_TX_UNSYNCED, .CMT_DISCARDED, .CMT_RESENT]

/-- The counter event of a counter (R448): a device-scoped local index of its island, or an instance-scoped ID. -/
inductive CtrEvent where
  | dev (loc : Nat) | inst (id : Nat) | none
deriving DecidableEq, Repr

/-- The event source of each SAT counter (Tables 20-3 and 20-4 and the chapters named in R447). -/
def Ctr.event : Ctr → CtrEvent
  | .POD_PROG_FAULT_CNT => .dev 3
  | .POD_NOTE_DROP => .dev 4
  | .NET_RX_OVERSIZE => .dev 7
  | .NET_RX_RUNT => .dev 8
  | .NET_RX_FCS => .dev 9
  | .NET_RX_FIFO => .dev 10
  | .NET_RX_ADMIT => .dev 11
  | .NET_RX_MACCTL => .dev 12
  | .NET_RX_PAUSE => .dev 13
  | .NET_TX_PAUSE => .dev 14
  | .NET_PFC_STORM => .dev 15
  | .NET_TX_ABORT => .dev 16
  | .NET_TXTS_DROP => .dev 17
  | .NET_LOS_CNT => .dev 18
  | .NET_CDR_LOSS => .dev 19
  | .NET_LOCK_FAIL => .dev 20
  | .NET_HIST_REJECT => .dev 21
  | .NET_SH_ERR => .dev 22
  | .NET_PRBS_ERR => .dev 23
  | .NET_FEC_CW_UNCORR => .dev 24
  | .NET_EL_CRC_ERR => .dev 25
  | .NET_EL_CHK_ERR => .dev 26
  | .NET_EL_BAD_BTYPE => .dev 27
  | .NET_EL_REPLAY => .dev 28
  | .NET_EL_DUP => .dev 29
  | .NET_EL_MAP_ERR => .dev 30
  | .NET_EL_QUAL_FAIL => .dev 31
  | .NET_EL_DOWN => .dev 32
  | .HOST_STALE_CPL => .dev 1
  | .HOST_CPL_TIMEOUT => .dev 2
  | .HOST_BAD_ACCESS => .dev 3
  | .HOST_POISON_RX => .dev 4
  | .HOST_DETACH_CNT => .dev 5
  | .DMA_RD_ERR => .dev 8
  | .DMA_STALE_DROP => .dev 9
  | .DMA_WR_NO_INST => .dev 10
  | .DMA_WR_DATA_ERR => .dev 11
  | .DMA_ABORT_CNT => .dev 12
  | .DMA_FLUSH_FAIL_CNT => .dev 13
  | .HDRI_CSUM_SKIP => .dev 15
  | .HDRE_CSUM_SKIP => .dev 11
  | .BUF_XOFF_CNT => .dev 4
  | .BUF_ADM_REORDER_FULL => .dev 2
  | .BUF_EXPIRED_PRECOMMIT => .dev 3
  | .TM_Q_LIMIT_DROP => .dev 5
  | .TM_Q_WRED_DROP => .dev 6
  | .TM_Q_DEEP_DROP => .dev 7
  | .TM_Q_EXPIRED => .dev 8
  | .TM_Q_HOLD_DROP => .dev 9
  | .TM_Q_DEEP_LOST => .dev 10
  | .STATS_LATE_UPDATES => .dev 1
  | .TABLE_LK_ERR => .dev 0
  | .TABLE_CAS_FAIL => .dev 1
  | .TABLE_ATOMIC_MISS => .dev 2
  | .TABLE_REMOTE_FAIL_CNT => .dev 3
  | .TABLE_TWR_FAIL => .dev 4
  | .TABLE_CNT_MISS => .dev 5
  | .TABLE_NOTE_DROP => .inst 37
  | .CRYPTO_CW_ERR => .inst 39
  | .CRYPTO_NOTE_DROP => .inst 38
  | .CRYPTO_TX_EXHAUSTED => .dev 0
  | .CRYPTO_SAUP_DUP => .dev 1
  | .CRYPTO_SAUP_LATE => .dev 2
  | .CRYPTO_SAUP_NO_SA => .dev 3
  | .STM_SEC_REFUSED => .dev 0
  | .MGT_ARB_LOST => .dev 36
  | .MGT_BUS_TMO => .dev 39
  | .MGT_BUS_RECOVER => .dev 41
  | .MGT_PAGE_RACE => .dev 42
  | .MGT_SMB_PEC_ERR => .dev 37
  | .MGT_MCTP_DROP => .dev 38
  | .EYE_CROSS_CNT => .dev 11
  | .EYE_CLIP_CNT => .dev 12
  | .SWY_DROP_ABSENT => .dev 40
  | .FCOL_SUPPRESSED => .dev 32
  | .FCOL_LOG_LOST => .dev 33
  | .GRP_GBL_CRC_ERR => .dev 3
  | .GRP_GBL_EDGE => .dev 4
  | .GRP_GBL_OVERRUN => .dev 5
  | .GRP_RENDEZVOUS_CNT => .dev 6
  | .GRP_FWD_REFUSED => .dev 7
  | .GRP_FWD_DUP => .dev 8
  | .GRP_FWD_HOLD_DROP => .dev 9
  | .RST_CHRY_UNFWD => .dev 35
  | .QE_DB_REJECT => .inst 17
  | .QE_Q_ERROR_CNT => .inst 16
  | .QE_CQ_FULL_CNT => .inst 18
  | .QE_EQ_DROP => .inst 19
  | .INST_DRAIN_FORCED => .inst 40
  | .INST_VIEW_WRITE => .inst 41
  | .MBX_POST_DROP => .dev 14
  | .MBX_SEND_BUSY => .inst 15
  | .MBX_T_SEND_BUSY => .inst 15
  | .NVME_HDGST_ERR => .inst 10
  | .NVME_DDGST_ERR => .inst 11
  | .NVME_FALLBACK_SEG => .inst 12
  | .NVME_CID_MISS => .inst 13
  | .NVME_TX_UNSYNCED => .inst 14
  | _ => .none

/-- The PF BAR0 address of element `i` of a place, or none beyond its dimensions. -/
def Place.addr (p : Place) (i : Nat) : Option Nat := (dimOffset p.dims i).map (p.base + p.off + ·)

/-- The island that owns element `i`: the copy's own island for POD and NET blocks (R646). -/
def Place.island (p : Place) (i : Nat) : Nat :=
  match p.blk with
  | 0 => i / ((p.dims.drop 1).foldl (fun a d => a * d.1) 1)
  | 1 => 16 + i / ((p.dims.drop 1).foldl (fun a d => a * d.1) 1)
  | _ => p.isl

end Sys2Proof.Machine
end

