-- ==== Sys2Proof/Machine/Dev.lean ====
section
/-!
DEFINITION. The device: every register and counter, and the parts of the state behind them, one field per part.
-/
namespace Sys2Proof.Machine

/-- Everything the manual gives the device. -/
structure Dev where
  /-- The registers of Register Map, each at `Reg.key`, listed where they differ from their reset value. -/
  regs  : List (Nat × Nat) := []
  /-- The counters (open bank), each at `Ctr.key`, listed where not 0. -/
  ctrs  : Tbl Nat := {}
  /-- The closed bank of each banked counter (R80). -/
  closed : Tbl Nat := {}
  /-- The read and write half latches, by `latchKey` (R75, R76). -/
  rlatch : Tbl (Option HalfLatch) := {}
  wlatch : Tbl (Option HalfLatch) := {}
  epoch : Epoch := {}
  /-- The result windows, by `WinId.code`. -/
  wins  : Tbl Win := {}
  sys   : Sys := {}
  evq   : List EvtMsg := []
  ftq   : List FaultMsg := []
  out   : List Out := []
  /-- Threads, by pod × 128 + pod thread number. -/
  ths   : Tbl Thread := {}
  cores : Tbl CoreSched := {}
  pods  : Tbl Pod := {}
  /-- Shared LOCAL, a byte per pod × 2^20 + offset (R94). -/
  shl   : Tbl Nat := {}
  /-- Slot versions, by slot × 256 + version; table reference maps, by (slot × 256 + version) × 64 + TREF; the version that
  each slot was given last (R443). -/
  slots : Tbl (Option SlotVer) := {}
  trefs : Tbl TRef := {}
  lastVer : Tbl Nat := {}
  /-- Accepted items, by stamp. -/
  items : Tbl (Option Item) := {}
  cmsgs : List CMsg := []
  effq  : List EffReq := []
  /-- The (stamp, index) pairs that destinations have applied (R51). -/
  applied : List (Nat × Nat) := []
  buf   : Buf := {}
  tbl   : Tables := {}
  cry   : Crypto := {}
  /-- The SA directory of each pod (R292), by pod × 65536 + SA: 0 none or inbound, 1 outbound MACsec, 2 outbound ESP, 3
  retiring. -/
  saDir : Tbl Nat := {}
  hst   : HostSt := {}
  net   : Net := {}
  grp   : Grp := {}
  stw   : Stew := {}
  fc    : Fcol := {}
  pwr   : Pwr := {}
  eye   : Eye := {}
  mgt   : Mgt := {}
  gp    : GProto := {}
  gbl   : Gbl := {}
deriving DecidableEq, Repr, Inhabited

end Sys2Proof.Machine
end

