-- ==== Sys2Proof/Machine/Ops.lean ====
section
/-!
DEFINITION. The shared operations: reading and writing registers and their fields, counters, ignored accesses, raising
an event, sending a fault message, time, result windows, and what an island in reset does. Each of these is the one
place where its rule of Register Conventions (03), Events and Interrupts (20) or Fault Collection (21) is written.
-/
namespace Sys2Proof.Machine

/-- Bit `n` of `v`. -/
def bit (v n : Nat) : Bool := v.testBit n

/-- Bits `lo` to `lo + w - 1` of `v`. -/
def bits (v lo w : Nat) : Nat := v / 2 ^ lo % 2 ^ w

/-- `v` with bits `lo` to `lo + w - 1` replaced by the low bits of `x`. -/
def setBits (v lo w x : Nat) : Nat := v - bits v lo w * 2 ^ lo + x % 2 ^ w * 2 ^ lo

/-- A Bool as a bit. -/
def b2n (b : Bool) : Nat := if b then 1 else 0

/-- The key of element `i` of register `r`. -/
def Reg.key (r : Reg) (i : Nat) : Nat := i * 512 + r.ctorIdx

/-- The reset value of the register under a key. -/
def regDefault (k : Nat) : Nat := match Reg.all[k % 512]? with | some r => r.reset (k / 512) | none => 0

/-- The key of element `i` of counter `c`. -/
def Ctr.key (c : Ctr) (i : Nat) : Nat := i * 512 + c.ctorIdx

/-- The value of element `i` of register `r`. -/
def Dev.rd (d : Dev) (r : Reg) (i : Nat) : Nat := (cellGet d.regs (r.key i)).getD (r.reset i)

/-- Hardware writes element `i` of register `r`; the register keeps its width. -/
def Dev.wr (d : Dev) (r : Reg) (i v : Nat) : Dev :=
  { d with regs := cellSet (r.reset i) d.regs (r.key i) (v % 2 ^ r.width) }

/-- The value of a field of element `i`. -/
def Dev.get (d : Dev) (f : Fld) (i : Nat := 0) : Nat := bits (d.rd f.reg i) f.lo f.w

/-- Hardware writes a field of element `i`. -/
def Dev.put (d : Dev) (f : Fld) (i v : Nat) : Dev := d.wr f.reg i (setBits (d.rd f.reg i) f.lo f.w v)

/-- A one-bit field as a Bool. -/
def Dev.flag (d : Dev) (f : Fld) (i : Nat := 0) : Bool := d.get f i == 1

/-! ### Time -/

/-- The DTB in ns (R536). -/
def Dev.now (d : Dev) : Nat := d.sys.dtbFrac / 2 ^ 32

/-- The clock in which deadlines are kept (ns): the DTB less the steps of R539, so that a step moves every deadline. -/
def Dev.mono (d : Dev) : Nat := d.now - d.sys.steps

/-- Set the DTB of the AON island; TIME.DTB reads it (Table 24-6). -/
def Dev.setDtb (d : Dev) (frac : Nat) : Dev :=
  ({ d with sys := { d.sys with dtbFrac := frac } } : Dev).wr .TIME_DTB 0 (frac / 2 ^ 32)

/-- Time passes until the deadline clock reads at least `t`: what an event that ends a recorded interval says of the
DTB (notes/assumptions/6.md). -/
def Dev.reach (d : Dev) (t : Nat) : Dev := if d.mono < t then d.setDtb ((t + d.sys.steps) * 2 ^ 32) else d

/-! ### Islands -/

/-- Island `n` is powered and out of reset. -/
def Dev.isUp (d : Dev) (n : Nat) : Bool := !bit d.sys.islReset n

/-- `f` where island `n` is up; an island in reset or unpowered does nothing. -/
def Dev.onIsland (d : Dev) (n : Nat) (f : Dev → Dev) : Dev := if d.isUp n then f d else d

/-- The device is HALTED (R468). -/
def Dev.halted (d : Dev) : Bool := d.flag F.FCOL_STATUS_HALTED

/-- The device takes new work: it is not HALTED, and no WARM_RESET or entry to COCOON has stopped acceptance (R62, R468,
R523). -/
def Dev.accepts (d : Dev) : Bool := !d.halted && d.stw.start.ledgers.isNone && d.get F.PWR_STATE_STATE != 4

/-- The service switch has been made (R547). -/
def Dev.inService (d : Dev) : Bool := decide (10 ≤ d.stw.start.step)

/-- Something leaves the device. -/
def Dev.emit (d : Dev) (o : Out) : Dev := { d with out := d.out ++ [o] }

/-! ### Functions and instances -/

/-- PF `p` exists (R323): PF0 and PF1, and PF2 and PF3 where HOSTBIF is 1. -/
def Dev.pfExists (d : Dev) (p : Nat) : Bool := decide (p < if d.flag F.RST_STRAPS_HOSTBIF then 4 else 2)

/-- The VF allotment of PF `p` (R327). -/
def Dev.vfAllot (d : Dev) (p : Nat) : Nat :=
  if d.pfExists p then (match d.hst.allot with
    | [] => if d.flag F.RST_STRAPS_HOSTBIF then 512 else 1024
    | l => l.getD p 0) else 0

/-- The instance of VF 1 of PF `p` (R329). -/
def Dev.firstVf (d : Dev) (p : Nat) : Nat := 4 + ((List.range p).map d.vfAllot).foldl (· + ·) 0

/-- The PF that owns an instance (R329). -/
def Dev.pfOf (d : Dev) (inst : Nat) : Nat :=
  if inst < 4 then inst
  else ((List.range 4).find? fun p => decide (d.firstVf p ≤ inst ∧ inst < d.firstVf p + d.vfAllot p)).getD 0

/-- The host port of PF `p` (Table 14-1). -/
def Dev.portOfPf (d : Dev) (p : Nat) : Nat := if d.flag F.RST_STRAPS_HOSTBIF then p / 2 else 0

/-- The host port of an instance. -/
def Dev.hostPortOf (d : Dev) (inst : Nat) : Nat := d.portOfPf (d.pfOf inst)

/-- The current generation of an instance. -/
def Dev.gen (d : Dev) (inst : Nat) : Nat := d.get F.INST_STATE_GENERATION inst

/-- A function. -/
def Dev.fn (d : Dev) (inst : Nat) : Fn := d.hst.fns.get inst

/-- Store a function. -/
def Dev.setFn (d : Dev) (inst : Nat) (x : Fn) : Dev := { d with hst := { d.hst with fns := d.hst.fns.set inst x } }

/-! ### Events and faults -/

/-- A device-scoped raise of source `id` (R445): an EVT message towards the EVT block. -/
def Dev.raise (d : Dev) (id : Nat) (info16 info32 : Nat := 0) : Dev :=
  { d with evq := d.evq ++ [⟨id, 0, info16 % 2 ^ 16, info32 % 2 ^ 32, d.now, d.mono⟩] }

/-- The ID of local index `l` of island `n` (R445). -/
def evtId (n l : Nat) : Nat := 0x80 + 48 * n + l

/-- Raise local index `l` of island `n`. -/
def Dev.raiseLocal (d : Dev) (n l : Nat) (info16 info32 : Nat := 0) : Dev := d.raise (evtId n l) info16 info32

/-- An instance-scoped raise of source `id` for instance `i`. -/
def Dev.raiseInst (d : Dev) (id i : Nat) (info16 info32 : Nat := 0) : Dev :=
  { d with evq := d.evq ++ [⟨id, i, info16 % 2 ^ 16, info32 % 2 ^ 32, d.now, d.mono⟩] }

/-- STATE, LEADER and CURRENT of the group (Table 22-1, R503): a change sets CHANGE and raises GRP_CHANGE. -/
def Dev.grpSet (d : Dev) (st ld cur : Nat) : Dev :=
  if d.get F.GRP_STATUS_STATE = st ∧ d.get F.GRP_STATUS_LEADER = ld ∧ d.get F.GRP_STATUS_CURRENT = cur then d
  else
    let d := ((d.put F.GRP_STATUS_STATE 0 st).put F.GRP_STATUS_LEADER 0 ld).put F.GRP_STATUS_CURRENT 0 cur
    let d := d.put F.GRP_STATUS_CHANGE 0 1
    d.raiseLocal 25 0 (d.rd .GRP_STATUS 0) (d.get F.GRP_STATUS_EPOCH)

/-- BLOCK of a fault message (R457): the place, within its island (Table 31-1), of the block whose chapter owns the kind
(notes/assumptions/71.md). -/
def faultBlock (cls kind island : Nat) : Nat :=
  match island with
  | 20 => match cls, kind with
    | 4, 5 => 3
    | 4, 9 | 5, 6 => 2
    | 1, _ | 4, 10 | 5, 7 => 1
    | 9, _ => 1
    | 10, _ => 9
    | 15, _ => 2
    | _, _ => 0
  | 21 => match cls, kind with
    | 1, 7 | 0, 7 => 1
    | 3, 3 => 2
    | 0, 8 | 1, 8 | 1, 9 | 2, 11 => 4
    | 4, 3 | 4, 4 => 6
    | _, _ => 0
  | 22 => match cls, kind with
    | 1, 12 | 4, 8 | 5, 5 => 1
    | _, _ => 0
  | 24 => match cls, kind with
    | 2, _ => 4
    | 3, 9 | 3, 10 | 6, 5 | 6, 6 => 1
    | 6, _ | 7, _ => 2
    | 4, 11 => 3
    | _, _ => 0
  | 25 => match cls, kind with
    | 13, _ => 1
    | 6, _ => 2
    | 11, 6 | 11, 7 | 11, 8 => 3
    | 10, _ | 12, _ => 5
    | 11, _ => 6
    | _, _ => 0
  | _ => 0

/-- An island sends a fault message to the collector (R457). -/
def Dev.fault (d : Dev) (cls kind island : Nat) (unit : Nat := 0) (value : Nat := 0) (addr : Nat := 0)
    (block : Option Nat := none) : Dev :=
  { d with ftq := d.ftq ++ [⟨cls, kind, island, block.getD (faultBlock cls kind island), addr,
                             unit % 2 ^ 16 + value % 2 ^ 16 * 2 ^ 16, d.mono⟩] }

/-! ### Counters -/

/-- The largest value of a counter (Table 03-7). -/
def CtrClass.max : CtrClass → Nat
  | .wrap64 => 2 ^ 64 - 1
  | .sat32 => 2 ^ 32 - 1
  | .sat16 => 2 ^ 16 - 1
  | .gauge => 2 ^ 64 - 1

/-- The index of the header (R73) that a register or counter element belongs to: pod copies, blocks, and instances of
the per-instance blocks, whose instance areas hold one element (or inner array) per instance. -/
def Place.header (p : Place) (i : Nat) : Nat :=
  let inner := (p.dims.drop 1).foldl (fun a x => a * x.1) 1
  match p.blk with
  | 0 => i / inner
  | 1 => 16 + i / inner
  | b => match p.dims with
    | (n, st) :: _ => if n = 2052 && (st == 512 || st == 1024) then 64 + 4096 * b + i / inner else 15 + b
    | [] => 15 + b

/-- The block offset of an element, as BLK_LAST_ADDR and counter events give it: within one copy for POD and NET, within
the instance layout for an instance area. -/
def Place.blockOffset (p : Place) (i : Nat) : Nat :=
  let a := p.off + (dimOffset p.dims i).getD 0
  if p.header i < 64 then a % 0x1000000 % (if p.blk ≤ 1 then 0x100000 else 0x1000000)
  else match p.dims with
    | (_, st) :: _ => a % st
    | [] => a

/-- The block number of an element: NET copies are blocks 1 to 4 (Table 31-1). -/
def Place.blkNo (p : Place) (i : Nat) : Nat :=
  if p.blk = 1 then 1 + i / ((p.dims.drop 1).foldl (fun a x => a * x.1) 1) else p.blk

/-- The counter events (R448): INFO16 the block number, INFO32 the block offset. -/
def Dev.counterEvent (d : Dev) (c : Ctr) (i : Nat) : Dev :=
  let p := c.place
  match c.event with
  | .dev l =>
    -- CRYPTO.CW_ERR of the steward window is local 1 of island 24 (Table 20-4).
    d.raiseLocal (p.island i) l (p.blkNo i) (p.blockOffset i)
  | .inst id =>
    if c = .CRYPTO_CW_ERR ∧ i = 4 then d.raiseLocal 24 1 25 (p.blockOffset i)
    else
      let inst := match p.dims with
        | (2052, _) :: rest => i / (rest.foldl (fun a x => a * x.1) 1)
        | _ => i
      d.raiseInst id inst (p.blkNo i) (p.blockOffset i)
  | .none => d

/-- The value of a counter (open bank). -/
def Dev.cnt (d : Dev) (c : Ctr) (i : Nat := 0) : Nat := d.ctrs.get (c.key i)

/-- Software or hardware sets a counter. -/
def Dev.setCnt (d : Dev) (c : Ctr) (i v : Nat) : Dev := { d with ctrs := d.ctrs.set (c.key i) v }

/-- The ignored-access header of a register file element: BLK_IGNORED counts (SAT16, its event BLK_SAT), IGNORED and
LAST_CAUSE are set and BLK_LAST_ADDR records the offset (R72, R75, R79, R88, R190). -/
def Dev.ignoredAt (d : Dev) (hdr off cause : Nat) : Dev :=
  let n := d.get F.BLK_IGNORED_COUNT hdr
  let d := d.put F.BLK_STATUS_IGNORED hdr 1
  let d := d.put F.BLK_STATUS_LAST_CAUSE hdr cause
  let d := d.put F.BLK_LAST_ADDR_OFFSET hdr off
  if n = 0xFFFF then d
  else
    let d := d.put F.BLK_IGNORED_COUNT hdr (n + 1)
    if n + 1 = 0xFFFF then
      let d := d.put F.BLK_STATUS_SAT hdr 1
      if hdr < 64 then d.raiseLocal (if hdr < 16 then hdr else blkIsland (hdr - 15)) 47 (hdrBlk hdr) 0x10
      else d.raiseInst 0x3F (hdr % 4096 - 64) (hdrBlk hdr) 0x10
    else d

/-- An access to element `i` of `r` is ignored with a cause of Table 03-6. -/
def Dev.ignored (d : Dev) (r : Reg) (i cause : Nat) : Dev :=
  d.ignoredAt (r.place.header i) (r.place.blockOffset i) cause

/-- The causes of Table 03-6. -/
def cLOCKED : Nat := 1
def cLIMIT_DOWN : Nat := 2
def cWINDOW_HELD : Nat := 3
def cACK_MISMATCH : Nat := 4
def cBAD_ENUM : Nat := 5

/-- A counter increments by `n` (R77, R78): a WRAP64 counter wraps modulo 2^64 and sets WRAPPED; a SAT counter stops at
its maximum, sets SAT and raises its event once. A gauge is not counted but follows its quantity. -/
def Dev.count (d : Dev) (c : Ctr) (i : Nat := 0) (n : Nat := 1) : Dev :=
  let v := d.cnt c i
  let h := c.place.header i
  match c.cls with
  | .wrap64 =>
    let d := d.setCnt c i ((v + n) % 2 ^ 64)
    if v + n < 2 ^ 64 then d else d.put F.BLK_STATUS_WRAPPED h 1
  | .gauge => d.setCnt c i (v + n)
  | cl =>
    if v = cl.max then d
    else if v + n < cl.max then d.setCnt c i (v + n)
    else ((d.setCnt c i cl.max).put F.BLK_STATUS_SAT h 1).counterEvent c i

/-- A gauge falls by `n`. -/
def Dev.uncount (d : Dev) (c : Ctr) (i : Nat := 0) (n : Nat := 1) : Dev := d.setCnt c i (d.cnt c i - n)

/-! ### Result windows -/

/-- A result area made of words (byte offset, 64-bit value), the words that are 0 left out. -/
def winWords (l : List (Nat × Nat)) : List (Nat × Nat) := l.filter (fun w => w.2 != 0)

/-- The result window `w`. -/
def Dev.win (d : Dev) (w : WinId) : Win := d.wins.get w.code

/-- Change a result window. -/
def Dev.setWin (d : Dev) (w : WinId) (x : Win) : Dev := { d with wins := d.wins.set w.code x }

/-- A command is taken: STATE becomes BUSY (R86). -/
def Win.take (w : Win) : Win := { w with st := 1 }

/-- A command completes (R86): the whole result area is written, SEQ increments (never returning to 0) and STATE is
DONE, in one cycle. -/
def Win.complete (w : Win) (res : List (Nat × Nat)) : Win :=
  { w with st := 2, seq := if w.seq = 0xFFFF then 1 else w.seq + 1, res := winWords res }

/-- The command that a window holds completes with the given result area. -/
def Dev.winDone (d : Dev) (w : WinId) (res : List (Nat × Nat)) : Dev := d.setWin w ((d.win w).complete res)

/-- The command that a window holds stays outstanding: STATE is BUSY. -/
def Dev.winBusy (d : Dev) (w : WinId) : Dev := d.setWin w (d.win w).take

/-- A register write that has a row of its own: while the device is HALTED it is ignored with cause LOCKED (R468). -/
def Dev.byWrite (d : Dev) (r : Reg) (i : Nat) (f : Dev → Dev) : Dev := if d.halted then d.ignored r i cLOCKED else f d

/-- An access to a window is ignored with a cause, at the offset of the register concerned within the window. -/
def Dev.winIgnored (d : Dev) (w : WinId) (reg cause : Nat) : Dev := d.ignoredAt w.header (w.offset + reg) cause

/-- The steward mailboxes stay up while the device is HALTED (R468). -/
def WinId.survives : WinId → Bool
  | .stm _ => true
  | _ => false

/-- Submit a command (R86, R190): taken only while STATE is IDLE, otherwise ignored and counted with cause WINDOW_HELD.
A window of an island in reset is not reached. `f` is what the taken command does. -/
def Dev.submit (d : Dev) (w : WinId) (f : Dev → Dev) : Dev :=
  d.onIsland w.island fun d =>
    if d.halted && !w.survives then d.winIgnored w 0x10 cLOCKED
    else if (d.win w).st = 0 then f d else d.winIgnored w 0x10 cWINDOW_HELD

/-- The word of the result area at a byte offset. -/
def Win.word (w : Win) (off : Nat) : Nat := (cellGet w.res off).getD 0

end Sys2Proof.Machine
end

