-- ==== Sys2Proof/Machine/State.lean ====
section
/-!
DEFINITION. The state of the block: the device and the queue of commands that wait, first in, first out; the reasons a
step can stop; and the state after reset.
-/
namespace Sys2Proof.Machine

/-- The state: the device, the commands that wait (oldest first), and the window commands taken before RUN, with their windows, which stay
BUSY and run once RUN is entered (25, "When a window or mailbox command arrives before RUN"). -/
structure State where
  dev      : Dev := {}
  pending  : List Instr := []
  deferred : List (WinId × WinCmd) := []
deriving DecidableEq, Repr, Inhabited

/-- The faults: none. No event of the manual stops the device: every detector reports through the collector (R457), as part of a next
state, so no step ends in a fault. -/
inductive Fault where
deriving DecidableEq, Repr

/-- The refusals. -/
inductive Refusal where
  /-- Raised by the dispatch for a command that has no meaning yet. Safe: the model stops. -/
  | notModelled (mnemonic : String)
deriving DecidableEq, Repr

/-- The outcome of a command. -/
abbrev Res := Host.Outcome State Fault Refusal

/-- A command's effect on the device; the queue is not its concern. -/
def State.on (s : State) (f : Dev → Dev) : Res := .next { s with dev := f s.dev }

/-- A command submitted to INST.IW, a table access window, CRYPTO.CW, MIG.MW or GRP.GW: before milestone 7 it is taken and its window
stays BUSY; from RUN on it does `f`. A command that the window held before a reset cleared it is forgotten. -/
def State.window (s : State) (w : WinId) (c : WinCmd) (f : Dev → Dev) : Res :=
  if s.dev.stw.start.step < 12 ∧ s.dev.isUp w.island ∧ ¬ s.dev.halted ∧ (s.dev.win w).st = 0 then
    .next { s with dev := s.dev.winBusy w, deferred := s.deferred.filter (·.1 != w) ++ [(w, c)] }
  else s.on f

/-- The state right after reset: POR_N is deasserted with every strap 0 and the rails up (R542, R543), so every island is out of reset, the
fuse sense has begun, every register stands at its reset value and nothing waits. -/
def State.reset : State := { dev := { stw := { start := { sensing := true } } } }

end Sys2Proof.Machine
end

