-- ==== Sys2Proof/Machine/Clock.lean ====
section
/-!
DEFINITION. What happens when no command waits: an edge of the AON clock passes (R536, notes/assumptions/5.md), or a window command
taken before RUN runs (25, "When a window or mailbox command arrives before RUN").
-/
namespace Sys2Proof.Machine

/-- TIME.ADJ as a signed number of ppb (Table 24-6). -/
def Dev.adjPpb (d : Dev) : Int :=
  let v := d.rd .TIME_ADJ 0
  if v < 2 ^ 31 then (v : Int) else (v : Int) - 2 ^ 32

/-- The nominal period of the AON clock in units of 2^-32 ns: 40 ns of XTAL_AON, or 30,517.578125 ns of XTAL_32K in
COCOON (R536). -/
def Dev.edgePeriod (d : Dev) : Nat :=
  if d.get F.PWR_STATE_STATE = 1 then 30517578125 * 2 ^ 32 / 1000000 else 40 * 2 ^ 32

/-- One edge: the DTB advances by the period and its rate correction (R536, R537). It stands at 0 while POR_N is asserted. -/
def Dev.tick (d : Dev) : Dev :=
  if d.pwr.por || d.pwr.off then d
  else
  let p := d.edgePeriod
  let corr : Int := (p : Int) * d.adjPpb / 1000000000
  let dtb := ((d.sys.dtbFrac : Int) + p + corr).toNat
  d.setDtb dtb

/-- The window command taken before RUN that runs now, and the state it runs on: its window is IDLE until it takes it again. A window
that a reset has cleared since holds no command any more, and a HALTED device runs none (R468). -/
def State.due (s : State) : Option (WinCmd × State) :=
  match s.deferred with
  | [] => none
  | (w, c) :: t =>
    if 12 ≤ s.dev.stw.start.step ∧ ¬ s.dev.halted ∧ (s.dev.win w).st = 1 then
      some (c, { s with dev := s.dev.setWin w { s.dev.win w with st := 0 }, deferred := t })
    else none

/-- Nothing runs: the first deferred command is forgotten where its window no longer holds it; otherwise an edge passes. -/
def State.idle (s : State) : State :=
  match s.deferred with
  | [] => { s with dev := s.dev.tick }
  | (w, _) :: t => if (s.dev.win w).st = 1 then { s with dev := s.dev.tick } else { s with deferred := t }

end Sys2Proof.Machine
end

