-- ==== Sys2Proof/Config.lean ====
section
/-!
DEFINITION. What the manual leaves open, and the cryptographic functions of the standards it names, as constants without
a body: nothing can be proved of a value here that does not hold of every function.
-/
namespace Sys2Proof.Config

/-- Whether the L4 checksum at an offset of a copy is a UDP one (R312 names no header for it; notes/assumptions/20.md). -/
opaque l4IsUdp : List Nat → Nat → Bool

/-- `n` bytes of a function without a body: the results below have their standard's length, and no other property. -/
def bytesOf (n : Nat) (f : Nat → BitVec 8) : List Nat := (List.range n).map fun i => (f i).toNat

/-- AES-GCM of MACsec and ESP (R285): byte i of the protected bytes and ICV, from ICV length, key, nonce, AAD and plaintext. -/
opaque gcmSealByte : Nat → List Nat → List Nat → List Nat → List Nat → Nat → BitVec 8
def gcmSeal (icv : Nat) (key nonce aad pt : List Nat) : List Nat :=
  bytesOf (pt.length + icv) (gcmSealByte icv key nonce aad pt)

/-- AES-GCM opening of protected bytes with their ICV: whether the ICV holds, and byte i of the plaintext. -/
opaque gcmHolds : Nat → List Nat → List Nat → List Nat → List Nat → Bool
opaque gcmOpenByte : Nat → List Nat → List Nat → List Nat → List Nat → Nat → BitVec 8
def gcmOpen (icv : Nat) (key nonce aad ct : List Nat) : Option (List Nat) :=
  if gcmHolds icv key nonce aad ct then some (bytesOf (ct.length - icv) (gcmOpenByte icv key nonce aad ct)) else none

/-- Words 0 to 3 of a VERDICT result beside VSTATUS where VSTATUS is not OK (Table 12-9 gives no value), by item data,
request and word. -/
opaque verdictRest : List Nat → List Nat → Nat → Nat

/-- The source address of the flow-control frames of a port (the manual states none), by port. -/
opaque portMacByte : Nat → Nat → BitVec 8
def portMac (p : Nat) : List Nat := bytesOf 6 (portMacByte p)

/-- SHA-384: byte i of the digest. -/
opaque sha384Byte : List Nat → Nat → BitVec 8
def sha384 (b : List Nat) : List Nat := bytesOf 48 (sha384Byte b)

/-- RFC 3394 unwrap under a KEK: whether the integrity check holds, and byte i of the plaintext. -/
opaque kwHolds : List Nat → List Nat → Bool
opaque kwUnwrapByte : List Nat → List Nat → Nat → BitVec 8
def kwUnwrap (kek b : List Nat) : Option (List Nat) :=
  if kwHolds kek b then some (bytesOf (b.length - 8) (kwUnwrapByte kek b)) else none

/-- RFC 3394 wrap: byte i of the wrapped key. -/
opaque kwWrapByte : List Nat → List Nat → Nat → BitVec 8
def kwWrap (kek b : List Nat) : List Nat := bytesOf (b.length + 8) (kwWrapByte kek b)

/-- Verification of an ECDSA P-384 signature: key, message digest, signature. -/
opaque ecdsaVerify : List Nat → List Nat → List Nat → Bool

/-- The random draw of R279, 0 to 255 in units of 1/256, by draw number. -/
opaque draw : Nat → BitVec 8

/-- PART of a pseudo-channel in HBM.PC_STATUS (Table 31-6), by ACTIVE_GIB and channel: R28 interleaves both partitions over every
one. -/
opaque pcPart : Nat → Nat → Bool

/-- Which of the free indices of a table a new entry takes (the manual states no rule), by table and WRITE_SEQ. -/
opaque entryIndex : Nat → Nat → Nat

/-- The HBM lines that hold an entry's bytes (R166, R167), by table and index: the manual does not lay out the partition. -/
opaque entryLines : Nat → Nat → List Nat

/-- The set of the residency cache that holds a line, by line address and number of sets (R165 gives the sets and no
indexing). -/
opaque cacheSet : Nat → Nat → Nat

/-- An image of an older instar converted to a newer one (R428, R600): instars and image bytes. -/
opaque convertImage : Nat → Nat → List Nat → List Nat

/-- Which SA of the instance's range the k-th record of an SA section restores: the record does not name it (Table 18-6). -/
opaque saIndex : List Nat → Nat → Nat

/-- Which of the places that fit takes a program image's CODE or SHARED section (R593 names the bank, not the place), by the
ranges in use and the size. -/
opaque imagePlace : List (Nat × Nat) → Nat → Nat

/-- The order key and the class of an injected item (R444 gives neither), by its stamp. -/
opaque injectKey : Nat → BitVec 32
opaque injectClass : Nat → BitVec 3

/-- SHA-384 of the Bexdun provisioning key, held in boot ROM (R572). -/
opaque provisioningHashByte : Nat → BitVec 8
def provisioningHash : List Nat := bytesOf 48 provisioningHashByte

/-- The 7 check bits of the fuse code (26 Model gives a SEC-DED code and not its matrix), for data that is not 0. -/
opaque fuseEcc : Nat → Nat

/-- The safe default of a VF_TRIM or TRIM word as FUSE.VALUE shows it (Table 26-2 gives what it stands for, not its bits). -/
opaque trimDefault : Nat → Nat

/-- The pod whose memory a REPAIR word covers, none where it covers another instance (Table 26-2). -/
opaque repairPod : Nat → Option Nat

/-- The KIND that NO_RESOURCE reports for an invalid node (0), host-delivery queue (1) or DMA channel (2): Table 17-5 gives
none. -/
opaque shareKind : Nat → Nat

/-- The thread whose cycle of a core it is in ROTATE (R144) when a register write reaches it, by core and instant: the position of the
rotation at reset is not stated. -/
opaque cycleThread : Nat → Nat → Nat

/-- The rest of an SPDM response that DSP0274 lays out, where the manual says no more (nonces, key exchange data, signatures with the
Alias key), by response code, request and instant. -/
opaque spdmRest : Nat → List Nat → Nat → List Nat

/-- The certificate chain of SPDM slot 0 (R573), by the device's SERIAL words, the image's digest and its index. -/
opaque certChain : List Nat → List Nat → Nat → List Nat

/-- SHA-384 of the boot ROM of revision B1 (Table 26-8). -/
opaque bootRomDigestByte : Nat → BitVec 8
def bootRomDigest : List Nat := bytesOf 48 bootRomDigestByte

/-- Protection and opening of a secured message (DSP0276), by channel, instant and bytes: none where authentication fails. -/
opaque sessionSeal : Nat → Nat → List Nat → List Nat
opaque sessionOpen : Nat → List Nat → Option (List Nat)

/-- The endpoint UUID, by the SERIAL words, and the version entries that Get MCTP Version Support returns for a message type: the
manual gives neither. -/
opaque endpointUuidByte : List Nat → Nat → BitVec 8
def endpointUuid (serial : List Nat) : List Nat := bytesOf 16 (endpointUuidByte serial)
opaque mctpVersions : Nat → List Nat

/-- The 32 bytes that LOG_READ returns for a SEQ that no entry holds (Table 23-3 gives none). -/
opaque noLogEntryByte : Nat → Nat → BitVec 8
def noLogEntry (seq : Nat) : List Nat := bytesOf 32 (noLogEntryByte seq)

/-- The voltage in mV that the VF_TRIM points of a pod require for a frequency in MHz, and the frequency they give for a voltage: the
format of the points is not stated (R534, R535). -/
opaque vfTrim : List Nat → Nat → Nat
opaque vfFreq : List Nat → Nat → Nat

/-- A persistent record of an older instar converted to a newer one by the MIGRATE section (R587), by instars, TYPE and data. -/
opaque convertRecord : Nat → Nat → Nat → List Nat → List Nat

end Sys2Proof.Config
end

