-- ==== Sys2Proof/Machine/Bytes.lean ====
section
/-!
DEFINITION. Byte strings as lists of numbers below 256, little-endian and big-endian, and CRC32C.
-/
namespace Sys2Proof.Machine

/-- The value of bytes, least significant first. -/
def leNat : List Nat → Nat
  | [] => 0
  | b :: t => b % 256 + 256 * leNat t

/-- The value of bytes, most significant first. -/
def beNat (l : List Nat) : Nat := leNat l.reverse

/-- `k` bytes of `v`, least significant first. -/
def toLe (k v : Nat) : List Nat := (List.range k).map fun i => v / 256 ^ i % 256

/-- `k` bytes of `v`, most significant first. -/
def toBe (k v : Nat) : List Nat := (toLe k v).reverse

/-- Bytes `[off, off + len)` of a string, 0 beyond its end. -/
def slice (l : List Nat) (off len : Nat) : List Nat :=
  let x := (l.drop off).take len
  x ++ List.replicate (len - x.length) 0

/-- Replace the bytes of `l` from `off` on by `x`, `l` keeping its length. -/
def splice (l : List Nat) (off : Nat) (x : List Nat) : List Nat :=
  l.take off ++ x.take (l.length - off) ++ l.drop (off + x.length)

/-- `x` put into a list in ascending order of `key`, behind its equals. -/
def insBy {α : Type} (key : α → Nat) (x : α) : List α → List α
  | [] => [x]
  | y :: t => if key x < key y then x :: y :: t else y :: insBy key x t

/-- A list in ascending order of `key`, equals in their order. -/
def sortBy {α : Type} (key : α → Nat) (l : List α) : List α := l.foldl (fun a x => insBy key x a) []

/-- One bit of the reflected CRC32C division (polynomial 0x82F6_3B78, R125). -/
def crcBit (c : Nat) : Nat := if c % 2 = 1 then Nat.xor (c / 2) 0x82F63B78 else c / 2

/-- A CRC32C update with one byte. -/
def crcByte (c b : Nat) : Nat :=
  crcBit (crcBit (crcBit (crcBit (crcBit (crcBit (crcBit (crcBit (Nat.xor c (b % 256)))))))))

/-- A CRC32C update with bytes, first byte first. -/
def crcBytes (c : Nat) (l : List Nat) : Nat := l.foldl crcByte c

/-- The CRC32C of a string: seeded with all ones and inverted (R125). -/
def crc32c (l : List Nat) : Nat := Nat.xor (crcBytes 0xFFFFFFFF l) 0xFFFFFFFF

/-- `ceil(a / b)`. -/
def ceilDiv (a b : Nat) : Nat := (a + b - 1) / b

/-- A two's complement number of `w` bits as a signed one. -/
def signed (w v : Nat) : Int := if v % 2 ^ w < 2 ^ (w - 1) then (v % 2 ^ w : Int) else (v % 2 ^ w : Int) - 2 ^ w

/-- A signed number in two's complement of `w` bits. -/
def unsigned (w : Nat) (v : Int) : Nat := (v % (2 : Int) ^ w).toNat

end Sys2Proof.Machine
end

