-- ==== Sys2Proof/Machine/Threads.lean ====
section
/-!
DEFINITION. Threads (06): who may issue, the start state, ending an attempt, traps, double faults and fault notes.
-/
namespace Sys2Proof.Machine

/-- The thread. -/
def Dev.th (d : Dev) (th : Nat) : Thread := d.ths.get th

/-- Store a thread. -/
def Dev.setTh (d : Dev) (th : Nat) (t : Thread) : Dev := { d with ths := d.ths.set th t }

/-- The pod. -/
def Dev.pod (d : Dev) (p : Nat) : Pod := d.pods.get p

/-- Store a pod. -/
def Dev.setPod (d : Dev) (p : Nat) (x : Pod) : Dev := { d with pods := d.pods.set p x }

/-- The thread is its pod's supervisor. -/
def Dev.isSup (d : Dev) (th : Nat) : Bool := (d.pod (th / 128)).sup == th % 128

/-- THREAD_EN of a thread (Table 06-2); the supervisor's bit is ignored. -/
def Dev.threadEn (d : Dev) (th : Nat) : Bool := bit (d.get F.POD_CORE_CTL_THREAD_EN (th / 8)) (th % 8)

/-- The state of a worker that has no attempt: FREE, or DISABLED where its THREAD_EN bit is 0 (R143). -/
def Dev.idleState (d : Dev) (th : Nat) : ThSt := if d.threadEn th then .free else .disabled

/-- The pod of a thread runs: it is up and not PARKED or WAKING (R162). -/
def Dev.podRuns (d : Dev) (p : Nat) : Bool := d.isUp p && d.get F.POD_PARK_CTL_STATE p < 2

/-- An item by its stamp. -/
def Dev.item (d : Dev) (st : Nat) : Option Item := d.items.get st

/-- Store an item. -/
def Dev.setItem (d : Dev) (st : Nat) (x : Item) : Dev := { d with items := d.items.set st (some x) }

/-- The item that a thread's attempt serves. -/
def Dev.itemOf (d : Dev) (t : Thread) : Item := ((t.stamp.bind d.item).getD {})

/-- The value of a general register: g0 reads as 0 (Table 04-1). -/
def Thread.rg (t : Thread) (n : Fin 32) : Word := if n.val = 0 then 0#64 else t.g.get n.val

/-- Write a general register; a write to g0 is discarded (R90). -/
def Thread.wg (t : Thread) (n : Fin 32) (v : Word) : Thread := if n.val = 0 then t else { t with g := t.g.set n.val v }

/-- A predicate: p0 reads as 1. -/
def Thread.rp (t : Thread) (n : Fin 8) : Bool := n.val == 0 || bit t.p n.val

/-- Write a predicate; a write to p0 is discarded. -/
def Thread.wp (t : Thread) (n : Fin 8) (v : Bool) : Thread :=
  if n.val = 0 then t else { t with p := setBits t.p n.val 1 (b2n v) }

/-- A ticket of a thread. -/
def Thread.tk (t : Thread) (k : Fin 8) : Ticket := t.tks.get k.val

/-- Store a ticket. -/
def Thread.setTk (t : Thread) (k : Fin 8) (x : Ticket) : Thread := { t with tks := t.tks.set k.val x }

/-! ### The work token and the packet space -/

/-- The eight words of a work token (Table 04-4). -/
def Token.words (t : Token) : List Nat :=
  [t.seq % 2 ^ 32,
   t.seq / 2 ^ 32 % 2 ^ 13 + t.source % 8 * 2 ^ 13 + t.inst % 2 ^ 12 * 2 ^ 16,
   t.okey % 2 ^ 32,
   t.gen % 2 ^ 12 + t.slot % 256 * 2 ^ 12 + t.ver % 256 * 2 ^ 20 + b2n t.replay * 2 ^ 28,
   t.len % 2 ^ 14 + t.head % 512 * 2 ^ 14 + t.prof % 16 * 2 ^ 23 + t.port % 32 * 2 ^ 27,
   t.handle % 2 ^ 32,
   t.queue % 2 ^ 16 + t.index % 2 ^ 16 * 2 ^ 16,
   t.rxts % 2 ^ 32]

/-- One byte of the PKT space (Table 04-3). -/
def Item.pktByte (x : Item) (a : Nat) : Nat :=
  if a < 0x100 then (if a < x.tok.head then x.data.getD a 0 else 0)
  else if a < 0x120 then (x.tok.words.getD ((a - 0x100) / 4) 0) / 256 ^ (a % 4) % 256
  else if a < 0x140 then x.parse.getD (a - 0x120) 0
  else 0

/-! ### The issue slot of a core (R143 to R146) -/

/-- The thread is ready: its pod runs, it is BOUND or TRAPPED or the supervisor, it is awake, its deadline has not passed (R111), and
the machine has not halted (06 Model, R468). -/
def Dev.ready (d : Dev) (th : Nat) : Bool :=
  let t := d.th th
  d.podRuns (th / 128) && (t.st == .bound || t.st == .trapped) && t.sleep == .awake &&
    (match t.deadline with | some x => decide (d.mono ≤ x) | none => true)

/-- The first ready thread of core `c` after its thread `o` (R145). -/
def Dev.nextReady (d : Dev) (c o : Nat) : Option Nat :=
  ((List.range 8).find? fun k => d.ready (c * 8 + (o + 1 + k) % 8)).map fun k => (o + 1 + k) % 8

/-- The thread that has the slot of a STALLSWITCH core: the woken thread that took it, while that is ready; else the quantum owner,
while that is ready; else the first ready thread after the owner (R145, R146). -/
def Dev.slotOf (d : Dev) (c : Nat) : Nat :=
  let x := d.cores.get c
  let own := if d.ready (c * 8 + x.owner) then x.owner else (d.nextReady c x.owner).getD x.owner
  match x.borrow with
  | some b => if d.ready (c * 8 + b) then b else own
  | none => own

/-- In ROTATE mode every ready thread has its cycles (R144), in STALLSWITCH mode one thread has the slot. -/
def Dev.hasSlot (d : Dev) (th : Nat) : Bool :=
  d.get F.POD_CORE_CTL_MODE (th / 8) == 0 || d.slotOf (th / 8) == th % 8

/-- A thread of core `c` has ceased or begun to be ready (R145, R146): a slot whose taker is not ready goes back to the quantum owner,
and the quantum of an owner that is not ready ends. -/
def Dev.settleSlot (d : Dev) (c : Nat) : Dev :=
  let x := d.cores.get c
  let taken := match x.borrow with | some b => d.ready (c * 8 + b) | none => false
  if d.get F.POD_CORE_CTL_MODE c == 0 || taken then d
  else if d.ready (c * 8 + x.owner) then { d with cores := d.cores.set c { x with borrow := none } }
  else match d.nextReady c x.owner with
    | some k => { d with cores := d.cores.set c { owner := k, borrow := none } }
    | none => d

/-! ### Starting and ending an attempt -/

/-- The start state of R91. -/
def startThread (tok : Token) (v : SlotVer) (now : Nat) : Thread :=
  let t : Thread :=
    { st := .bound, pc := v.entry, code := v.code, base := v.base, bank := v.bank, stamp := some tok.stamp,
      slot := tok.slot, bound := now, deadline := some (now + v.budget), tcmp := 2 ^ 64 - 1 }
  let t := t.wg 1 (BitVec.ofNat 64 tok.handle)
  let t := t.wg 2 (BitVec.ofNat 64 tok.len)
  let t := t.wg 3 (BitVec.ofNat 64 tok.inst)
  let t := t.wg 4 (BitVec.ofNat 64 tok.okey)
  let t := t.wg 5 (BitVec.ofNat 64 (tok.words.getD 6 0))
  let t := t.wg 28 (BitVec.ofNat 64 v.shared)
  t.wg 30 0x2000#64

/-- The start state of a supervisor (R157): R91 with no token. -/
def startSup (entry code : Nat) : Thread :=
  ({ st := .bound, pc := entry, code := code, tcmp := 2 ^ 64 - 1 } : Thread).wg 30 0x2000#64

/-- The commit messages of a batch (R50, R105): one message for up to 16 records, two otherwise; the last is FINAL. -/
def batchMsgs (tok : Token) (pod : Nat) (effs : List Eff) (sent : Nat) : List CMsg :=
  if effs.length ≤ 16 then [⟨tok.stamp, tok.replay, tok.gen, pod, effs, true, sent⟩]
  else [⟨tok.stamp, tok.replay, tok.gen, pod, effs.take 16, false, sent⟩,
        ⟨tok.stamp, tok.replay, tok.gen, pod, effs.drop 16, true, sent⟩]

/-- The attempt of thread `th` ends (R92, R105): pending tickets are cancelled, the batch of `effs` is sent, and the
thread takes state `st` with nothing kept; its quantum ends (R145). -/
def Dev.endAttempt (d : Dev) (th : Nat) (effs : List Eff) (st : ThSt) : Dev :=
  let t := d.th th
  let d := match t.stamp.bind d.item with
    | some x => { d with cmsgs := d.cmsgs ++ batchMsgs x.tok (th / 128) effs d.mono }
    | none => d
  (d.setTh th { st := st }).settleSlot (th / 8)

/-! ### Fault notes, traps and double faults -/

/-- A fault note (Table 06-8). -/
def Dev.mkNote (d : Dev) (th kind : Nat) (double escalated noHandler : Bool) (faddr first : Nat) : List Nat :=
  let t := d.th th
  let x := d.itemOf t
  let notify := d.get F.POD_CORE_CTL_FAULT_MODE (th / 8)
  [kind % 256 + th % 128 * 2 ^ 8 + b2n double * 2 ^ 15 + b2n escalated * 2 ^ 16 + notify * 2 ^ 17
     + b2n noHandler * 2 ^ 18 + b2n x.tok.replay * 2 ^ 19 + x.tok.slot % 256 * 2 ^ 20,
   faddr % 2 ^ 32,
   x.tok.seq % 2 ^ 32,
   x.tok.seq / 2 ^ 32 % 2 ^ 13 + x.tok.source % 8 * 2 ^ 13 + x.tok.inst % 2 ^ 12 * 2 ^ 16,
   x.tok.gen % 2 ^ 12 + x.tok.ver % 256 * 2 ^ 12 + t.effs.length * 2 ^ 20,
   first % 256,
   d.now % 2 ^ 32,
   d.now / 2 ^ 32 % 2 ^ 32]

/-- Queue a fault note (R158): a note that finds 64 notes is dropped, counted and its event raised; a note that is
queued wakes the supervisor (R157). -/
def Dev.queueNote (d : Dev) (p : Nat) (n : List Nat) : Dev :=
  let x := d.pod p
  if x.notes.length ≥ 64 then (d.count .POD_NOTE_DROP p).raiseLocal p 1 0 d.now
  else
    let d := d.setPod p { x with notes := x.notes ++ [n] }
    let s := p * 128 + x.sup
    d.setTh s { d.th s with wake := true }

/-- A fault kind is counted and reported through the pod's PROGRAM_FAULT source (R122, Table 20-4). -/
def Dev.countProg (d : Dev) (th kind faddr : Nat) : Dev :=
  (d.count .POD_PROG_FAULT_CNT (th / 128 * 256 + kind)).raiseLocal (th / 128) 0 (kind % 256 + th % 128 * 2 ^ 8) faddr

/-- A PROGRAM-class fault message (R458): ADDR is the stamp and DETAIL word 0 of the note. -/
def Dev.progFault (d : Dev) (th kind : Nat) (note : List Nat) : Dev :=
  let tok := (d.itemOf (d.th th)).tok
  { d with ftq := d.ftq ++ [⟨8, kind, th / 128, 0, tok.seq + tok.source * 2 ^ 45, note.getD 0 0, d.mono⟩] }

/-- A double fault (R156): an empty batch, HALTED, both kinds counted, a note with DOUBLE and a DOUBLE_FAULT message. -/
def Dev.doubleFault (d : Dev) (th kind faddr : Nat) : Dev :=
  let t := d.th th
  let d := (d.countProg th kind faddr).countProg th 0x0E faddr
  let n := d.mkNote th kind true false false faddr t.fkind
  let d := d.progFault th 0x0E n
  (d.endAttempt th [] .halted).queueNote (th / 128) n

/-- A fault on the supervisor (R160): it stops, HALTED is set and a SUPERVISOR_FAULT message is sent. -/
def Dev.supFault (d : Dev) (th kind faddr : Nat) : Dev :=
  let d := (d.countProg th kind faddr).countProg th 0x0F faddr
  let n := d.mkNote th kind false false false faddr 0
  let d := d.progFault th 0x0F n
  ((d.put F.POD_SUPERVISOR_HALTED (th / 128) 1).setTh th { d.th th with st := .halted }).settleSlot (th / 8)

/-- The active version of a slot (BUF.SLOT_STATE, R593). -/
def Dev.activeVer (d : Dev) (slot : Nat) : Nat := d.get F.BUF_SLOT_STATE_ACTIVE slot

/-- The handler of a thread's slot version (R151): POD.SLOT_HANDLER for the active version; a retiring version keeps the
handler it had. Its place is in the bank that holds the version's CODE. -/
def Dev.handlerOf (d : Dev) (th : Nat) : Option Nat :=
  let t := d.th th
  let v := (d.itemOf t).tok.ver
  let h := if d.activeVer t.slot = v then d.rd .POD_SLOT_HANDLER (th / 128 * 256 + t.slot)
    else (((d.slots.get (t.slot * 256 + v)).getD {}).handlers).getD (th / 128) 0
  if bit h 31 then some (bits h 0 18) else none

/-- A BOUND worker traps (R152, R154, R155). `len` is the length of the faulting instruction, `faddr` its address. -/
def Dev.trapWorker (d : Dev) (th kind faddr len : Nat) : Dev :=
  let t := d.th th
  let t := { t with sleep := .awake, fkind := kind, faddr := faddr, flen := len,
                    saveG := (List.range 8).map (fun i => t.g.get (8 + i)), saveP := t.p }
  let d := (d.setTh th t).countProg th kind faddr
  let notify := d.flag F.POD_CORE_CTL_FAULT_MODE (th / 8)
  match d.handlerOf th with
  | some off =>
    let d := if notify then d.queueNote (th / 128) (d.mkNote th kind false false false faddr 0) else d
    let dl := if kind = 0x07 then some (d.mono + 5000) else t.deadline
    d.setTh th { d.th th with st := .trapped, pc := off - t.base, deadline := dl }
  | none =>
    let d := if notify then d.queueNote (th / 128) (d.mkNote th kind false false true faddr 0) else d
    d.endAttempt th [] (d.idleState th)

/-- A fault of thread `th` (R121): on the supervisor, in a handler, or on a BOUND worker. -/
def Dev.trap (d : Dev) (th kind faddr len : Nat) : Dev :=
  if d.isSup th then d.supFault th kind faddr
  else match (d.th th).st with
    | .trapped => d.doubleFault th kind faddr
    | .bound => d.trapWorker th kind faddr len
    | _ => d

/-! ### Issue -/

/-- The guard holds. -/
def Guard.holds (g : Guard) (t : Thread) : Bool := t.rp g.p != g.neg

/-- What an instruction does once its guard holds: it completes, with the thread and device as it leaves them, or it
raises a fault and has no effect (R121). -/
inductive Iss where
  | ok (t : Thread) (d : Dev)
  | trap (kind : Nat)
  /-- The attempt ended, or the thread was otherwise settled: the device as it stands. -/
  | done (d : Dev)

/-- The PROGRAM fault kinds (Tables 04-6, 05-2). -/
def kEFFECT_OVERFLOW : Nat := 0x01
def kDUP_DISCARD : Nat := 0x02
def kBAD_VERDICT : Nat := 0x03
def kACCESS : Nat := 0x04
def kALIGN : Nat := 0x05
def kISOLATION : Nat := 0x06
def kWATCHDOG : Nat := 0x07
def kILLEGAL : Nat := 0x08
def kTICKET : Nat := 0x09
def kBAD_OPERAND : Nat := 0x0A
def kBRANCH : Nat := 0x0B
def kEDIT_OVERFLOW : Nat := 0x0C
def kPRIVILEGE : Nat := 0x0D

/-- The thread may issue: it is ready and has the slot of its core. -/
def Dev.canIssue (d : Dev) (th : Nat) : Bool := d.ready th && d.hasSlot th

/-- Issue one instruction of `len` bytes (R116, R118, R120, R121): nothing where the thread cannot issue; BRANCH where
the fetch lies at or beyond CODE_SIZE; ILLEGAL before the guard; a guarded-off instruction only advances; a fault
traps with the instruction's address. `f` sees the thread with its pc already past the instruction. -/
def Dev.issue (d : Dev) (th : Nat) (len : Nat) (g : Guard) (illegal : Bool) (f : Dev → Thread → Iss) : Dev :=
  if d.canIssue th then
    let t := d.th th
    if t.code ≤ t.pc then d.trap th kBRANCH t.pc len
    else if illegal then d.trap th kILLEGAL t.pc len
    else
      let t' := { t with pc := t.pc + len }
      if g.holds t then
        match f d t' with
        | .ok t2 d2 => d2.setTh th t2
        | .trap k => d.trap th k t.pc len
        | .done d2 => d2
      else d.setTh th t'
  else d

end Sys2Proof.Machine
end

