-- ==== Sys2Proof/Machine/Edits.lean ====
section
/-!
DEFINITION. Edit lists (13): reading an edit command, the checks of HAPP (R307, R308), and what a header engine makes of
a copy (R310 to R313).
-/
namespace Sys2Proof.Machine

/-- The fields of a 16-byte edit command (Table 13-1). -/
def EditCmd.ofBytes (l : List Nat) : EditCmd :=
  let w0 := leNat (slice l 0 4)
  { cmd := bits w0 0 8, off := bits w0 8 9, len := bits w0 17 9, src := bits w0 26 2, arg := bits w0 28 4,
    w1 := leNat (slice l 4 4), w2 := leNat (slice l 8 4), w3 := leNat (slice l 12 4) }

/-- The commands of Table 13-2. -/
def ePUSH : Nat := 1
def ePOP : Nat := 2
def eWRITE : Nat := 3
def eFIELD : Nat := 4
def eCSUM : Nat := 5
def eTRIM : Nat := 6
def eTS_ORIGIN : Nat := 7
def eTS_CORR : Nat := 8
def eTS_CAPTURE : Nat := 9
def eCRYPTO_MARK : Nat := 10
def eNVME_TX : Nat := 11
def eNVME_PLACE : Nat := 12

/-- The bytes that a PUSH or WRITE supplies: IMM byte order, or the edit data (R307). -/
def EditCmd.bytes (c : EditCmd) : List Nat :=
  if c.src = 1 then (toLe 4 c.w2 ++ toLe 4 c.w3).take c.len else c.data

/-- A field of a command is reserved or outside its range in Tables 13-2 and 13-3. -/
def EditCmd.badField (c : EditCmd) : Bool :=
  let imm := c.src == 1
  let wsz := c.w1 == 0 && c.w2 == 0 && c.w3 == 0
  let atOk (x : Nat) := x == 0xFF || decide (x < c.len)
  if c.cmd = ePUSH then
    !((imm && decide (1 ≤ c.len ∧ c.len ≤ 8) && (c.arg == 0 || c.arg == 5) && c.w1 == 0) ||
      (c.src == 2 && decide (1 ≤ c.len ∧ c.len ≤ 384) && decide (c.arg ≤ 5) && decide (c.w1 < 2 ^ 21) &&
        decide (c.w2 < 2 ^ 16) && c.w3 == 0 && atOk (c.w2 % 256) && atOk (c.w2 / 256))) ||
      (c.arg == 5 && !(decide (4 ≤ c.len ∧ c.len ≤ 48) && c.len % 4 == 0))
  else if c.cmd = ePOP then !(decide (1 ≤ c.len) && c.src == 0 && c.arg == 0 && wsz)
  else if c.cmd = eWRITE then
    !(c.arg == 0 && ((imm && decide (1 ≤ c.len ∧ c.len ≤ 8) && c.w1 == 0) ||
      (c.src == 2 && decide (1 ≤ c.len ∧ c.len ≤ 64) && decide (c.w1 < 2 ^ 21) && c.w2 == 0 && c.w3 == 0)))
  else if c.cmd = eFIELD then !(decide (1 ≤ c.len ∧ c.len ≤ 8) && imm && decide (c.arg ≤ 1) && decide (c.w1 < 2 ^ 18))
  else if c.cmd = eCSUM then
    !(decide (c.arg ≤ 1) && c.src == 0 && c.len == 0 && c.w2 == 0 && c.w3 == 0 &&
      (if c.arg = 1 then decide (c.w1 < 2 ^ 9) else c.w1 == 0))
  else if c.cmd = eTRIM then !(decide (1 ≤ c.len) && c.off == 0 && c.src == 0 && c.arg == 0 && wsz)
  else if c.cmd = eTS_ORIGIN then !(c.len == 10 && c.src == 0 && c.arg == 0 && decide (c.w1 < 2 ^ 9) && c.w2 == 0 && c.w3 == 0)
  else if c.cmd = eTS_CORR then !(c.len == 8 && c.src == 0 && c.arg == 0 && bits c.w1 9 15 == 0)
  else if c.cmd = eTS_CAPTURE then !(c.off == 0 && c.len == 0 && c.src == 0 && c.arg == 0 && decide (c.w1 < 2 ^ 16) && c.w2 == 0 && c.w3 == 0)
  else if c.cmd = eCRYPTO_MARK then !(c.len == 0 && c.src == 0 && decide (c.arg ≤ 1) && decide (c.w1 < 2 ^ 16) && c.w2 == 0 && c.w3 == 0)
  else if c.cmd = eNVME_TX then !(c.len == 0 && c.src == 0 && decide (c.arg ≤ 1) && decide (c.w1 < 2 ^ 14) && c.w2 == 0 && c.w3 == 0)
  else if c.cmd = eNVME_PLACE then !(c.len == 0 && c.src == 0 && c.arg == 0 && decide (c.w1 < 2 ^ 14) && c.w2 == 0 && c.w3 == 0)
  else true

/-- Bytes pushed, popped and trimmed by a list. -/
def pushed (l : List EditCmd) : Nat := (l.filter (·.cmd == ePUSH)).foldl (fun a c => a + c.len) 0
def popped (l : List EditCmd) : Nat := (l.filter (·.cmd == ePOP)).foldl (fun a c => a + c.len) 0
def trimmed (l : List EditCmd) : Nat := (l.filter (·.cmd == eTRIM)).foldl (fun a c => a + c.len) 0

/-- The head length after a list (13 Model): the first HEAD_LEN bytes, with pushes and pops. -/
def headLen (x : Item) (l : List EditCmd) : Nat := x.tok.head + pushed l - popped l

/-- Edit data in use (R308). -/
def editData (l : List EditCmd) : Nat := l.foldl (fun a c => a + c.data.length) 0

/-- The edited length E of R309. -/
def editedLen (x : Item) (l : List EditCmd) : Nat := x.tok.len + pushed l - popped l - trimmed l

/-! ### Building a copy -/

/-- A deferred job of a header engine (R310): positions are offsets in the head as it stands. -/
inductive Job where
  /-- PUSH fixup: kind and the position of the IP header. -/
  | fixup (kind l3 : Nat)
  /-- FIELD checksum update: positions of the checksum and of the field, old and new field bytes, L4. -/
  | field (cs at_ : Nat) (old new : List Nat) (l4 : Bool)
  /-- CSUM of an IPv4 header. -/
  | csum4 (at_ : Nat)
  /-- CSUM L4 with its L3 position. -/
  | csumL4 (at_ l3 : Nat)
  | ts (origin : Bool) (at_ udp : Nat) (frac ns : Nat)
  | mark (esp : Bool) (at_ nh l3 : Nat)
  | nvme (tx first : Bool) (at_ conn : Nat)
deriving DecidableEq, Repr, Inhabited

/-- A position moves with a push of `n` bytes at `o`. -/
def movePush (o n p : Nat) : Nat := if p < o then p else p + n

/-- A position moves with a pop of `n` bytes at `o`; one inside them moves to `o`. -/
def movePop (o n p : Nat) : Nat := if p < o then p else if p < o + n then o else p - n

/-- Every position of a job moves. 0x1FF and 0xFF (none) stand for no position and stay. -/
def Job.move (m : Nat → Nat) : Job → Job
  | .fixup k l => .fixup k (m l)
  | .field c a o n l4 => .field (m c) (m a) o n l4
  | .csum4 a => .csum4 (m a)
  | .csumL4 a l => .csumL4 (m a) (m l)
  | .ts og a u f ns => .ts og (m a) (if u = 0x1FF then u else m u) f ns
  | .mark e a nh l => .mark e (m a) nh (if l = 0xFF then l else m l)
  | .nvme tx f a c => .nvme tx f (m a) c

/-- The head under construction, the bytes trimmed from the end so far, and the deferred jobs in list order. -/
structure EditSt where
  head : List Nat
  trim : Nat := 0
  jobs : List Job := []
deriving DecidableEq, Repr, Inhabited

/-- One command applied to the head (R310 step 1); deferred work joins the jobs. -/
def EditSt.apply (hash : Nat) (s : EditSt) (c : EditCmd) : EditSt :=
  if c.cmd = ePUSH then
    let b := c.bytes
    let ent := c.w2 / 256 % 256
    let b := if c.src = 2 ∧ ent ≠ 0xFF then splice b ent (toBe 2 (0xC000 + hash % 2 ^ 14)) else b
    let s' : EditSt := { s with head := s.head.take c.off ++ b ++ s.head.drop c.off,
                                jobs := s.jobs.map (Job.move (movePush c.off c.len)) }
    if c.arg = 0 ∨ c.arg = 5 ∨ c.w2 % 256 = 0xFF then s' else { s' with jobs := s'.jobs ++ [.fixup c.arg (c.off + c.w2 % 256)] }
  else if c.cmd = ePOP then
    { s with head := s.head.take c.off ++ s.head.drop (c.off + c.len),
             jobs := s.jobs.map (Job.move (movePop c.off c.len)) }
  else if c.cmd = eWRITE then { s with head := splice s.head c.off c.bytes }
  else if c.cmd = eFIELD then
    let old := slice s.head c.off c.len
    let imm := c.w2 + c.w3 * 2 ^ 32
    let v := if c.arg = 0 then imm else beNat old + imm
    let new := toBe c.len (v % 256 ^ c.len)
    let cs := bits c.w1 0 9
    let l4 := bits c.w1 9 9
    let j1 := if cs = 0x1FF then [] else [Job.field cs c.off old new false]
    let j2 := if l4 = 0x1FF then [] else [Job.field l4 c.off old new true]
    { s with head := splice s.head c.off new, jobs := s.jobs ++ j1 ++ j2 }
  else if c.cmd = eTRIM then { s with trim := s.trim + c.len }
  else if c.cmd = eCSUM then
    { s with jobs := s.jobs ++ [if c.arg = 0 then .csum4 c.off else .csumL4 c.off (c.w1 % 512)] }
  else if c.cmd = eTS_ORIGIN then { s with jobs := s.jobs ++ [.ts true c.off (c.w1 % 512) 0 0] }
  else if c.cmd = eTS_CORR then { s with jobs := s.jobs ++ [.ts false c.off (c.w1 % 512) (c.w1 / 2 ^ 24) (c.w2 + c.w3 * 2 ^ 32)] }
  else if c.cmd = eCRYPTO_MARK then { s with jobs := s.jobs ++ [.mark (c.arg == 1) c.off (c.w1 % 256) (c.w1 / 256 % 256)] }
  else if c.cmd = eNVME_TX then { s with jobs := s.jobs ++ [.nvme true (c.arg == 1) c.off (c.w1 % 2 ^ 14)] }
  else if c.cmd = eNVME_PLACE then { s with jobs := s.jobs ++ [.nvme false false c.off (c.w1 % 2 ^ 14)] }
  else s

/-- The head after a list, with its jobs. -/
def editHead (x : Item) (l : List EditCmd) : EditSt :=
  l.foldl (EditSt.apply x.tok.okey) ({ head := x.data.take x.tok.head } : EditSt)

/-! ### Checksums -/

/-- The ones'-complement sum of a byte string in 16-bit words, an odd last byte padded with 0. -/
def ocSum : List Nat → Nat → Nat
  | a :: b :: t, acc => ocSum t (oc (acc + a * 256 + b))
  | [a], acc => oc (acc + a * 256)
  | [], acc => acc
where oc (v : Nat) : Nat := v % 65536 + v / 65536

/-- The Internet checksum of a string. -/
def inetCsum (l : List Nat) : Nat := 65535 - ocSum l 0

/-- The bytes of a field, aligned to 16-bit positions of its header. -/
def alignField (odd : Bool) (l : List Nat) : List Nat := if odd then 0 :: l else l

/-- RFC 1624: the checksum `old` after a field's bytes change (R312). -/
def csumUpdate (cs : Nat) (odd : Bool) (old new : List Nat) : Nat :=
  let notOld := (alignField odd old).map (255 - ·)
  let notOld := if odd then notOld.set 0 255 else notOld
  let pad := fun (l : List Nat) (z : Nat) => if l.length % 2 = 1 then l ++ [z] else l
  65535 - ocSum (pad (alignField odd new) 0) (ocSum (pad notOld 255) (65535 - cs))

/-- The IP version of a header at `p`. -/
def ipVer (b : List Nat) (p : Nat) : Nat := b.getD p 0 / 16

/-- The length of the IP header at `p`: IHL × 4, or 40. -/
def ipHdrLen (b : List Nat) (p : Nat) : Nat := if ipVer b p = 4 then b.getD p 0 % 16 * 4 else 40

/-- An IP header of version 4 with IHL of at least 5, or of version 6, lies whole at `p`. -/
def ipAt (b : List Nat) (p : Nat) : Bool :=
  (ipVer b p == 6 || ipVer b p == 4 && decide (20 ≤ ipHdrLen b p)) && decide (p + ipHdrLen b p ≤ b.length)

/-- The pseudo-header of the IP header at `l3` for an L4 segment of `n` bytes and a protocol. -/
def pseudoHdr (b : List Nat) (l3 n proto : Nat) : List Nat :=
  if ipVer b l3 = 4 then slice b (l3 + 12) 8 ++ [0, proto] ++ toBe 2 n
  else slice b (l3 + 8) 32 ++ toBe 4 n ++ [0, 0, 0, proto]

/-- The protocol that an IP header names. -/
def ipProto (b : List Nat) (l3 : Nat) : Nat := if ipVer b l3 = 4 then b.getD (l3 + 9) 0 else b.getD (l3 + 6) 0

/-- A TCP or UDP checksum over a pseudo-header and the bytes from `at_` to `at_ + n`, in place. -/
def l4Csum (b : List Nat) (at_ l3 n proto : Nat) : List Nat :=
  let fo := at_ + (if proto = 17 then 6 else 16)
  let b := splice b fo [0, 0]
  let c := inetCsum (pseudoHdr b l3 n proto ++ slice b at_ n)
  splice b fo (toBe 2 (if c = 0 ∧ proto = 17 then 0xFFFF else c))

/-- The header checksum of the IPv4 header at `p`, in place. -/
def ip4Csum (b : List Nat) (p : Nat) : List Nat :=
  let b := splice b (p + 10) [0, 0]
  splice b (p + 10) (toBe 2 (inetCsum (slice b p (ipHdrLen b p))))

/-- An IP length fixup at `l3` (Table 13-3 value 1). -/
def fixIp (b : List Nat) (l3 : Nat) : List Nat :=
  if ipVer b l3 = 4 then ip4Csum (splice b (l3 + 2) (toBe 2 (b.length - l3))) l3
  else splice b (l3 + 4) (toBe 2 (b.length - l3 - 40))

/-- One deferred job on the finished bytes (R310 step 2, R312, R313); the Bool counts a skipped CSUM. -/
def Job.run (b : List Nat) : Job → List Nat × Bool
  | .fixup k l3 =>
    let b := fixIp b l3
    let l4 := l3 + ipHdrLen b l3
    if k = 2 then
      let b := splice b (l4 + 4) (toBe 2 (b.length - l4))
      if ipVer b l3 = 4 then (splice b (l4 + 6) [0, 0], false) else (l4Csum b l4 l3 (b.length - l4) 17, false)
    else if k = 3 ∧ bit (b.getD l4 0) 7 then
      let b := splice b (l4 + 4) [0, 0]
      (splice b (l4 + 4) (toBe 2 (inetCsum (b.drop l4))), false)
    else (b, false)
  | .field cs fo old new l4 =>
    let v := beNat (slice b cs 2)
    let udp := l4 && Config.l4IsUdp b cs
    if udp ∧ v = 0 then (b, false)
    else
      let c := csumUpdate v (decide ((fo + cs) % 2 = 1)) old new
      (splice b cs (toBe 2 (if udp ∧ c = 0 then 0xFFFF else c)), false)
  | .csum4 a => if ipVer b a = 4 ∧ ipAt b a then (ip4Csum b a, false) else (b, true)
  | .csumL4 a l3 =>
    let proto := ipProto b l3
    let n := if ipVer b l3 = 4 then beNat (slice b (l3 + 2) 2) - ipHdrLen b l3 else beNat (slice b (l3 + 4) 2)
    if ipAt b l3 ∧ (proto = 6 ∧ a + 20 ≤ b.length ∨ proto = 17 ∧ a + 8 ≤ b.length) then
      let fo := a + (if proto = 17 then 6 else 16)
      let z := splice b fo [0, 0]
      let c := inetCsum (pseudoHdr z l3 n proto ++ z.drop a)
      (splice z fo (toBe 2 (if c = 0 ∧ proto = 17 then 0xFFFF else c)), false)
    else (b, true)
  | _ => (b, false)

/-- A copy as the header engine leaves it before crypto (R310 steps 1 and 2): its bytes, its jobs with their final
positions, and how many CSUMs were skipped. -/
def buildCopy (x : Item) (data : List Nat) (l : List EditCmd) : List Nat × List Job × Nat :=
  let s := editHead { x with data := data } l
  let tail := data.drop x.tok.head
  let b := s.head ++ tail.take (tail.length - s.trim)
  s.jobs.foldl (fun (a : List Nat × List Job × Nat) j =>
    let r := j.run a.1
    (r.1, a.2.1, a.2.2 + b2n r.2)) (b, s.jobs, 0)

/-! ### The checks of HAPP (R308) -/

/-- The bytes that a deferred command names (R308), as ranges in the head right after the command. -/
def protects (b : List Nat) (c : EditCmd) : List (Nat × Nat) :=
  if c.cmd = ePUSH ∧ c.arg ≠ 0 ∧ c.arg ≠ 5 then [(c.off, c.len)]
  else if c.cmd = eFIELD then
    (if bits c.w1 0 9 = 0x1FF then [] else [(bits c.w1 0 9, 2)]) ++ (if bits c.w1 9 9 = 0x1FF then [] else [(bits c.w1 9 9, 2)])
  else if c.cmd = eCSUM then
    if c.arg = 0 then [(c.off + 10, 2)] else [(c.off + (if ipProto b (c.w1 % 512) = 17 then 6 else 16), 2)]
  else if c.cmd = eTS_ORIGIN ∨ c.cmd = eTS_CORR then
    (c.off, c.len) :: (if c.w1 % 512 = 0x1FF then [] else [(c.w1 % 512, 2)])
  else if c.cmd = eNVME_TX ∨ c.cmd = eNVME_PLACE then [(c.off, 20)]
  else []

/-- A range moves with a push of `n` bytes at `o`; one that the push lies inside is split. -/
def rangePush (o n : Nat) (r : Nat × Nat) : List (Nat × Nat) :=
  if o ≤ r.1 then [(r.1 + n, r.2)] else if r.1 + r.2 ≤ o then [r] else [(r.1, o - r.1), (o + n, r.1 + r.2 - o)]

/-- The protected ranges after a list. -/
def protectedRanges (x : Item) (l : List EditCmd) : List (Nat × Nat) :=
  (l.foldl (fun (a : EditSt × List (Nat × Nat)) c =>
    let s := a.1.apply x.tok.okey c
    let mv := if c.cmd = ePUSH then a.2.flatMap (rangePush c.off c.len)
      else if c.cmd = ePOP then a.2.map (fun r => (movePop c.off c.len r.1, r.2)) else a.2
    (s, mv ++ protects s.head c)) (({ head := x.data.take x.tok.head } : EditSt), [])).2

/-- Two ranges overlap. -/
def overlaps (a b : Nat × Nat) : Bool := decide (a.1 < b.1 + b.2) && decide (b.1 < a.1 + a.2)

/-- HAPP refuses a command as BAD_OPERAND (R308). -/
def happBad (x : Item) (l : List EditCmd) (c : EditCmd) : Bool :=
  let h := headLen x l
  let has (k : Nat) := l.any (·.cmd == k)
  let ts := has eTS_ORIGIN || has eTS_CORR
  let isTs := c.cmd == eTS_ORIGIN || c.cmd == eTS_CORR
  c.badField
  || ((c.cmd == ePOP || c.cmd == eWRITE || c.cmd == eFIELD || isTs) && decide (h < c.off + c.len))
  || (c.cmd == ePUSH && decide (h < c.off))
  || (c.cmd == ePUSH && decide (512 < h + c.len))
  || decide (512 < editData l + c.data.length)
  || (isTs && decide (256 < c.off + c.len))
  || (c.cmd == eCRYPTO_MARK && (if c.arg = 0 then c.off != 12 else decide (255 < c.off)))
  || (c.cmd == eCRYPTO_MARK && has eCRYPTO_MARK)
  || (isTs && ts)
  || (c.cmd == eTS_CAPTURE && has eTS_CAPTURE)
  || ((c.cmd == eNVME_TX || c.cmd == eNVME_PLACE) && (has eNVME_TX || has eNVME_PLACE))
  || (isTs && has eCRYPTO_MARK) || (c.cmd == eCRYPTO_MARK && ts)
  || ((c.cmd == ePOP || c.cmd == eWRITE || c.cmd == eFIELD) &&
      (protectedRanges x l).any (fun r => overlaps r (c.off, c.len)))
  || (c.cmd == ePUSH && c.arg == 4 &&
      (decide (20 < c.data.getD (c.w2 % 256 + 41) 0) || decide (9 < c.data.getD (c.w2 % 256 + 44) 0)))
  || (c.cmd == eTRIM && decide (x.tok.len - x.tok.head < trimmed l + c.len))

end Sys2Proof.Machine
end

