-- ==== Sys2Proof/Machine/Scope.lean ====
section
/-!
DEFINITION. What an instance owns and a slot may reach (R107 to R110, R277, R294, R400): resource ranges, the scheduler
tree above a queue, the crypto expansion of a copy and the SA directory.
-/
namespace Sys2Proof.Machine

/-- The version that a thread runs. -/
def Dev.slotVerOf (d : Dev) (t : Thread) : SlotVer := (d.slots.get (t.slot * 256 + (d.itemOf t).tok.ver)).getD {}

/-- The thread runs a TENANT slot. -/
def Dev.isTenant (d : Dev) (t : Thread) : Bool := t.stamp.isSome && (d.slotVerOf t).tenant

/-- BASE and COUNT of a range kind of an instance (INST.RANGE, R400). -/
def Dev.rangeBase (d : Dev) (inst kind : Nat) : Nat := d.get F.INST_RANGE_BASE (inst * 16 + kind)
def Dev.rangeCount (d : Dev) (inst kind : Nat) : Nat := d.get F.INST_RANGE_COUNT (inst * 16 + kind)

/-- Resource `n` of a range kind belongs to an instance (Table 17-6). -/
def Dev.ownsRange (d : Dev) (inst kind n : Nat) : Bool :=
  decide (d.rangeBase inst kind ≤ n) && decide (n < d.rangeBase inst kind + d.rangeCount inst kind)

/-- An SA index lies in an instance's SA range. -/
def Dev.ownsSa (d : Dev) (inst sa : Nat) : Bool := d.ownsRange inst 3 sa

/-- The level-4, level-3 and level-2 nodes and the root above a level-5 queue (R273). -/
def Dev.node4Of (d : Dev) (q : Nat) : Nat := d.get F.TM_Q_CFG_PARENT q
def Dev.node3Of (d : Dev) (q : Nat) : Nat := d.get F.TM_NODE4_PARENT (d.node4Of q)
def Dev.node2Of (d : Dev) (q : Nat) : Nat := d.get F.TM_NODE3_PARENT (d.node3Of q)
def Dev.rootOfQueue (d : Dev) (q : Nat) : Nat := if 131072 ≤ q then q - 131072 else d.get F.TM_NODE2_PARENT (d.node2Of q)

/-- The single egress queue of a Chrysalis port (R546), numbered after the level-5 queues. -/
def chryQueue (p : Nat) : Nat := 131072 + p

/-- Count a quantity of a level-5 queue; a Chrysalis egress queue has no counters. -/
def Dev.countQ (d : Dev) (c : Ctr) (q : Nat) (n : Nat := 1) : Dev := if 131072 ≤ q then d else d.count c q n

/-- Queue `q` lies in the egress range of an instance (R277). -/
def Dev.inEgressRange (d : Dev) (inst q : Nat) : Bool :=
  d.ownsRange inst 6 q && q != d.get F.TM_RQ_QUEUE_QUEUE inst &&
    (if d.get F.TM_INST_NODE_LEVEL inst = 0 then d.node3Of q == d.get F.TM_INST_NODE_NODE inst
     else d.node4Of q == d.get F.TM_INST_NODE_NODE inst)

/-- A TENANT slot of an instance may EMIT to a destination (R109, R480). -/
def Dev.tenantMayEmit (d : Dev) (inst ty dest : Nat) : Bool :=
  if ty = 0 then d.inEgressRange inst dest else if ty = 1 then d.ownsRange inst 0 dest else false

/-- A group destination names a member or path that exists (R480). -/
def Dev.groupDestOk (d : Dev) (dest : Nat) : Bool :=
  let m := bits dest 15 2
  d.flag F.GRP_CFG_ENABLE && bits dest 8 7 == 0 && m + 1 != d.get F.GRP_STATUS_ID && bit (d.get F.GRP_STATUS_CONFIGURED) m

/-- The CRYPTO_MARK of a list, as it stands. -/
def markOf (l : List EditCmd) : Option EditCmd := l.find? (·.cmd == eCRYPTO_MARK)

/-- The SA's directory entry is outbound of the protocol that the mark names (R294). -/
def Dev.saDirOk (d : Dev) (pod sa : Nat) (l : List EditCmd) : Bool :=
  match markOf l with
  | some m => d.saDir.get (pod * 65536 + sa) == (if m.arg = 0 then 1 else 2)
  | none => false

/-- The bytes of an ICV (Table 12-2). -/
def SA.icv (a : SA) : Nat := if a.icvLen = 0 then 16 else if a.icvLen = 1 then 12 else 8

/-- The pad of RFC 4303: data, pad and the two trailer bytes make a multiple of 4. -/
def espPad (n : Nat) : Nat := (4 - (n + 2) % 4) % 4

/-- Where the CRYPTO_MARK of a list lies in the finished head. -/
def markPos (x : Item) (l : List EditCmd) : Nat :=
  match (editHead x l).jobs.find? (fun j => match j with | .mark .. => true | _ => false) with
  | some (.mark _ a _ _) => a
  | _ => 0

/-- The expansion of Table 12-7 for a copy of an item under an SA. -/
def Dev.cryptoExpansion (d : Dev) (sa : Nat) (x : Item) (l : List EditCmd) : Nat :=
  let a := d.cry.sas.get sa
  if a.esp then 16 + espPad (editedLen x l - markPos x l) + 2 + a.icv
  else if a.txSci then 32 else 24

end Sys2Proof.Machine
end

