-- ==== Sys2Proof/Machine/Rings.lean ====
section
/-!
DEFINITION. Host memory as the device writes it: operations that join DMA channels (16), completion and event entries
(15), MSI-X vectors (20) and the notice rings of TABLE and CRYPTO (R206, R304).
-/
namespace Sys2Proof.Machine

/-- A DMA channel. -/
def Dev.chan (d : Dev) (c : Nat) : Chan := d.hst.chans.get c

/-- Store a channel. -/
def Dev.setChan (d : Dev) (c : Nat) (x : Chan) : Dev := { d with hst := { d.hst with chans := d.hst.chans.set c x } }

/-- The channel of an instance (R376). -/
def Dev.chanOf (d : Dev) (inst : Nat) : Nat := d.get F.DMA_INST_CHAN_CHAN inst

/-- An operation joins a channel; an IDLE channel becomes ACTIVE (Table 16-3). -/
def Dev.addOp (d : Dev) (c : Nat) (op : DmaOp) : Dev :=
  let op := { op with id := d.hst.nextOp }
  let d := { d with hst := { d.hst with nextOp := d.hst.nextOp + 1 } }
  let x := d.chan c
  let d := d.setChan c { x with ops := x.ops ++ [op] }
  if d.get F.DMA_CHAN_STATE_STATE c = 1 then d.put F.DMA_CHAN_STATE_STATE c 2 else d

/-- A write operation of an instance, at its current generation, on its channel. -/
def Dev.hostWrite (d : Dev) (inst src addr : Nat) (bytes : List Nat) (fin : OpFin := .none) : Dev :=
  d.addOp (d.chanOf inst) { inst := inst, gen := d.gen inst, src := src, addr := addr, len := bytes.length,
                            bytes := bytes, fin := fin }

/-- A read operation of an instance. -/
def Dev.hostRead (d : Dev) (inst src addr len : Nat) (fin : OpFin) : Dev :=
  d.addOp (d.chanOf inst) { inst := inst, gen := d.gen inst, src := src, read := true, addr := addr, len := len,
                            fin := fin }

/-- The function of an instance may issue requests (R324, R337, R343). -/
def Dev.mayIssue (d : Dev) (inst : Nat) : Bool := (d.fn inst).bme && !(d.fn inst).d3 && (d.fn inst).paused.isNone

/-- The host read of a ticket (R96, R338): an operation on the instance's channel, or HOST_ERR with zeros at once where its
function may not issue requests. The ticket keeps the operation's number. -/
def Dev.startHrd (d : Dev) (th tk : Nat) : Dev :=
  let t := d.ths.get th
  let k := t.tks.get tk
  match k.st, k.sent, k.req with
  | 1, 0, .hrd inst addr len _ =>
    let id := d.hst.nextOp
    let bad := !d.mayIssue inst
    let k := { k with sent := id + 1, resp := if bad then some { status := 4, bytes := List.replicate len 0 } else k.resp }
    let d : Dev := { d with ths := d.ths.set th { t with tks := t.tks.set tk k } }
    if bad then d else d.hostRead inst 4 addr len (.hrd th tk)
  | _, _, _ => d

/-! ### Vectors and rings -/

/-- The key of a vector. -/
def vecKey (inst v : Nat) : Nat := inst * 2048 + v

/-- A vector. -/
def Dev.vec (d : Dev) (inst v : Nat) : Vec := d.hst.vecs.get (vecKey inst v)

/-- Store a vector. -/
def Dev.setVec (d : Dev) (inst v : Nat) (x : Vec) : Dev :=
  { d with hst := { d.hst with vecs := d.hst.vecs.set (vecKey inst v) x } }

/-- A vector becomes pending (20 Model). -/
def Dev.pendVec (d : Dev) (inst v : Nat) : Dev := d.setVec inst v { d.vec inst v with pend := true }

/-- PHASE of the entry with free-running index `x` in a ring of 2^n entries (R206, R370): 1 in the first pass. -/
def ringPhase (n x : Nat) : Nat := 1 - x / 2 ^ n % 2

/-- Free-running 32-bit index arithmetic (15 Model). -/
def idxSub (a b : Nat) : Nat := (a + 2 ^ 32 - b % 2 ^ 32) % 2 ^ 32
def idxAdd (a n : Nat) : Nat := (a + n) % 2 ^ 32

/-- An event entry in an EQ (Table 15-10, R370 to R372): dropped and counted on a full EQ, or one that is not enabled. -/
def Dev.eqEntry (d : Dev) (inst e id info16 info32 dtb : Nat) : Dev :=
  let lg := d.get F.QE_EQCTX_CFG_LOG2_SIZE e
  let wpi := d.get F.QE_EQCTX_STATE_WPI e
  let v := d.get F.QE_EQCTX_CFG_VECTOR e
  if !d.flag F.QE_EQCTX_CFG_ENABLE e || decide (2 ^ lg ≤ idxSub wpi (d.get F.QE_EQCTX_STATE_RCI e)) then
    let d := d.count .QE_EQ_DROP e
    if d.flag F.QE_EQCTX_FLAGS_OVERFLOW e then d
    else ((d.put F.QE_EQCTX_FLAGS_OVERFLOW e 1).pendVec inst v).raiseInst 0x004 inst e wpi
  else
    let words := [id % 2 ^ 11 + info16 % 2 ^ 16 * 2 ^ 16, info32 % 2 ^ 32, dtb % 2 ^ 32,
                  dtb / 2 ^ 32 % 2 ^ 31 + ringPhase lg wpi * 2 ^ 31]
    let d := d.hostWrite inst 7 (d.rd .QE_EQCTX_BASE e + wpi % 2 ^ lg * 16) (words.flatMap (toLe 4))
    let d := d.put F.QE_EQCTX_STATE_WPI e (idxAdd wpi 1)
    if d.flag F.QE_EQCTX_FLAGS_ARMED e then (d.put F.QE_EQCTX_FLAGS_ARMED e 0).pendVec inst v else d

/-- The notice of a CQ (R372). -/
def Dev.cqNotice (d : Dev) (inst c : Nat) : Dev :=
  let d := d.put F.QE_CQCTX_FLAGS_ARMED c 0
  if d.flag F.QE_CQCTX_CFG_DEST c then
    d.eqEntry inst (d.get F.QE_CQCTX_CFG_EQ c) 0x005 c (d.get F.QE_CQCTX_STATE_WPI c) d.now
  else d.pendVec inst (d.get F.QE_CQCTX_CFG_VECTOR c)

/-- A CQ has room for an entry (R370). -/
def Dev.cqRoom (d : Dev) (c : Nat) : Bool :=
  decide (idxSub (d.get F.QE_CQCTX_STATE_WPI c) (d.get F.QE_CQCTX_STATE_RCI c) < 2 ^ d.get F.QE_CQCTX_CFG_LOG2_SIZE c)

/-- A completion entry joins the channel of its instance (Table 15-9, R369, R370); an armed CQ sends its notice. -/
def Dev.cqEntry (d : Dev) (inst c : Nat) (words : List Nat) (fin : OpFin) : Dev :=
  let lg := d.get F.QE_CQCTX_CFG_LOG2_SIZE c
  let wpi := d.get F.QE_CQCTX_STATE_WPI c
  let ws := words.take 7 ++ [ringPhase lg wpi * 2 ^ 31]
  let d := d.hostWrite inst 7 (d.rd .QE_CQCTX_BASE c + wpi % 2 ^ lg * 32) (ws.flatMap (toLe 4)) fin
  let d := d.put F.QE_CQCTX_STATE_WPI c (idxAdd wpi 1)
  if d.flag F.QE_CQCTX_FLAGS_ARMED c then d.cqNotice inst c else d

/-- A table notice of 31 words in the ring of a PF (R206): dropped and counted where the ring is full or disabled. -/
def Dev.tableNote (d : Dev) (pf : Nat) (type : Nat) (words : List Nat) : Dev :=
  let lg := d.get F.TABLE_NOTE_CFG_LOG2_SIZE pf
  let pi := d.rd .TABLE_NOTE_PI pf
  if !d.flag F.TABLE_NOTE_CFG_ENABLE pf || decide (2 ^ lg ≤ idxSub pi (d.rd .TABLE_NOTE_CI pf)) then
    d.count .TABLE_NOTE_DROP pf
  else
    let ws := (words ++ List.replicate (31 - words.length) 0).take 31 ++ [ringPhase lg pi * 2 ^ 31]
    let d := d.hostWrite pf 0xA (d.rd .TABLE_NOTE_BASE pf + pi % 2 ^ lg * 128) (ws.flatMap (toLe 4))
    let d := d.wr .TABLE_NOTE_PI pf (idxAdd pi 1)
    d.raiseInst 0x023 pf type (idxAdd pi 1)

/-- An SA notice in the ring of a PF (R304): TYPE 1 SOFT, 2 HARD. -/
def Dev.saNote (d : Dev) (pf sa type : Nat) : Dev :=
  let lg := d.get F.CRYPTO_NOTE_CFG_LOG2_SIZE pf
  let pi := d.rd .CRYPTO_NOTE_PI pf
  if !d.flag F.CRYPTO_NOTE_CFG_ENABLE pf || decide (2 ^ lg ≤ idxSub pi (d.rd .CRYPTO_NOTE_CI pf)) then
    d.count .CRYPTO_NOTE_DROP pf
  else
    let ws := [sa % 2 ^ 16 + type * 2 ^ 16, d.now % 2 ^ 32, d.now / 2 ^ 32 % 2 ^ 32, ringPhase lg pi * 2 ^ 31]
    let d := d.hostWrite pf 0xA (d.rd .CRYPTO_NOTE_BASE pf + pi % 2 ^ lg * 16) (ws.flatMap (toLe 4))
    (d.wr .CRYPTO_NOTE_PI pf (idxAdd pi 1)).raiseInst 0x024 pf sa type

/-- A channel status record (Table 16-4, R393): written through CHAN_STATUS_ADDR on the channel itself, with the same
values in CHAN_STATE. -/
def Dev.statusRecord (d : Dev) (c kind subject : Nat) (hostErr : Bool) (residue : Nat) (op : Option DmaOp) : Dev :=
  let seq := let q := d.get F.DMA_CHAN_STATE_SEQ c; if q = 0xFFFF then 1 else q + 1
  let d := (d.put F.DMA_CHAN_STATE_SEQ c seq).put F.DMA_CHAN_STATE_RESIDUE c (if kind = 3 then residue else d.get F.DMA_CHAN_STATE_RESIDUE c)
  let a := d.rd .DMA_CHAN_STATUS_ADDR c
  if a = 0 then d
  else
    let w2 := match op with | some o => o.inst % 2 ^ 12 + o.gen % 2 ^ 12 * 2 ^ 12 + o.src * 2 ^ 24 | none => 0
    let w3 := match op with | some o => o.len | none => 0
    let ws := [kind + subject * 2 ^ 4 + b2n hostErr * 2 ^ 10 + seq * 2 ^ 16, residue, w2, w3, d.now % 2 ^ 32,
               d.now / 2 ^ 32 % 2 ^ 32, 0, 0]
    let pf := d.get F.DMA_CHAN_CFG_OWNER_PF c
    let bytes := ws.flatMap (toLe 4)
    -- Handed to the port at once; it waits first on the channel while the function may not issue (R337).
    if (d.fn pf).bme then d.emit (.hostWrite pf c a bytes)
    else
      let op : DmaOp := { id := d.hst.nextOp, inst := pf, gen := d.gen pf, src := 0xD, addr := a, len := 32, bytes := bytes }
      let d := { d with hst := { d.hst with nextOp := d.hst.nextOp + 1 } }
      d.setChan c { d.chan c with ops := op :: (d.chan c).ops }

end Sys2Proof.Machine
end

