-- ==== Sys2Proof/Machine/Buffer.lean ====
section
/-!
DEFINITION. The packet buffer (11): cells and admission, XOFF, on-chip and deep parts of queues, the scheduler tree's
shapers, and the checks of a copy at its release.
-/
namespace Sys2Proof.Machine

/-! ### Cells (R260, R265) -/

/-- The cells of `n` bytes. -/
def cellsOf (n : Nat) : Nat := ceilDiv n 256

/-- The sum of a table of numbers. -/
def Tbl.total (t : Tbl Nat) : Nat := t.cells.foldl (fun a c => a + c.2) 0

/-- The free on-chip cells (BUF.ONCHIP_FREE). -/
def Dev.onchipFree (d : Dev) : Nat :=
  393216 - (d.buf.resv.total + d.buf.shared.total + d.buf.headroom.total + d.buf.hostUse + d.buf.unspill)

/-- The shared pool (R265). -/
def Dev.sharedPool (d : Dev) : Nat :=
  let s := (List.range 288).foldl (fun a i => a + d.get F.BUF_IAP_CFG_MIN_CELLS i + d.get F.BUF_IAP_CFG_HEADROOM_CELLS i) 0
  393216 - 16384 - d.get F.BUF_POOL_CFG_HOST_CELLS - s

/-- SHARED_FREE. -/
def Dev.sharedFree (d : Dev) : Nat := d.sharedPool - d.buf.shared.total

/-- DL of (IAP, class) key `k` (R266). -/
def Dev.dynLimit (d : Dev) (k free : Nat) : Nat := free * 2 ^ d.get F.BUF_IAP_CFG_ALPHA k / 16

/-- Charges of an item or segment: reserved, shared and headroom cells. -/
structure Charge where
  resv : Nat := 0
  shared : Nat := 0
  head : Nat := 0
deriving DecidableEq, Repr, Inhabited

/-- XOFF of one (port, class) follows its use (R267); `head` says that a segment has just been admitted to headroom. -/
def Dev.xoffOne (d : Dev) (free : Nat) (head : Option Nat) (k : Nat) : Dev :=
  let use := d.buf.shared.get k
  let dl := d.dynLimit k free
  let on := d.buf.xoff.get k
  let rise := decide (dl ≤ use + d.get F.BUF_IAP_CFG_XOFF_OFF k) || head == some k
  let fall := decide (use + d.get F.BUF_IAP_CFG_XON_OFF k ≤ dl) && d.buf.headroom.get k == 0
  if !on && rise then ({ d with buf := { d.buf with xoff := d.buf.xoff.set k true } } : Dev).count .BUF_XOFF_CNT k
  else if on && fall then { d with buf := { d.buf with xoff := d.buf.xoff.set k false } }
  else d

/-- XOFF of every port and class. -/
def Dev.xoffScan (d : Dev) (head : Option Nat) : Dev :=
  let free := d.sharedFree
  (List.range 256).foldl (fun d k => d.xoffOne free head k) d

/-- Charge cells of (IAP, class) key `k`, in the order reserved, shared, headroom (R266): none where all three fail. -/
def Dev.takeCells (d : Dev) (k n : Nat) : Option (Dev × Charge) :=
  let free := d.sharedFree
  if d.buf.resv.get k + n ≤ d.get F.BUF_IAP_CFG_MIN_CELLS k then
    some ({ d with buf := { d.buf with resv := d.buf.resv.set k (d.buf.resv.get k + n) } }, { resv := n })
  else if d.buf.shared.get k + n ≤ d.dynLimit k free ∧ n ≤ free then
    let d : Dev := { d with buf := { d.buf with shared := d.buf.shared.set k (d.buf.shared.get k + n) } }
    some (d.xoffScan none, { shared := n })
  else if d.buf.xoff.get k ∧ k < 256 ∧ d.buf.headroom.get k + n ≤ d.get F.BUF_IAP_CFG_HEADROOM_CELLS k then
    let d : Dev := { d with buf := { d.buf with headroom := d.buf.headroom.set k (d.buf.headroom.get k + n) } }
    some (d.xoffScan (some k), { head := n })
  else none

/-- Return the cells of a charge (R266): headroom, shared, reserved. -/
def Dev.freeCells (d : Dev) (k : Nat) (c : Charge) : Dev :=
  let b := d.buf
  let b := { b with headroom := b.headroom.set k (b.headroom.get k - c.head) }
  let b := { b with shared := b.shared.set k (b.shared.get k - c.shared) }
  let b := { b with resv := b.resv.set k (b.resv.get k - c.resv) }
  let d : Dev := { d with buf := b }
  if c.head = 0 ∧ c.shared = 0 then d else d.xoffScan none

/-- The deep pages of the deep buffer (R261), less those of retired pseudo-channels (R30). -/
def Dev.deepTotal (d : Dev) : Nat :=
  let gone := ((List.range 64).filter fun n => bit (d.get F.FCOL_PC_RETIRED_PCS) n).length
  (32 - d.get F.BUF_HBM_PARTITION_ACTIVE_GIB) * 262144 * (64 - gone) / 64

/-- The deep pages free (BUF.DEEP_FREE_PAGES): each queue's HBM part is packed in its pages (R261). -/
def Dev.deepFree (d : Dev) : Nat := d.deepTotal - d.buf.qs.cells.foldl (fun a c => a + ceilDiv c.2.deepBytes 4096) 0

/-! ### The scheduler tree (R273 to R276) -/

/-- Key of a node of a level. -/
def nodeKey (lv n : Nat) : Nat := lv * 2 ^ 18 + n

/-- The shaper registers of a level. -/
def shapeRate (lv : Nat) : Fld := match lv with
  | 1 => F.TM_SHAPE1_RATE_MBPS | 2 => F.TM_SHAPE2_RATE_MBPS | 3 => F.TM_SHAPE3_RATE_MBPS | 4 => F.TM_SHAPE4_RATE_MBPS
  | _ => F.TM_SHAPE5_RATE_MBPS
def shapeBurst (lv : Nat) : Fld := match lv with
  | 1 => F.TM_SHAPE1_BURST | 2 => F.TM_SHAPE2_BURST | 3 => F.TM_SHAPE3_BURST | 4 => F.TM_SHAPE4_BURST | _ => F.TM_SHAPE5_BURST
def shapeCold (lv : Nat) : Fld := match lv with
  | 1 => F.TM_SHAPE1_COLD | 2 => F.TM_SHAPE2_COLD | 3 => F.TM_SHAPE3_COLD | 4 => F.TM_SHAPE4_COLD | _ => F.TM_SHAPE5_COLD
def shapeAdj (lv : Nat) : Fld := match lv with
  | 1 => F.TM_SHAPE1_ADJ | 2 => F.TM_SHAPE2_ADJ | 3 => F.TM_SHAPE3_ADJ | 4 => F.TM_SHAPE4_ADJ | _ => F.TM_SHAPE5_ADJ

/-- The burst of a node in units of 1/8000 byte. -/
def Dev.burstOf (d : Dev) (lv n : Nat) : Int := (d.get (shapeBurst lv) n * 64 * 8000 : Nat)

/-- A node's bucket brought up to now (R275), in 1/8000 byte: a node never set holds its burst (R276, reset). -/
def Dev.bucketNow (d : Dev) (lv n : Nat) : Int :=
  let cap := d.burstOf lv n
  match d.buf.bucket.get (nodeKey lv n) with
  | some b => min cap (b.tokens + (d.get (shapeRate lv) n * (d.mono - b.at_) : Nat))
  | none => cap

/-- Store a bucket as of now. -/
def Dev.setBucket (d : Dev) (lv n : Nat) (v : Int) : Dev :=
  { d with buf := { d.buf with bucket := d.buf.bucket.set (nodeKey lv n) (some ⟨v, d.mono⟩) } }

/-- The start of a node at its enable (R276): its bucket is full, or 0 where COLD is 1, and its deficit is 0. -/
def Dev.startNode (d : Dev) (lv n : Nat) : Dev :=
  let d := d.setBucket lv n (if d.flag (shapeCold lv) n then 0 else d.burstOf lv n)
  { d with buf := { d.buf with deficit := d.buf.deficit.set (nodeKey lv n) 0 } }

/-- A shaper lets a copy through: RATE_MBPS 0, or tokens at or above 0. -/
def Dev.shaperOk (d : Dev) (lv n : Nat) : Bool := d.get (shapeRate lv) n == 0 || decide (0 ≤ d.bucketNow lv n)

/-- A pick of `len` bytes passes a node. -/
def Dev.debit (d : Dev) (lv n len : Nat) : Dev :=
  if d.get (shapeRate lv) n = 0 then d
  else d.setBucket lv n (d.bucketNow lv n - ((len : Int) + signed 7 (d.get (shapeAdj lv) n)) * 8000)

/-- The registers of a node: parent, priority, weight, enable. Level 1 has no configuration. -/
def Dev.parentOf (d : Dev) (lv n : Nat) : Nat := match lv with
  | 2 => d.get F.TM_NODE2_PARENT n | 3 => d.get F.TM_NODE3_PARENT n | 4 => d.get F.TM_NODE4_PARENT n
  | _ => d.get F.TM_Q_CFG_PARENT n
def Dev.prioOf (d : Dev) (lv n : Nat) : Nat := match lv with
  | 2 => d.get F.TM_NODE2_PRIO n | 3 => d.get F.TM_NODE3_PRIO n | 4 => d.get F.TM_NODE4_PRIO n | _ => d.get F.TM_Q_CFG_PRIO n
def Dev.weightOf (d : Dev) (lv n : Nat) : Nat := match lv with
  | 2 => d.get F.TM_NODE2_WEIGHT n | 3 => d.get F.TM_NODE3_WEIGHT n | 4 => d.get F.TM_NODE4_WEIGHT n
  | _ => d.get F.TM_Q_CFG_WEIGHT n
def Dev.enabledOf (d : Dev) (lv n : Nat) : Bool := match lv with
  | 2 => d.flag F.TM_NODE2_ENABLE n | 3 => d.flag F.TM_NODE3_ENABLE n | 4 => d.flag F.TM_NODE4_ENABLE n
  | _ => d.flag F.TM_Q_CFG_ENABLE n

/-! ### Queues (R262 to R264, R279) -/

/-- A level-5 queue. -/
def Dev.q5 (d : Dev) (q : Nat) : QSt := d.buf.qs.get q

/-- Store a queue. -/
def Dev.setQ5 (d : Dev) (q : Nat) (x : QSt) : Dev := { d with buf := { d.buf with qs := d.buf.qs.set q x } }

/-- The profile of a queue. -/
def Dev.profOf (d : Dev) (q : Nat) : Nat := d.get F.TM_Q_CFG_PROF q

/-- What a copy of `len` bytes meets at its release to a queue (R279): none where it enters, else the counter of its drop.
`draw` is the draw of the WRED test in units of 1/256, and the average is updated first. -/
def Dev.dropCheck (d : Dev) (q len draw : Nat) : Dev × Option Ctr :=
  let x := d.q5 q
  let k := d.profOf q
  let qb := x.onBytes + x.deepBytes
  let w := d.get F.TM_WRED_PROF_W k
  let avg : Int := x.avg + ((qb * 65536 : Nat) - x.avg) / 2 ^ w
  let d := d.setQ5 q { x with avg := avg }
  let en := d.flag F.TM_WRED_PROF_ENABLE k
  let mn : Int := (d.get F.TM_WRED_PROF_MIN_KB k * 1024 * 65536 : Nat)
  let mx : Int := (d.get F.TM_WRED_PROF_MAX_KB k * 1024 * 65536 : Nat)
  if d.get F.TM_QPROF_QMAX_KB k * 1024 < qb + len then (d, some .TM_Q_LIMIT_DROP)
  else if en && decide (mx ≤ avg) then (d, some .TM_Q_WRED_DROP)
  else if en && decide (mn < avg) && decide ((draw : Int) * (mx - mn) < d.get F.TM_WRED_PROF_PMAX k * (avg - mn)) then
    (d, some .TM_Q_WRED_DROP)
  else if !x.deep.isEmpty && decide (d.deepFree + ceilDiv x.deepBytes 4096 < ceilDiv (x.deepBytes + len) 4096) then
    (d, some .TM_Q_DEEP_DROP)
  else (d, none)

/-- A copy of `len` bytes joins the HBM part of its queue (R262); a queue without an HBM part keeps it on-chip where no deep
page is free. -/
def Dev.joinsDeep (d : Dev) (q len : Nat) : Bool :=
  let x := d.q5 q
  let sp := d.get F.TM_QPROF_SPILL_KB (d.profOf q)
  !x.deep.isEmpty ||
    (((sp != 0 && decide (sp * 1024 ≤ x.onBytes + len)) ||
      (decide (d.onchipFree < d.get F.BUF_SPILL_CFG_WATERMARK) && decide (16384 ≤ x.onBytes))) &&
      decide (ceilDiv len 4096 ≤ d.deepFree))

end Sys2Proof.Machine
end

