-- ==== Sys2Proof/Machine/Items.lean ====
section
/-!
DEFINITION. The acceptance contract (02) and the buffer's side of an item: recording dispositions (R45 to R47, R368),
freeing data (R260, R262), leaving the order of a key (R48, R49, R270 to R272), entering queues (R262, R277, R279), the
failure of an attempt (R50 to R53) and commit (R36, R50, R299, R300).
-/
namespace Sys2Proof.Machine

/-- The instance that owns number `n` of a range kind, among those that hold resources. -/
def Dev.rangeOwner (d : Dev) (kind n : Nat) : Option Nat := d.hst.live.find? fun i => d.ownsRange i kind n

/-- A queue of the queue engine. -/
def Dev.q (d : Dev) (q : Nat) : Q := d.hst.qs.get q

/-- Store a queue. -/
def Dev.setQ (d : Dev) (q : Nat) (x : Q) : Dev := { d with hst := { d.hst with qs := d.hst.qs.set q x } }

/-- A network port is UP or DEGRADED. -/
def Dev.portUp (d : Dev) (p : Nat) : Bool := d.get F.NET_PORT_STATUS_STATE p == 4 || d.get F.NET_PORT_STATUS_STATE p == 5

/-! ### Stamps -/

/-- `a` precedes `b` in acceptance order, SEQ compared modulo 2^45 (R31). -/
def stampBefore (a b : Nat) : Bool :=
  let x := (b % 2 ^ 45 + 2 ^ 45 - a % 2 ^ 45) % 2 ^ 45
  x != 0 && decide (x < 2 ^ 44)

/-- The next stamp of a source is taken. -/
def Dev.nextStamp (d : Dev) (src : Nat) : Nat × Dev :=
  let n := d.buf.nextSeq.get src
  (src * 2 ^ 45 + n, { d with buf := { d.buf with nextSeq := d.buf.nextSeq.set src ((n + 1) % 2 ^ 45) } })

/-- Acceptance is counted (R47): per instance, and per ingress port for SOURCE 0 to 3. -/
def Dev.countAccept (d : Dev) (src port inst : Nat) : Dev :=
  let d := (d.count .BUF_ACCEPT_CNT (32 + inst)).count .BUF_INFLIGHT (32 + inst)
  if src < 4 then (d.count .BUF_ACCEPT_CNT port).count .BUF_INFLIGHT port else d

/-- A disposition is counted (R47). -/
def Dev.countDisp (d : Dev) (src port inst di : Nat) : Dev :=
  let d := (d.count .QE_DISP_CNT_INST (inst * 8 + di)).uncount .BUF_INFLIGHT (32 + inst)
  if src < 4 then (d.count .BUF_DISP_CNT_PORT (port * 8 + di)).uncount .BUF_INFLIGHT port else d

/-- The item holds a reorder entry (R270): from acceptance until its release or disposition. -/
def Item.holds (x : Item) : Bool := !x.released && (x.disp.isNone || (x.committed && x.copies.any (·.st != .gone)))

/-- The live items. -/
def Dev.itemList (d : Dev) : List Item := d.items.cells.filterMap (·.2)

/-- Reorder entries and key contexts in use (ROB.USED). -/
def Dev.robEntries (d : Dev) : Nat := (d.itemList.filter (·.holds)).length
def Dev.robKeys (d : Dev) : List Nat := ((d.itemList.filter (·.holds)).map (·.tok.okey)).eraseDups

/-- A reorder entry and, where the key has no live context, a context are free (R269). -/
def Dev.robRoom (d : Dev) (key : Nat) : Bool :=
  let ks := d.robKeys
  decide (d.robEntries < 262144) && (ks.contains key || decide (ks.length < 131072))

/-! ### Data (R260, R262, R300) -/

/-- The item's data is still needed on-chip. -/
def Item.needsData (x : Item) : Bool :=
  (!x.committed && x.disp.isNone) || x.copies.any fun c => c.un == 0 && (c.st == .held || c.st == .onchip || c.st == .sending)

/-- Free the cells of the plain image of the current attempt (R300). -/
def Dev.freePlain (d : Dev) (st : Nat) : Dev :=
  match d.item st with
  | none => d
  | some x =>
    let p := x.plain
    let d := if x.tok.source = 4 then { d with buf := { d.buf with hostUse := d.buf.hostUse - p.1 } }
      else if p = (0, 0, 0) then d else d.freeCells (x.iap * 8 + x.cls) { resv := p.1, shared := p.2.1, head := p.2.2 }
    let d := d.setItem st { x with plain := (0, 0, 0) }
    { d with cry := { d.cry with plain := d.cry.plain.set st none } }

/-- Free the cells of an item's data. -/
def Dev.freeData (d : Dev) (st : Nat) : Dev :=
  match d.item st with
  | none => d
  | some x =>
    let d := if x.resv = 0 ∧ x.shared = 0 ∧ x.headroom = 0 then d
      else d.freeCells (x.iap * 8 + x.cls) { resv := x.resv, shared := x.shared, head := x.headroom }
    let d : Dev := { d with buf := { d.buf with hostUse := d.buf.hostUse - x.hostCells } }
    d.setItem st { x with resv := 0, shared := 0, headroom := 0, hostCells := 0 }

/-- The pod whose thread ran the attempt of an item. -/
def Item.pod (x : Item) : Option Nat := match x.pst with | .atThread th => some (th / 128) | _ => none

/-- A DMA_WRITE of kind RANGE still needs the item's data: not applied yet, or its operation not DONE (R395). -/
def Dev.rangeHeld (d : Dev) (st : Nat) : Bool :=
  (d.effq.any fun e => e.stamp == st && !e.applied && (match e.eff with | .dmaRange .. => true | _ => false)) ||
    d.hst.chans.cells.any fun c => c.2.ops.any fun o => o.fin == .range st

/-- Free what is no longer needed, and forget an item whose every part is over. -/
def Dev.tidy (d : Dev) (st : Nat) : Dev :=
  match d.item st with
  | none => d
  | some x =>
    let held := d.rangeHeld st
    let d := if x.needsData || held then d else d.freeData st
    if !held && x.recorded && x.pst == .complete && x.copies.all (·.st == .gone) then { d with items := d.items.set st none } else d

/-- The request number of a forwarded effect. -/
def EffReq.reqId (e : EffReq) : Nat := 2 ^ 60 + e.stamp * 32 + e.index

/-- An effect is acknowledged: the commit unit forgets it. -/
def Dev.effAck (d : Dev) (e : EffReq) : Dev :=
  ({ d with effq := d.effq.filter fun x => !(x.stamp == e.stamp && x.index == e.index) } : Dev).tidy e.stamp

/-! ### Recording (R46, R47, R368, R371) -/

/-- The item's disposition is recorded and counted. -/
def Dev.recordItem (d : Dev) (st : Nat) : Dev :=
  match d.item st with
  | none => d
  | some x =>
    match x.disp, x.recorded with
    | some o, false =>
      let d := d.countDisp x.tok.source x.tok.port x.tok.inst o.1
      (d.setItem st { x with recorded := true }).tidy st
    | _, _ => d

/-- DONE of a queue advances by `k` indices. -/
def Dev.advanceDone (d : Dev) (q k : Nat) : Dev :=
  let d := d.setQ q { d.q q with pend := (d.q q).pend.drop k }
  d.put F.QE_QCTX_DONE_DONE q (idxAdd (d.get F.QE_QCTX_DONE_DONE q) k)

/-- A CQ is full when an entry is due (R371): FULL, and once per episode its event and count. -/
def Dev.cqIsFull (d : Dev) (inst c : Nat) : Dev :=
  if d.hst.cqFull.contains c then d
  else
    let d := (d.put F.QE_CQCTX_FLAGS_FULL c 1).count .QE_CQ_FULL_CNT c
    let d : Dev := { d with hst := { d.hst with cqFull := d.hst.cqFull ++ [c] } }
    d.raiseInst 0x003 inst c (d.get F.QE_CQCTX_STATE_WPI c)

/-- The completion entry of `p` (Table 15-9), the queue's entry joining its CQ. -/
def Dev.complete (d : Dev) (inst q : Nat) (p : Pend) (o : Nat × Nat) : Dev :=
  let rq := p.kind == 3
  let w0 := q + b2n rq * 2 ^ 16 + o.1 * 2 ^ 17 + o.2 * 2 ^ 20
  let ws := if rq then [w0, p.index, p.tag] ++ (p.words ++ List.replicate 4 0).take 4
    else [w0, p.index, p.tag, p.len, d.now % 2 ^ 32, 0, 0]
  let c := d.get F.QE_QCTX_CFG_CQ q
  let d : Dev := { d with hst := { d.hst with cqFull := d.hst.cqFull.filter (· != c) } }
  d.cqEntry inst c ws (.entry q p.index p.item)

/-- Record the head of a queue's journal where its outcome is known (R46); `false` where nothing can be recorded. -/
def Dev.recordHead (d : Dev) (q : Nat) : Dev × Bool :=
  let x := d.q q
  let inst := (d.rangeOwner 0 q).getD 0
  let room := d.cqRoom (d.get F.QE_QCTX_CFG_CQ q)
  let full := (d.cqIsFull inst (d.get F.QE_QCTX_CFG_CQ q), false)
  match x.pend with
  | [] => (d, false)
  | p :: rest =>
    if p.kind = 2 then (d.advanceDone q 1, true)
    else if p.kind = 1 then
      if p.signal && !room then full
      else
        let d := if p.signal then d.complete inst q p (0, 0) else d
        ((d.countDisp 4 0 inst 0).advanceDone q 1, true)
    else if p.kind = 0 then
      match p.out with
      | none => (d, false)
      | some o =>
        let entry := o.1 != 0 || p.signal
        if entry && !room then full
        else
          let d := if entry then d.complete inst q p o else d
          ((d.advanceDone q 1).recordItem p.stamp, true)
    else
      -- Receive buffers: those of one delivery are recorded together with its last.
      let k := ((p :: rest).takeWhile (·.cover)).length
      match (p :: rest)[k]? with
      | none => (d, false)
      | some l =>
        match l.out with
        | none => (d, false)
        | some o =>
          if !room then full else ((d.complete inst q l o).advanceDone q (k + 1), true)

/-- Record as far as the journal allows. -/
def Dev.recordRun : Nat → Nat → Dev → Dev
  | 0, _, d => d
  | n + 1, q, d => let r := d.recordHead q; if r.2 then Dev.recordRun n q r.1 else r.1

/-- Record queue `q` in index order. -/
def Dev.recordQ (d : Dev) (q : Nat) : Dev := Dev.recordRun (d.q q).pend.length q d

/-! ### Outcomes -/

/-- A token leaves the dispatcher port or the distributor's hold when its item is disposed before commit; a thread that runs
it goes on to END. -/
def Dev.cancelToken (d : Dev) (st : Nat) : Dev :=
  match d.item st with
  | none => d
  | some x =>
    match x.pst with
    | .atPod p =>
      let d := d.setPod p { d.pod p with port := (d.pod p).port.filter (· != st) }
      d.setItem st { x with pst := .complete }
    | .atThread _ => d
    | _ => d.setItem st { x with pst := .complete }

/-- Release the reservations of a stamp (R299). -/
def Dev.dropResv (d : Dev) (st : Nat) : Dev :=
  { d with cry := { d.cry with resv := d.cry.resv.filter (·.stamp != st) } }

/-- The item's outcome is known (R36, R45): it keeps the first. A host item waits for its queue's order; any other is
recorded at once. An uncommitted item gives up its token, its batch and its reservations. -/
def Dev.outcome (d : Dev) (st di sub : Nat) : Dev :=
  match d.item st with
  | none => d
  | some x =>
    if x.disp.isSome || d.halted then d
    else
      let d := d.setItem st { x with disp := some (di, sub), batch := if x.committed then x.batch else none }
      let d := if x.committed then d else ((d.dropResv st).freePlain st).cancelToken st
      let d := if x.tok.source = 4 then
          let q := x.tok.queue
          let d := d.setQ q { d.q q with
            pend := (d.q q).pend.map fun p => if p.kind = 0 ∧ p.stamp = st then { p with out := some (di, sub) } else p }
          d.recordQ q
        else d.recordItem st
      d.tidy st

/-! ### Copies -/

/-- Change copy `c` of an item. -/
def Dev.setCopy (d : Dev) (st c : Nat) (f : Copy → Copy) : Dev :=
  match d.item st with
  | none => d
  | some x => d.setItem st { x with copies := x.copies.mapIdx fun i k => if i = c then f k else k }

/-- Copy `c` of an item. -/
def Dev.copy (d : Dev) (st c : Nat) : Option Copy := (d.item st).bind fun x => x.copies[c]?

/-- A copy leaves the queue that holds it, and a queue that becomes empty loses its deficit (R274). -/
def Dev.leaveQueue (d : Dev) (st c : Nat) : Dev :=
  match d.copy st c with
  | none => d
  | some k =>
    let x := d.q5 k.q
    let on := x.onchip.contains (st, c)
    let dp := x.deep.contains (st, c)
    let x := { x with onchip := x.onchip.filter (· != (st, c)), deep := x.deep.filter (· != (st, c)),
                      onBytes := x.onBytes - (if on then k.len else 0), deepBytes := x.deepBytes - (if dp then k.len else 0) }
    let d := d.setQ5 k.q x
    if x.onchip.isEmpty && x.deep.isEmpty then
      { d with buf := { d.buf with deficit := d.buf.deficit.set (nodeKey 5 k.q) 0 } } else d

/-- A copy is over: it leaves its queue and gives back its cells. -/
def Dev.endCopy (d : Dev) (st c : Nat) : Dev :=
  match d.copy st c with
  | none => d
  | some k =>
    if k.st == .gone then d
    else
      let d := d.leaveQueue st c
      let d : Dev := { d with buf := { d.buf with unspill := d.buf.unspill - k.un } }
      (d.setCopy st c fun k => { k with st := .gone, un := 0, hold := none, bytes := [] }).tidy st

/-- A copy is lost with an outcome, which is the item's where it is the primary copy (R36). -/
def Dev.loseCopy (d : Dev) (st c di sub : Nat) : Dev :=
  let d := if c = 0 then d.outcome st di sub else d
  d.endCopy st c

/-- HOLD_MS of the group settings in force (Table 22-4), in ns. -/
def Dev.groupHold (d : Dev) : Nat := leNat (slice d.grp.set 8 2) * 1000000

/-- The link of the path to member `m` (R479): the lowest ACTIVE link whose peer is `m`, else one to the lowest current
member that shows `m` in DIRECT; none where `m` is unreachable. Link `l` is element `l + 1` of NET.EL_STATUS. -/
def Dev.linkTo (d : Dev) (m : Nat) : Option Nat :=
  (List.range 3).find? fun l => d.get F.NET_EL_STATUS_STATE (l + 1) == 7 && d.get F.NET_EL_STATUS_PEER_MEMBER (l + 1) == m - 1

/-- The path to `m`: its link, and the relay. -/
def Dev.pathTo (d : Dev) (m : Nat) : Option (Nat × Option Nat) :=
  match d.linkTo m with
  | some l => some (l, none)
  | none =>
    match (List.range 4).find? fun r =>
        bit (d.get F.GRP_STATUS_CURRENT) r && bit (d.grp.direct.get (r + 1)) (m - 1) && (d.linkTo (r + 1)).isSome with
    | some r => (d.linkTo (r + 1)).map fun l => (l, some (r + 1))
    | none => none

/-- The queue of a copy at its release (R277, R481); none where the receive queue's instance is gone. -/
def Dev.queueOf (d : Dev) (k : Copy) : Option Nat :=
  if k.dtype = 0 then some k.dest
  else if k.dtype = 1 then (d.rangeOwner 0 k.dest).map fun i => d.get F.TM_RQ_QUEUE_QUEUE i
  else
    let m := bits k.dest 15 2 + 1
    let l := ((d.pathTo m).map (·.1)).getD 0
    some (d.get F.GRP_GQ_BASE_QUEUE l + (m - 1))

/-- The hold that a copy entering a queue below `root` starts (R57, R484). -/
def Dev.holdAt (d : Dev) (root : Nat) : Option Nat :=
  if root < 32 then (if d.portUp root then none else some (d.mono + d.get F.TM_PORT_HOLD_HOLD_MS root * 1000000))
  else if 34 ≤ root then some (d.mono + d.groupHold) else none

/-- The copy joins the tail of a queue (R262). -/
def Dev.joinQueue (d : Dev) (st c q : Nat) (k : Copy) : Dev :=
  let deep := decide (q < 131072) && d.joinsDeep q k.len
  let d := d.setCopy st c fun k =>
    { k with q := q, st := if deep then .deep else .onchip, hold := d.holdAt (d.rootOfQueue q) }
  let x := d.q5 q
  let d := if deep then
      (d.setQ5 q { x with deep := x.deep ++ [(st, c)], deepBytes := x.deepBytes + k.len }).count .BUF_SPILL_BYTES 0 k.len
    else d.setQ5 q { x with onchip := x.onchip ++ [(st, c)], onBytes := x.onBytes + k.len }
  (d.countQ .TM_Q_ENQ_BYTES q k.len).tidy st

/-- The instance's work is set aside (R423, R424). -/
def Dev.frozen (d : Dev) (inst : Nat) : Bool := decide (2 ≤ d.get F.MIG_STATE_MSTATE inst)

/-- An instance is being frozen or frozen quiesced (R422). -/
def Dev.quiescing (d : Dev) (inst : Nat) : Bool :=
  let m := d.get F.MIG_STATE_MSTATE inst
  m == 1 || m == 2

/-- A released copy is checked and enqueued or dropped (R279, R280). A copy for a receive queue whose instance is gone or
quiescing is QUEUE_DISABLED; one for another member while this member is out of service is GROUP_FENCED (R494). -/
def Dev.enqueue (d : Dev) (st c : Nat) : Dev :=
  match d.copy st c with
  | none => d
  | some k =>
    if k.st != .held then d
    else if k.dtype = 2 ∧ d.get F.GRP_STATUS_STATE ≠ 3 ∧ d.get F.GRP_STATUS_STATE ≠ 6 then d.loseCopy st c 6 0
    else if k.dtype = 1 ∧ (match d.rangeOwner 0 k.dest with | some i => d.quiescing i | none => false) = true then
      d.loseCopy st c 1 5
    else match d.queueOf k with
      | none => d.loseCopy st c 1 5
      | some q =>
        if 131072 ≤ q then d.joinQueue st c q k else
        let draw := (Config.draw d.buf.draws).toNat
        let d : Dev := { d with buf := { d.buf with draws := d.buf.draws + 1 } }
        let r := d.dropCheck q k.len draw
        match r.2 with
        | some ctr => (r.1.count ctr q).loseCopy st c 1 2
        | none => r.1.joinQueue st c q k

/-! ### Order (R48, R49, R271, R272) -/

/-- The earliest item of a key that still holds its place. -/
def Dev.firstOfKey (d : Dev) (key : Nat) : Option Item :=
  (d.itemList.filter fun x => x.holds && x.tok.okey == key).foldl (fun (a : Option Item) x =>
    match a with
    | none => some x
    | some y => if stampBefore x.tok.stamp y.tok.stamp then some x else some y) none

/-- Release an item: its copies are enqueued in staging order. -/
def Dev.release (d : Dev) (x : Item) : Dev :=
  let st := x.tok.stamp
  let d := d.setItem st { x with released := true }
  ((List.range x.copies.length).foldl (fun d c => d.enqueue st c) d).tidy st

/-- Release the items of a key in stamp order while the first one has committed. -/
def Dev.releaseRun : Nat → Nat → Dev → Dev
  | 0, _, d => d
  | n + 1, key, d =>
    match d.firstOfKey key with
    | some x => if x.committed then Dev.releaseRun n key (d.release x) else d
    | none => d

/-- What a key's change of state releases. -/
def Dev.releaseKey (d : Dev) (key : Nat) : Dev := Dev.releaseRun d.items.cells.length key d

/-- An accepted item is disposed; where it has not committed its successors are released (R272). -/
def Dev.dispose (d : Dev) (st di sub : Nat) : Dev :=
  match d.item st with
  | none => d
  | some x => (d.outcome st di sub).releaseKey x.tok.okey

/-! ### A failed attempt (R50 to R53) -/

/-- The attempt of an item has failed: its batch is discarded and the plain image freed. A first attempt leaves the token
due for its reissue; a second one disposes the item REPLAY_LIMIT. -/
def Dev.attemptFails (d : Dev) (st : Nat) : Dev :=
  match d.item st with
  | none => d
  | some x =>
    if x.committed then d
    else if x.disp.isSome then (d.setItem st { x with pst := .complete, batch := none }).tidy st
    else
      let d := d.freePlain st
      let d := match d.item st with
        | some x => d.setItem st { x with batch := none, refused := x.tok.replay :: x.refused, pst := .lost }
        | none => d
      if x.tok.replay then d.dispose st 2 3 else d

/-- The commit unit discards an incomplete batch and reports it (R50, R52). -/
def Dev.discardBatch (d : Dev) (st : Nat) : Dev := ((d.count .CMT_DISCARDED).fault 4 4 21).attemptFails st

/-! ### Commit -/

/-- The length of a copy (R274, R309, R481). -/
def Dev.copyLen (d : Dev) (x : Item) (dtype : Nat) (sa : Option Nat) (edits : List EditCmd) : Nat :=
  let e := editedLen x edits
  if dtype = 0 then
    let e := e + (match sa with | some s => d.cryptoExpansion s x edits | none => 0)
    (if e < 60 then 60 else e) + 4
  else if dtype = 2 then e + 32 else e

/-- The copies that a batch stages, in staging order. -/
def Dev.copiesOf (d : Dev) (x : Item) (effs : List Eff) : List Copy :=
  effs.filterMap fun e => match e with
    | .emit dest ty sa sav _ edits =>
      let s := if sav then some sa else none
      some { dest := dest, dtype := ty, sa := s, edits := edits, len := d.copyLen x ty s edits }
    | _ => none

/-- The DISCARD that a batch stages. -/
def discardOf (effs : List Eff) : Option (Nat × Nat) :=
  effs.findSome? fun e => match e with | .discard di sub _ => some (di, sub) | _ => none

/-- A record that goes to a destination island as an effect REQ (R51). -/
def Eff.isSent : Eff → Bool
  | .emit .. => false
  | .discard .. => false
  | _ => true

/-- The plain image of an attempt becomes the item's data (R300). -/
def Dev.takePlain (d : Dev) (st : Nat) : Dev :=
  match d.cry.plain.get st with
  | none => d
  | some b =>
    let d := d.freeData st
    let d := match d.item st with
      | some x =>
        if x.tok.source = 4 then d.setItem st { x with data := b, hostCells := x.plain.1, plain := (0, 0, 0) }
        else d.setItem st { x with data := b, resv := x.plain.1, shared := x.plain.2.1, headroom := x.plain.2.2, plain := (0, 0, 0) }
      | none => d
    { d with cry := { d.cry with plain := d.cry.plain.set st none } }

/-- A complete batch commits (R36, R50, R51): its effects are sent, its copies await release, its disposition is decided
where the program staged a DISCARD or nothing, reservations that no SA_UPDATE consumes are released, and the key moves on. -/
def Dev.commit (d : Dev) (st : Nat) (effs : List Eff) : Dev :=
  let d := d.takePlain st
  match d.item st with
  | none => d
  | some x =>
    let tn := ((d.slots.get (x.tok.slot * 256 + x.tok.ver)).getD {}).tenant
    let d := d.setItem st { x with committed := true, batch := none, pst := .complete, copies := d.copiesOf x effs }
    let sent := (effs.mapIdx fun i e => (i, e)).filter fun p => p.2.isSent
    let d : Dev := { d with effq := d.effq ++ sent.map fun p =>
      { stamp := st, index := p.1, eff := p.2, inst := x.tok.inst, tenant := tn, pod := x.pod.getD 0, sent := d.mono } }
    let used := effs.filterMap fun e => match e with | .saUpdate sa pn => some (sa, pn) | _ => none
    let d : Dev := { d with cry := { d.cry with
      resv := d.cry.resv.filter fun r => r.stamp != st || used.contains (r.sa, r.pn) } }
    let d := match discardOf effs with
      | some o => d.outcome st o.1 o.2
      | none =>
        match d.copiesOf x effs with
        | [] => d.outcome st 1 1
        -- Out of group service (R494).
        | k :: _ => if k.dtype = 2 ∧ d.get F.GRP_STATUS_STATE ≠ 3 ∧ d.get F.GRP_STATUS_STATE ≠ 6 then d.loseCopy st 0 6 0 else d
    (d.releaseKey x.tok.okey).tidy st

/-- A commit message arrives (R50): refused where the item is disposed or committed, or the batch it belongs to was
discarded; it completes the batch with FINAL. A batch whose generation is no longer that of its instance is refused, and its
item is ABORTED_BY_RESET (R58, R98). -/
def Dev.commitMessage (d : Dev) (m : CMsg) : Dev :=
  match d.item m.stamp with
  | none => d
  | some x =>
    if x.committed || d.halted || m.replay != x.tok.replay || x.refused.contains m.replay then d
    else if x.disp.isSome then
      if m.final then
        let d := d.setItem m.stamp { x with pst := .complete }
        ((d.dropResv m.stamp).freePlain m.stamp).tidy m.stamp
      else d
    else if m.gen ≠ d.gen x.tok.inst then (if m.final then d.dispose m.stamp 3 0 else d)
    else
      let b := x.batch.getD { replay := m.replay, first := d.mono }
      let effs := b.effs ++ m.effs
      if m.final then d.commit m.stamp effs
      else d.setItem m.stamp { x with batch := some { b with effs := effs } }

/-! ### A reset point's effect on an item (R58) -/

/-- R58 applied to an accepted item: its copies are withdrawn, a copy on the wire ends with an inverted FCS, and the item is
ABORTED_BY_RESET unless its outcome is known already. -/
def Dev.abortItem (d : Dev) (st : Nat) : Dev :=
  match d.item st with
  | none => d
  | some x =>
    let d := d.outcome st 3 0
    let d := (List.range x.copies.length).foldl (fun d c =>
      match d.copy st c with
      | some k =>
        let root := d.rootOfQueue k.q
        let d := if k.st == .sending ∧ root < 32 then
            let d := (d.emit (.frameCut root)).count .NET_TX_ABORT root
            { d with net := { d.net with sending := d.net.sending.set root none } }
          else d
        d.endCopy st c
      | none => d) d
    if x.committed && x.released then d else d.releaseKey x.tok.okey

end Sys2Proof.Machine
end

