-- ==== Sys2Proof/Machine/TableOps.lean ====
section
/-!
DEFINITION. Tables (07, 08): matching, entries, single writes and their status codes, descriptors and storage, notices.
Each write source calls `Dev.tableOp`.
-/
namespace Sys2Proof.Machine

/-- The bit width of an LPM address and the offset of the address in the key (Table 07-6). -/
def lpmBits (ty : Nat) : Nat := if ty = 1 then 32 else 128

/-- Descriptor fields. -/
def Dev.tValid (d : Dev) (n : Nat) : Bool := d.flag F.TABLE_DESC_CFG_VALID n
def Dev.tType (d : Dev) (n : Nat) : Nat := d.get F.TABLE_DESC_CFG_TYPE n
def Dev.tKeyLen (d : Dev) (n : Nat) : Nat := d.get F.TABLE_DESC_CFG_KEY_LEN n
def Dev.tResLen (d : Dev) (n : Nat) : Nat := d.get F.TABLE_DESC_CFG_RESULT_LEN n
def Dev.tScope (d : Dev) (n : Nat) : Nat := d.get F.TABLE_DESC_CFG_SCOPE n
def Dev.tEntries (d : Dev) (n : Nat) : Nat := d.get F.TABLE_DESC_CAP_ENTRIES n
def Dev.tSeq (d : Dev) (n : Nat) : Nat := d.rd .TABLE_DESC_SEQ n
def Dev.tOwner (d : Dev) (n : Nat) : Nat := d.get F.TABLE_DESC_CFG_OWNER n

/-- The key of an entry in `Tables.entries`. -/
def entKey (n i : Nat) : Nat := n * 2 ^ 28 + i

/-- An entry. -/
def Dev.entry (d : Dev) (n i : Nat) : Option Entry := d.tbl.entries.get (entKey n i)

/-- Store an entry. -/
def Dev.setEntry (d : Dev) (n i : Nat) (e : Option Entry) : Dev :=
  { d with tbl := { d.tbl with entries := d.tbl.entries.set (entKey n i) e } }

/-- The entries of a table, by ascending index. -/
def Dev.entriesOf (d : Dev) (n : Nat) : List (Nat × Entry) :=
  d.tbl.entries.cells.filterMap fun c => if c.1 / 2 ^ 28 = n then c.2.map fun e => (c.1 % 2 ^ 28, e) else none

/-- The entry handle of R176; MEMBER is 0 except for SHARDED tables. -/
def Dev.handle (d : Dev) (n i : Nat) : Nat :=
  i + n * 2 ^ 28 + (if d.tScope n = 2 then d.get F.GRP_STATUS_ID - 1 else 0) * 2 ^ 38

/-- An LPM key with the address bits beyond PLEN taken as 0 (R191). -/
def lpmCut (ty plen : Nat) (key : List Nat) : List Nat :=
  let w := lpmBits ty
  key.take 2 ++ toBe (w / 8) (beNat (slice key 2 (w / 8)) / 2 ^ (w - plen) * 2 ^ (w - plen))

/-- The stored form of a key (R191). -/
def storedKey (ty plen : Nat) (key : List Nat) : List Nat := if ty = 1 ∨ ty = 2 then lpmCut ty plen key else key

/-- An entry's stored key equals the argument's (Table 08-3: LPM with PLEN; TERNARY with MASK and PRIORITY; RANGE with HI
and PRIORITY). -/
def Entry.stored (e : Entry) (ty : Nat) (key aux : List Nat) (plen prio : Nat) : Bool :=
  if ty = 0 then e.key == key
  else if ty ≤ 2 then e.key == storedKey ty plen key && e.plen == plen
  else e.key == key && e.aux == aux && e.prio == prio

/-- An entry matches a lookup key (Table 07-6). `ex` is EXACT_LEN. -/
def Entry.matches (e : Entry) (ty ex : Nat) (key : List Nat) : Bool :=
  match ty with
  | 0 => e.key == key
  | 1 | 2 => e.key == lpmCut ty e.plen key
  | 3 => (List.range key.length).all fun i => Nat.land (key.getD i 0) (e.aux.getD i 0) == Nat.land (e.key.getD i 0) (e.aux.getD i 0)
  | _ => e.key.take ex == key.take ex && decide (beNat (e.key.drop ex) ≤ beNat (key.drop ex)) &&
      decide (beNat (key.drop ex) ≤ beNat (e.aux.drop ex))

/-- The better of two matches (R174): the longer prefix; the lower PRIORITY, then the lower index. `a` has the lower index. -/
def better (ty : Nat) (a b : Nat × Entry) : Nat × Entry :=
  if ty = 1 ∨ ty = 2 then if a.2.plen < b.2.plen then b else a
  else if 3 ≤ ty then if b.2.prio < a.2.prio then b else a
  else a

/-- The lookup of R174. An UNFIT table holds nothing (R172). -/
def Dev.tableFind (d : Dev) (n : Nat) (key : List Nat) : Option (Nat × Entry) :=
  let ty := d.tType n
  let ms := (d.entriesOf n).filter fun e => e.2.matches ty (d.get F.TABLE_DESC_CFG_EXACT_LEN n) key
  match ms with
  | [] => none
  | m :: rest => some (rest.foldl (better ty) m)

/-- What a walk finds now. -/
def Dev.walkRes (d : Dev) (n : Nat) (key : List Nat) (handle : Option Nat) : WRes :=
  { hit := match handle with
      | some h => (d.entry n (h % 2 ^ 28)).map fun e => (h % 2 ^ 28, e)
      | none => d.tableFind n key,
    wseq := d.tSeq n }

/-- A change of a table: every walk in flight on it may see the table as it now stands (R177), except one that started
before a batch was published (R199). -/
def Dev.tableSeen (d : Dev) (n : Nat) : Dev :=
  { d with tbl := { d.tbl with walks := d.tbl.walks.map fun w =>
      if w.table = n ∧ ¬ w.cold then { w with seen := w.seen ++ [d.walkRes n w.key w.handle] } else w } }

/-- A write reaches the lines of an entry: a fill in flight on one of them is voided (R167). -/
def Dev.voidFills (d : Dev) (n i : Nat) : Dev :=
  if d.get F.TABLE_DESC_CFG_PLACE n ≠ 0 then d
  else
    let hit := d.tbl.fills.filter fun f => (Config.entryLines n i).contains f.1 && !d.tbl.voided.contains f.1
    let d := { d with tbl := { d.tbl with voided := d.tbl.voided ++ hit.map (·.1) } }
    hit.foldl (fun d _ => d.count .TABLE_FILL_VOID_CNT) d

/-- The next WRITE_SEQ (R178): it wraps to 1. -/
def nextSeq (s : Nat) : Nat := if s = 0xFFFFFFFF then 1 else s + 1

/-- The `k`-th index, from 0, that a rising list of used indices leaves free. -/
def kthFree : List Nat → Nat → Nat
  | [], k => k
  | u :: t, k => if u ≤ k then kthFree t (k + 1) else k

/-- The index that a new entry takes. -/
def Dev.newIndex (d : Dev) (n : Nat) : Nat :=
  let used := (d.entriesOf n).map (·.1)
  let free := d.get F.TABLE_DESC_CAP_CAPACITY n - used.length
  kthFree used (Config.entryIndex n (d.tSeq n) % (if free = 0 then 1 else free))

/-- The status codes of Table 08-4. -/
def tOK : Nat := 0
def tEXISTS : Nat := 1
def tNOT_FOUND : Nat := 2
def tFULL : Nat := 3
def tNO_DESC : Nat := 4
def tNOT_OWNER : Nat := 5
def tBAD_FIELD : Nat := 6
def tNO_SPACE : Nat := 7
def tIN_USE : Nat := 8
def tREPLICATED : Nat := 9
def tREMOTE_FAIL : Nat := 0xA
def tMEM_ERR : Nat := 0xB
def tBATCH_TIMEOUT : Nat := 0xC
def tBATCH_TOO_LARGE : Nat := 0xD

/-- The entry with a stored key. -/
def Dev.findStored (d : Dev) (n : Nat) (key aux : List Nat) (plen prio : Nat) : Option (Nat × Entry) :=
  (d.entriesOf n).find? fun e => e.2.stored (d.tType n) key aux plen prio

/-- PLEN is in range for the type (Table 08-2). -/
def Dev.plenOk (d : Dev) (n plen : Nat) : Bool :=
  if d.tType n = 1 then decide (plen ≤ 32) else if d.tType n = 2 then decide (plen ≤ 128) else true

/-- INSERT (R178, R193, R207). -/
def Dev.tableInsert (d : Dev) (n : Nat) (key aux : List Nat) (plen prio : Nat) (res : List Nat) : Dev × TRes :=
  if !d.plenOk n plen then (d, { status := tBAD_FIELD })
  else if (d.findStored n key aux plen prio).isSome then (d, { status := tEXISTS })
  else if d.flag F.TABLE_DESC_CFG_UNFIT n || decide (d.get F.TABLE_DESC_CAP_CAPACITY n ≤ d.tEntries n) then
    (d, { status := tFULL })
  else
    let i := d.newIndex n
    let v := nextSeq (d.tSeq n)
    let d := d.setEntry n i (some { key := storedKey (d.tType n) plen key, aux := aux, plen := plen, prio := prio, res := res, vtag := v })
    let d := (d.wr .TABLE_DESC_SEQ n v).put F.TABLE_DESC_CAP_ENTRIES n (d.tEntries n + 1)
    (d.voidFills n i, { handle := d.handle n i, vtag := v })

/-- MODIFY of a found entry (R178, R207, R209). A repair writes the entry to new storage from the reserve. -/
def Dev.tableModify (d : Dev) (n i : Nat) (e : Entry) (res : List Nat) (rst : Bool) : Dev × TRes :=
  let v := nextSeq (d.tSeq n)
  let e' := { e with res := res, vtag := v, lost := false, lostDue := false, keyLost := false }
  let e' := if rst then { e' with hits := 0, acc := 0, cHits := 0, cAcc := 0 } else e'
  let d := if e.lost then { d with tbl := { d.tbl with remapped := d.tbl.remapped + 4096 } } else d
  let d := (d.setEntry n i (some e')).wr .TABLE_DESC_SEQ n v
  (d.voidFills n i, { handle := d.handle n i, vtag := v })

/-- DELETE of a found entry (R178). -/
def Dev.tableDelete (d : Dev) (n i : Nat) (e : Entry) : Dev × TRes :=
  let v := nextSeq (d.tSeq n)
  let d := (d.setEntry n i none).wr .TABLE_DESC_SEQ n v
  let d := d.put F.TABLE_DESC_CAP_ENTRIES n (d.tEntries n - 1)
  (d.voidFills n i, { handle := d.handle n i, vtag := v, old := e })

/-- A descriptor is named by a TREF of a bound slot (Table 08-4, IN_USE). -/
def Dev.trefNames (d : Dev) (n : Nat) : Bool := d.trefs.cells.any fun c => c.2.table == some n

/-- DESC_DESTROY (Table 08-3): VALID 0, the storage is freed. -/
def Dev.descDestroy (d : Dev) (n : Nat) : Dev × TRes :=
  if d.trefNames n then (d, { status := tIN_USE })
  else
    let d := { d with tbl := { d.tbl with entries := ⟨d.tbl.entries.cells.filter fun c => c.1 / 2 ^ 28 != n⟩ } }
    (((d.wr .TABLE_DESC_CFG n 0).wr .TABLE_DESC_CAP n 0).wr .TABLE_DESC_SEQ n 0, {})

/-- The table of a write. -/
def TOp.table : TOp → Nat
  | .insert n .. => n
  | .modify n .. => n
  | .delete n .. => n
  | .modifyH n .. => n
  | .deleteH n .. => n
  | .destroy n => n

/-- A single write as the update engine applies it (R178, R198, R209): the engine's checks in the order NO_DESC,
NOT_FOUND or EXISTS, FULL. -/
def Dev.tableOp (d : Dev) (op : TOp) : Dev × TRes :=
  let n := op.table
  if !d.tValid n then (d, { status := tNO_DESC })
  else
    let r := match op with
      | .insert n k a pl pr res => d.tableInsert n k a pl pr res
      | .modify n k a pl pr res rst =>
        if !d.plenOk n pl then (d, { status := tBAD_FIELD })
        else match d.findStored n k a pl pr with
          | some e => if e.2.keyLost then (d, { status := tMEM_ERR }) else d.tableModify n e.1 e.2 res rst
          | none => (d, { status := tNOT_FOUND })
      | .delete n k a pl pr =>
        if !d.plenOk n pl then (d, { status := tBAD_FIELD })
        else match d.findStored n k a pl pr with
          | some e => if e.2.keyLost then (d, { status := tMEM_ERR }) else d.tableDelete n e.1 e.2
          | none => (d, { status := tNOT_FOUND })
      | .modifyH n h res rst => match d.entry n (h % 2 ^ 28) with
          | some e => d.tableModify n (h % 2 ^ 28) e res rst
          | none => (d, { status := tNOT_FOUND })
      | .deleteH n h => match d.entry n (h % 2 ^ 28) with
          | some e => d.tableDelete n (h % 2 ^ 28) e
          | none => (d, { status := tNOT_FOUND })
      | .destroy n => d.descDestroy n
    if r.2.status = tOK then (r.1.tableSeen n, r.2) else r

/-! ### Storage (R170 to R172) -/

/-- `a` rounded up to a multiple of `b`. -/
def roundUp (a b : Nat) : Nat := ceilDiv a b * b

/-- The footprint of a table in bytes, in 4 KiB units (Table 07-4, R171). -/
def footprint (ty keyLen resLen cap : Nat) : Nat :=
  let per := if ty = 0 then 2 * roundUp (keyLen + resLen) 64
    else if ty = 1 then 192 + roundUp resLen 64
    else if ty = 2 then 2 * (192 + roundUp resLen 64)
    else if keyLen ≤ 40 ∧ resLen ≤ 64 then 1024 else 2048
  roundUp (per * cap) 4096

/-- The index units that a table takes of its type's limit (Table 07-4). -/
def indexUnits (ty cap : Nat) : Nat := if ty = 2 then 2 * cap else cap

/-- The group of types that share an index limit, and the limit. -/
def indexGroup (ty : Nat) : Nat := if ty = 0 then 0 else if ty ≤ 2 then 1 else 2
def indexLimit (g : Nat) : Nat := if g = 0 then 16777216 else if g = 1 then 8388608 else 1048576

/-- The valid descriptors that hold storage. -/
def Dev.storedDescs (d : Dev) : List Nat :=
  (List.range 1024).filter fun n => d.tValid n && !d.flag F.TABLE_DESC_CFG_UNFIT n

/-- The footprint of descriptor `n`. -/
def Dev.tFootprint (d : Dev) (n : Nat) : Nat :=
  footprint (d.tType n) (d.tKeyLen n) (d.tResLen n) (d.get F.TABLE_DESC_CAP_CAPACITY n)

/-- The sum of a quantity over descriptors. -/
def sumOf (l : List Nat) (f : Nat → Nat) : Nat := l.foldl (fun a n => a + f n) 0

/-- A table of the given type, placement and size fits (R170, R171). -/
def Dev.tableFits (d : Dev) (ty place keyLen resLen cap : Nat) : Bool :=
  let ds := d.storedDescs
  let g := indexGroup ty
  let units := sumOf (ds.filter fun n => indexGroup (d.tType n) == g) fun n =>
    indexUnits (d.tType n) (d.get F.TABLE_DESC_CAP_CAPACITY n)
  let used := sumOf (ds.filter fun n => d.get F.TABLE_DESC_CFG_PLACE n == place) d.tFootprint
  let room := if place = 0 then (d.get F.BUF_HBM_PARTITION_ACTIVE_GIB - 1) * 2 ^ 30
    else d.get F.TABLE_T1_CFG_PINNED_STEP * 4 * 2 ^ 20
  decide (units + indexUnits ty cap ≤ indexLimit g) && decide (used + footprint ty keyLen resLen cap ≤ room)

/-- The tables of an owner within its quotas (R409): one more descriptor of the given footprint. -/
def Dev.quotaFits (d : Dev) (owner place fp : Nat) : Bool :=
  let ds := (List.range 1024).filter fun n => d.tValid n && d.tOwner n == owner
  let mib := sumOf ds fun n => ceilDiv (d.tFootprint n) (2 ^ 20)
  decide (ds.length < d.rangeCount owner 8) && decide (mib + ceilDiv fp (2 ^ 20) ≤ d.rangeCount owner 9) &&
    (place == 0 || decide (owner < 4))

/-- Items 1 to 4 of R169 and the two field checks, on a DESC_CFG image and a CAPACITY word. -/
def descBad (img cap : Nat) : Bool :=
  let ty := bits img 1 3
  let place := bits img 4 2
  let scope := bits img 6 2
  let kl := bits img 32 7
  let rl := bits img 40 8
  let ex := bits img 48 7
  let rs := bits img 55 2
  let owner := bits img 16 12
  bits img 13 3 != 0 || bits img 28 4 != 0 || bits img 39 1 != 0 || bits img 57 7 != 0
    || decide (4 < ty) || decide (1 < place) || decide (2 < scope) || decide (2051 < owner)
    || !(if ty = 0 ∨ ty = 3 then decide (1 ≤ kl ∧ kl ≤ 64) else if ty = 1 then kl == 6 else if ty = 2 then kl == 18
        else decide (rs ≤ 2) && decide (ex ≤ 16) && kl == ex + 2 ^ (rs + 1))
    || rl % 8 != 0 || decide (rl < 24) || decide (128 < rl)
    || (scope != 0 && decide (4 ≤ owner)) || (scope == 2 && place != 0)
    || decide (2 ^ 28 ≤ cap) || cap == 0 || (ty != 4 && (ex != 0 || rs != 0))
    || ((bit img 9 || bit img 10) && ty != 0)

/-- Write a descriptor (R168): VALID 1, AGE_CFG and LEARN_CFG at their reset values. -/
def Dev.writeDesc (d : Dev) (n img cap : Nat) (unfit : Bool) : Dev :=
  let d := d.wr .TABLE_DESC_CFG n (setBits (setBits img 0 1 1) 12 1 (b2n unfit))
  let d := (d.wr .TABLE_DESC_CAP n cap).wr .TABLE_DESC_SEQ n 0
  (d.wr .TABLE_AGE_CFG n (Reg.reset .TABLE_AGE_CFG n)).wr .TABLE_LEARN_CFG n (Reg.reset .TABLE_LEARN_CFG n)

/-- DESC_CREATE (R169 to R171, R409); `quota` is false at start-up (R409). -/
def Dev.descCreate (d : Dev) (n img cap : Nat) (quota : Bool) : Dev × Nat :=
  let ty := bits img 1 3
  let place := bits img 4 2
  let kl := bits img 32 7
  let rl := bits img 40 8
  if d.tValid n then (d, tIN_USE)
  else if descBad img cap then (d, tBAD_FIELD)
  else if !d.tableFits ty place kl rl cap || (quota && !d.quotaFits (bits img 16 12) place (footprint ty kl rl cap)) then
    (d, tNO_SPACE)
  else (d.writeDesc n img cap false, tOK)

/-! ### Notices, results and confirms -/

/-- The words of a table notice (Table 08-8). -/
def noteWords (type n : Nat) (full : Bool) (hs vtag dtb stamp : Nat) (key : List Nat) : List Nat :=
  [type + n * 2 ^ 4 + b2n full * 2 ^ 14, hs % 2 ^ 32, hs / 2 ^ 32 % 2 ^ 32, vtag, dtb % 2 ^ 32, dtb / 2 ^ 32 % 2 ^ 32,
   stamp % 2 ^ 32, stamp / 2 ^ 32 % 2 ^ 32] ++ (List.range 16).map fun i => leNat (slice key (4 * i) 4)

/-- A notice of a table goes to the ring of the PF that owns the table's OWNER (R206). -/
def Dev.note (d : Dev) (type n : Nat) (full : Bool) (hs vtag stamp : Nat) (key : List Nat) : Dev :=
  d.tableNote (d.pfOf (d.tOwner n)) type (noteWords type n full hs vtag d.now stamp key)

/-- The result of a hit (R175): the result record and the trailer of Table 07-7. -/
def Dev.hitBytes (d : Dev) (n i : Nat) (e : Entry) (t1 remote : Bool) : List Nat :=
  let h := d.handle n i
  let ty := d.tType n
  let w3 := (if ty = 1 ∨ ty = 2 then e.plen else 0) + b2n t1 * 2 ^ 8 + b2n remote * 2 ^ 9 +
    (if 3 ≤ ty then e.prio else 0) * 2 ^ 12
  slice e.res 0 (d.tResLen n - 16) ++ toLe 8 h ++ toLe 4 e.vtag ++ toLe 4 w3

end Sys2Proof.Machine
end

