-- ==== Sys2Proof/Machine/Tables.lean ====
section
/-!
DEFINITION. What the commands of TABLE share (07, 08): the residency cache, entry counters and atomics, sources of writes
and their results, deferral, notices of learning, and the completion of a walk.
-/
namespace Sys2Proof.Machine

/-- An island's memory fault of a table entry's storage (R180, R209, Table 21-5): HBM_UE, or T1_SRAM_UE for a PINNED
table. -/
def Dev.entryFault (d : Dev) (n i : Nat) : Dev :=
  let k := if d.get F.TABLE_DESC_CFG_PLACE n = 0 then 8 else 3
  { d with ftq := d.ftq ++ [⟨1, k, 22, 23, (Config.entryLines n i).headD 0, 0, d.mono⟩] }

/-! ### The residency cache (R165 to R167) -/

/-- The number of sets in force. -/
def Dev.cacheSets (d : Dev) : Nat := d.get F.TABLE_T1_CFG_CACHE_MIB * 1024

/-- The set of a line. -/
def Dev.setOf (d : Dev) (line : Nat) : Nat :=
  Config.cacheSet line d.cacheSets % (if d.cacheSets = 0 then 1 else d.cacheSets)

/-- A line is resident. -/
def Dev.resident (d : Dev) (line : Nat) : Bool := (d.tbl.cache.get (d.setOf line)).contains line

/-- Set the lines of a set, most recently used first. -/
def Dev.setCache (d : Dev) (line : Nat) (l : List Nat) : Dev :=
  { d with tbl := { d.tbl with cache := d.tbl.cache.set (d.setOf line) (l.take 16) } }

/-- One access of a walk to an HBM line (R166): a hit promotes except for a shadow walk; a miss starts a fill. -/
def Dev.access (d : Dev) (shadow : Bool) (line : Nat) : Dev :=
  if d.resident line then
    if shadow then d else d.setCache line (line :: (d.tbl.cache.get (d.setOf line)).filter (· != line))
  else if d.tbl.fills.any (·.1 == line) then d
  else { d with tbl := { d.tbl with fills := d.tbl.fills ++ [(line, shadow)] } }

/-- A line is installed (R166): at most recently used, or at position 8 of the recency order for a shadow fill. -/
def Dev.install (d : Dev) (shadow : Bool) (line : Nat) : Dev :=
  let l := d.tbl.cache.get (d.setOf line)
  if shadow then d.setCache line (l.take 8 ++ line :: l.drop 8)
  else (d.setCache line (line :: l)).count .TABLE_T1_FILL_CNT

/-! ### Entry counters and atomics (R180, R197, R207) -/

/-- A WRAP64 sum; `true` where it wraps. -/
def wrapAdd (v n : Nat) : Nat × Bool := ((v + n) % 2 ^ 64, decide (2 ^ 64 ≤ v + n))

/-- Change an entry without a new VTAG; a fill in flight on its lines is voided (R167). -/
def Dev.touchEntry (d : Dev) (n i : Nat) (e : Entry) : Dev := (d.setEntry n i (some e)).voidFills n i

/-- Add to an entry's HITS or ACC; a wrap sets the TABLE block's WRAPPED (R207). -/
def Dev.entryCount (d : Dev) (n i : Nat) (e : Entry) (hits : Bool) (amt : Nat) : Dev :=
  let r := wrapAdd (if hits then e.hits else e.acc) amt
  let d := d.touchEntry n i (if hits then { e with hits := r.1 } else { e with acc := r.1 })
  if r.2 then d.put F.BLK_STATUS_WRAPPED (15 + 23) 1 else d

/-- CNT_ADD ENTRY at the entry's owner (R197). -/
def Dev.cntEntry (d : Dev) (n h amt : Nat) : Dev :=
  match d.entry n (h % 2 ^ 28) with
  | some e => if e.lost then d.count .TABLE_CNT_MISS else d.entryCount n (h % 2 ^ 28) e false amt
  | none => d.count .TABLE_CNT_MISS

/-- The new value of an atomic operation (Table 07-9), or none where a CAS compare fails (R102). -/
def atomicNew (op w old arg cmp : Nat) : Option Nat :=
  let m := 256 ^ w
  let a := arg % m
  let sg (v : Nat) := signed (8 * w) v
  match op with
  | 0 => some ((old + a) % m)
  | 1 => some a
  | 2 => if old = cmp % m then some a else none
  | 3 => some (if sg a < sg old then a else old)
  | 4 => some (if sg old < sg a then a else old)
  | 5 => some (if a < old then a else old)
  | _ => some (if old < a then a else old)

/-- An ATOMIC effect at the entry's owner (R180, R102). -/
def Dev.atomicEff (d : Dev) (n : Nat) (blk : List Nat) : Dev :=
  let w0 := leNat (slice blk 0 4)
  let i := leNat (slice blk 8 8) % 2 ^ 28
  match d.entry n i with
  | none => d.count .TABLE_ATOMIC_MISS
  | some e =>
    if e.lost then (d.count .TABLE_ATOMIC_MISS).entryFault n i
    else
      let w := if bits w0 4 2 = 0 then 4 else 8
      let off := bits w0 8 7
      match atomicNew (bits w0 0 4) w (leNat (slice e.res off w)) (leNat (slice blk 16 8)) (leNat (slice blk 24 8)) with
      | some v => d.touchEntry n i { e with res := splice e.res off (toLe w v) }
      | none => d.count .TABLE_CAS_FAIL

/-! ### Window results -/

/-- 64-bit words of a byte area at an offset. -/
def wordsAt (off : Nat) (b : List Nat) : List (Nat × Nat) :=
  (List.range (ceilDiv b.length 8)).map fun i => (off + 8 * i, leNat (slice b (8 * i) 8))

/-- The result area of a table access window (R192). -/
def tawRes (opc n : Nat) (r : TRes) (area : List Nat) : List (Nat × Nat) :=
  [(0x20, r.status + opc * 2 ^ 8 + n * 2 ^ 16 + r.vtag * 2 ^ 32), (0x28, r.handle)] ++ wordsAt 0x200 area

/-- The counters of an entry as CNT_READ returns them (Table 08-7). -/
def Dev.cntArea (d : Dev) (n : Nat) (e : Entry) : List Nat :=
  let h := d.flag F.TABLE_DESC_CFG_HIT_CNT n
  toLe 8 (if h then e.hits else 0) ++ toLe 8 (if h then e.cHits else 0) ++ toLe 8 e.acc ++ toLe 8 e.cAcc

/-- The opcode of a write (Table 08-3). -/
def TOp.opc : TOp → Nat
  | .insert .. => 1
  | .modify .. => 2
  | .delete .. => 3
  | .modifyH .. => 6
  | .deleteH .. => 7
  | .destroy _ => 10

/-- The result area of a completed write. -/
def Dev.writeRes (d : Dev) (op : TOp) (r : TRes) : List (Nat × Nat) :=
  tawRes op.opc op.table r (if r.status = tOK ∧ (op.opc = 3 ∨ op.opc = 7) then d.cntArea op.table r.old else [])

/-- The window of a code, as `TAW[w]`. -/
def tawOf (w : Nat) : WinId := .taw (Fin.ofNat 5 w)

/-! ### Sources of writes (R196, R202, R205) -/

/-- What follows an applied or refused write, by its source: a window completes; a TWR that fails counts TWR_FAIL; a learn
insertion writes its notice (a key already present makes the insertion a no-op). -/
def Dev.settle (d : Dev) (src : TSrc) (op : TOp) (r : TRes) : Dev :=
  match src with
  | .window w => d.winDone (tawOf w) (d.writeRes op r)
  | .effect => if r.status = tOK then d else d.count .TABLE_TWR_FAIL
  | .learn stamp =>
    match op with
    | .insert n key .. =>
      if r.status = tOK then d.note 1 n false r.handle r.vtag stamp key
      else if r.status = tFULL then d.note 1 n true 0 0 stamp key
      else d
    | _ => d
  | .bulk => d

/-- Apply a write and settle its source. -/
def Dev.applyOp (d : Dev) (src : TSrc) (op : TOp) : Dev :=
  let r := d.tableOp op
  r.1.settle src op r.2

/-- The table that a bulk record names. -/
def recTable (r : List Nat) : Nat := bits (leNat (slice r 0 8)) 8 10

/-- A table is held: a batch that is staging names it (R201). -/
def Dev.tableHeld (d : Dev) (n : Nat) : Bool := d.tbl.bulk.any fun b => b.recs.any fun r => recTable r == n

/-- A write from any source but a batch (R202): deferred on a held table, applied otherwise. -/
def Dev.tableWrite (d : Dev) (src : TSrc) (op : TOp) : Dev :=
  if d.tableHeld op.table then { d with tbl := { d.tbl with deferred := d.tbl.deferred ++ [⟨op, src⟩] } }
  else d.applyOp src op

/-- A TWR reaches the engine: none where the deferral queue is full and the engine withholds its acknowledgement (R202). -/
def Dev.twr (d : Dev) (op : TOp) : Option Dev :=
  if d.tableHeld op.table && decide (32768 ≤ d.tbl.deferred.length) then none else some (d.tableWrite .effect op)

/-- The deferred writes of tables no longer held are applied in arrival order (R202). -/
def Dev.undefer (d : Dev) : Dev :=
  let now := d.tbl.deferred.filter fun x => !d.tableHeld x.op.table
  let d := { d with tbl := { d.tbl with deferred := d.tbl.deferred.filter fun x => d.tableHeld x.op.table } }
  now.foldl (fun d x => d.applyOp x.src x.op) d

/-! ### Shards (R185 to R188) -/

/-- Own member ID. -/
def Dev.me (d : Dev) : Nat := d.get F.GRP_STATUS_ID

/-- The owner of a shard. -/
def Dev.shardOwner (d : Dev) (key : List Nat) : Nat := d.get F.TABLE_SHARD_MAP_OWNER (crc32c key % 256)

/-- A member is current: in CURRENT, with this member in service. -/
def Dev.isCurrent (d : Dev) (m : Nat) : Bool :=
  m != 0 && d.get F.GRP_STATUS_STATE == 3 && bit (d.get F.GRP_STATUS_CURRENT) (m - 1)

/-- The member that stores the entry of a handle (R176). -/
def handleOwner (h : Nat) : Nat := bits h 38 2 + 1

/-- A committed TABLE_WRITE effect as a write: its key and record as side data (R194). -/
def effWrite (n op plen : Nat) (key res : List Nat) : TOp :=
  match op with
  | 0 => .insert n key [] plen 0 res
  | 1 => .modify n key [] plen 0 res false
  | _ => .delete n key [] plen 0

/-- A table effect at the entry's owner: none where it is not acknowledged. -/
def Dev.effTable (d : Dev) (e : Eff) : Option Dev :=
  match e with
  | .tableWrite n op plen key res => d.twr (effWrite n op plen key res)
  | .cntEntry n h amt => some (d.cntEntry n h amt)
  | .atomic n blk => some (d.atomicEff n blk)
  | _ => some d

/-! ### Learning (R205) -/

/-- A learn notice enters the filter. The filter keeps the most recent 8,192 notices. -/
def Dev.learn (d : Dev) (n : Nat) (key : List Nat) (stamp : Nat) : Dev :=
  let hold := d.get F.TABLE_LEARN_CFG_HOLDOFF_US n * 1000
  if d.flag F.TABLE_DESC_CFG_UNFIT n then d
  else if d.tbl.learned.any fun f => f.1 == n && f.2.1 == key && decide (d.mono < f.2.2 + hold) then
    d.count .TABLE_LEARN_SUPPRESSED
  else
    let l := d.tbl.learned.filter (fun f => !(f.1 == n && f.2.1 == key))
    let l := (if l.length < 8192 then l else l.drop 1) ++ [(n, key, d.mono)]
    let d : Dev := { d with tbl := { d.tbl with learned := l } }
    if d.get F.TABLE_LEARN_CFG_MODE n == 1 then
      d.tableWrite (.learn stamp) (.insert n key [] 0 0 (List.replicate (d.tResLen n - 16) 0))
    else d.note 1 n false stamp 0 0 key

/-! ### Completion of a walk (R179, R183) -/

/-- Answer a ticket that still waits for the request. -/
def Dev.answer (d : Dev) (th tk id : Nat) (resp : TkResp) (sh : Option Shadow) : Dev :=
  let t := d.ths.get th
  let k := t.tks.get tk
  if k.st = 1 ∧ k.sent = id then
    { d with ths := d.ths.set th { t with tks := t.tks.set tk { k with resp := some resp, shadow := sh } } }
  else d

/-- Entry-side behaviour at the member that stores the entry (R179): a hit counts and sets the activity bit, a miss emits a
learn notice. -/
def Dev.entrySide (d : Dev) (n : Nat) (hit : Option Nat) (key : List Nat) (stamp : Nat) : Dev :=
  match hit with
  | some i =>
    match d.entry n i with
    | some e =>
      let e' := if d.flag F.TABLE_DESC_CFG_AGE_EN n then { e with active := true } else e
      if d.flag F.TABLE_DESC_CFG_HIT_CNT n then d.entryCount n i e' true 1
      else if e' = e then d else d.touchEntry n i e'
    | none => d
  | none => if d.flag F.TABLE_DESC_CFG_LEARN n then d.learn n key stamp else d

/-- The counters at the issuing member (R179): `st` the status of a completion that is not a shadow walk; TRD counts
errors only. -/
def Dev.lookupCount (d : Dev) (n st : Nat) (trd : Bool) : Dev :=
  if st = 5 ∨ st = 7 then d.count .TABLE_LK_ERR n
  else if trd then d
  else if st = 0 then (d.count .TABLE_LK_LOOKUPS n).count .TABLE_LK_HITS n
  else if st = 1 then d.count .TABLE_LK_LOOKUPS n
  else d

/-- What a walk answers: the status, the entry hit and the bytes for LOCAL, and the shadow that an LKS retains. `r` is what
the walk saw. -/
structure Answer where
  status : Nat
  hit    : Option Nat := none
  bytes  : List Nat := []
  shadow : Option Shadow := none

/-- The answer of a lookup or TRD (R175, R176, R180). -/
def Dev.lookupAnswer (d : Dev) (w : Walk) (r : WRes) : Answer :=
  match r.hit with
  | none => { status := 1, shadow := if w.shadow then some ⟨w.table, w.key, none, r.wseq⟩ else none }
  | some (i, e) =>
    if e.lost then { status := 5 }
    else { status := 0, hit := some i, bytes := d.hitBytes w.table i e w.t1 w.from_.isSome,
           shadow := if w.shadow then some ⟨w.table, w.key, some (d.handle w.table i, e.vtag), r.wseq⟩ else none }

/-- The answer of an LKC (R183). `first` is what the confirm saw at its first access. -/
def Dev.confirmAnswer (d : Dev) (s : Shadow) (first r : WRes) : Answer :=
  let same (x : Nat × Entry) := s.found == some (d.handle s.table x.1, x.2.vtag)
  match s.found with
  | some _ =>
    if d.tType s.table ≠ 0 ∧ first.wseq = s.wseq then
      { status := 0, hit := s.found.map fun f => f.1 % 2 ^ 28 }
    else match r.hit with
      | some x => if x.2.lost then { status := 5 } else if same x then { status := 0, hit := some x.1 } else { status := 2 }
      | none => { status := 2 }
  | none =>
    if first.wseq = s.wseq then { status := 1 }
    else match r.hit with
      | none => { status := 1 }
      | some x => if x.2.lost then { status := 5 } else { status := 2 }

/-- The walk reads the entry itself rather than the structure: a TRD, or an LKC of an EXACT hit (R183). -/
def Dev.walkHandle (d : Dev) (s : Shadow) : Option Nat :=
  match s.found with
  | some f => if d.tType s.table = 0 then some f.1 else none
  | none => none

/-- A walk has its answer: entry-side behaviour here, and the ticket or the member that asked gets it. -/
def Dev.walkDone (d : Dev) (w : Walk) (a : Answer) : Dev :=
  let d := { d with tbl := { d.tbl with walks := d.tbl.walks.filter (·.id != w.id) } }
  let trd := w.handle.isSome && w.confirm.isNone
  let d := if w.shadow || trd || decide (1 < a.status) then d else d.entrySide w.table a.hit w.key w.stamp
  let bytes := if w.confirm.isSome then [] else a.bytes
  match w.from_ with
  | some m => d.emit (.tableRsp m w.th (.ticket a.status bytes.length bytes a.shadow))
  | none =>
    let d := if w.shadow then d else d.lookupCount w.table a.status trd
    d.answer w.th w.tk w.id { status := a.status, aux := bytes.length, bytes := bytes } a.shadow

end Sys2Proof.Machine
end

