-- ==== Sys2Proof/Machine/Crypto.lean ====
section
/-!
DEFINITION. MACsec and IPsec Offload (12): the SA context as bytes, the crypto window's results, the SA directory,
VERDICT and SAQRY, the move of a replay window, protection at transmit, and what a reset does to an instance's SAs.
-/
namespace Sys2Proof.Machine

/-- An SA. -/
def Dev.sa (d : Dev) (n : Nat) : SA := d.cry.sas.get n

/-- Store an SA. -/
def Dev.setSa (d : Dev) (n : Nat) (a : SA) : Dev := { d with cry := { d.cry with sas := d.cry.sas.set n a } }

/-- HARD (R288). -/
def SA.hard (a : SA) : Nat := if a.ext then 2 ^ 64 - 1 else 2 ^ 32 - 1

/-- The soft threshold of an outbound SA (Table 12-2). -/
def SA.soft (a : SA) : Nat := a.hard - 2 ^ a.softLog2

/-- The bits of the replay bitmap that the context or a wide window stores. -/
def SA.mapBits (a : SA) : Nat := if a.win ≤ 32 then 32 else 1024

/-- The 32 bytes of a context (Table 12-2). -/
def SA.bytes (a : SA) : List Nat :=
  let w0 := b2n a.valid + b2n a.inbound * 2 + b2n a.esp * 4 + b2n a.key256 * 8 + b2n a.ext * 16 + a.icvLen % 4 * 32
    + a.conf % 4 * 128 + b2n a.replay * 512 + a.win % 2048 * 1024 + a.an % 4 * 2 ^ 21 + b2n a.softHit * 2 ^ 23
    + b2n a.exh * 2 ^ 24 + b2n a.txSci * 2 ^ 25 + a.softLog2 % 64 * 2 ^ 26
  let w7 := if !a.inbound then 0 else if a.win ≤ 32 then a.bitmap % 2 ^ 32 else a.wide.getD 0
  toLe 4 w0 ++ toLe 4 (a.keySlot % 2 ^ 15 + a.owner % 2 ^ 12 * 2 ^ 15) ++ toLe 8 a.pn ++ toLe 8 a.sci ++ toLe 4 a.ssci
    ++ toLe 4 w7

/-- A context image of SA_CREATE: the status bits are ignored and start at 0. -/
def SA.ofBytes (l : List Nat) : SA :=
  let w0 := leNat (slice l 0 4)
  let w1 := leNat (slice l 4 4)
  { valid := bit w0 0, inbound := bit w0 1, esp := bit w0 2, key256 := bit w0 3, ext := bit w0 4, icvLen := bits w0 5 2,
    conf := bits w0 7 2, replay := bit w0 9, win := bits w0 10 11, an := bits w0 21 2, txSci := bit w0 25,
    softLog2 := bits w0 26 6, keySlot := bits w1 0 15, owner := bits w1 15 12, pn := leNat (slice l 8 8),
    sci := leNat (slice l 16 8), ssci := leNat (slice l 24 4), bitmap := leNat (slice l 28 4) }

/-- A field of a context image breaks Table 12-2 (status BAD_FIELD). -/
def SA.badImage (l : List Nat) : Bool :=
  let a := SA.ofBytes l
  !a.valid || a.icvLen == 3 || (!a.esp && a.icvLen != 0) || (a.esp && a.conf != 1) || decide (1024 < a.win)
    || (!a.inbound && !a.ext && decide (31 < a.softLog2)) || decide (2051 < a.owner)
    || bits (leNat (slice l 4 4)) 27 5 != 0 || (!a.inbound && a.pn == 0) || decide (a.hard < a.pn)
    || (a.esp && decide (2 ^ 32 ≤ a.sci)) || (!(a.ext && !a.esp) && a.ssci != 0) || (!a.inbound && a.bitmap != 0)

/-! ### The crypto window (R291) -/

/-- The statuses of Table 12-6. -/
def cwOK : Nat := 0
def cwNOT_OWNER : Nat := 1
def cwBAD_FIELD : Nat := 2
def cwSA_EXISTS : Nat := 3
def cwNO_SA : Nat := 4
def cwKEY_EMPTY : Nat := 5
def cwKEY_IN_USE : Nat := 6
def cwUNWRAP_FAIL : Nat := 7
def cwNO_WINDOW : Nat := 8
def cwKEK_EMPTY : Nat := 9
def cwMEM_ERR : Nat := 10

/-- A command of window `w` completes with a status and the bytes of CW_RES after byte 7. -/
def Dev.cwDone (d : Dev) (w : Fin 5) (st : Nat) (area : List Nat := []) : Dev :=
  let d := if st = cwOK then d else d.count .CRYPTO_CW_ERR w.val
  d.winDone (.cw w) (wordsAt 0x200 ([st, 0, 0, 0, 0, 0, 0, 0] ++ area))

/-- Window `w` reaches the SAs of an instance: a PF's own and its VFs'; the steward's window reaches all. -/
def Dev.cwReachInst (d : Dev) (w : Fin 5) (inst : Nat) : Bool := w.val == 4 || d.pfOf inst == w.val

/-- Window `w` reaches a key slot: the PF owns it, or it is EMPTY. -/
def cwReachKey (w : Fin 5) (k : KeySlot) : Bool := w.val == 4 || k.key.isEmpty || k.owner == w.val

/-- The KCV of a key plaintext (R289). -/
def kcvOf (key : List Nat) : Nat := leNat ((Config.sha384 ([0x4D, 0x44, 0x59, 0x4B] ++ key)).take 4)

/-- A pod takes directory updates: neither in POD_RESET nor isolated (R292). -/
def Dev.dirPod (d : Dev) (p : Nat) : Bool := d.isUp p && !bit (d.get F.FCOL_PART_ISO_POD) p

/-- Write an SA's directory entry into every pod that takes updates (R292). -/
def Dev.writeDir (d : Dev) (sa v : Nat) : Dev :=
  (List.range 16).foldl (fun d p =>
    if d.dirPod p then { d with saDir := d.saDir.set (p * 65536 + sa) v } else d) d

/-- The directory entry of an SA as the SA store gives it. -/
def Dev.dirEntry (d : Dev) (sa : Nat) : Nat :=
  let a := d.sa sa
  if (d.cry.retiring.get sa).isSome then 3
  else if a.valid && !a.inbound then (if a.esp then 2 else 1) else 0

/-- The steward firmware rewrites a pod's whole directory from the SA store (R292). -/
def Dev.rewriteDir (d : Dev) (p : Nat) : Dev :=
  let clear := d.saDir.keys.filter fun k => k / 65536 == p
  let d : Dev := { d with saDir := clear.foldl (fun t k => t.set k 0) d.saDir }
  (d.cry.sas.keys ++ d.cry.retiring.keys).foldl (fun d sa =>
    { d with saDir := d.saDir.set (p * 65536 + sa) (d.dirEntry sa) }) d

/-- The first free wide window. -/
def Dev.freeWide (d : Dev) : Option Nat := (List.range 4096).find? fun i => !d.cry.wideUsed.contains i

/-- The instant at which an SA that begins to retire now is freed (R293). -/
def Dev.retireDue (d : Dev) : Nat := d.mono + (d.get F.TM_LIFETIME_LIFE_MS + 1) * 1000000

/-- SA_DESTROY's first step (R293): the entry retires in every pod and VALID becomes 0. -/
def Dev.retireSa (d : Dev) (sa : Nat) (win : Option Nat) : Dev :=
  let d := d.setSa sa { d.sa sa with valid := false }
  let due := d.retireDue
  let d : Dev := { d with cry := { d.cry with retiring := d.cry.retiring.set sa (some (due, win)) } }
  d.writeDir sa 3

/-- A key slot is set EMPTY and overwritten. -/
def Dev.zeroKey (d : Dev) (k : Nat) : Dev := { d with cry := { d.cry with keys := d.cry.keys.set k {} } }

/-- A key slot loses a reference; one that waits for it is zeroized (R305). -/
def Dev.unrefKey (d : Dev) (k : Nat) : Dev :=
  let x := d.cry.keys.get k
  let d : Dev := { d with cry := { d.cry with keys := d.cry.keys.set k { x with refs := x.refs - 1 } } }
  if d.cry.zeroize.contains k && x.refs - 1 == 0 then
    ({ d with cry := { d.cry with zeroize := d.cry.zeroize.filter (· != k) } } : Dev).zeroKey k
  else d

/-- The end of a retirement (R293): the context and its wide window are freed and the directory entry is none. -/
def Dev.freeSa (d : Dev) (sa : Nat) : Dev :=
  let a := d.sa sa
  let d : Dev := { d with cry := { d.cry with
    retiring := d.cry.retiring.set sa none,
    wideUsed := match a.wide with | some i => d.cry.wideUsed.filter (· != i) | none => d.cry.wideUsed } }
  ((d.setSa sa {}).unrefKey a.keySlot).writeDir sa 0

/-- The reset point of an instance (R305): its SAs begin to retire and their reservations are released. -/
def Dev.resetSas (d : Dev) (inst : Nat) : Dev :=
  (d.cry.sas.keys.filter fun n => (d.sa n).valid && (d.sa n).owner == inst).foldl (fun d n =>
    let d : Dev := { d with cry := { d.cry with resv := d.cry.resv.filter (·.sa != n) } }
    d.retireSa n none) d

/-- FUNCTION_RESET of a PF (R305): its key slots are zeroized once unreferenced. -/
def Dev.resetKeys (d : Dev) (pf : Nat) : Dev :=
  (d.cry.keys.keys.filter fun k => (d.cry.keys.get k).owner == pf && !(d.cry.keys.get k).key.isEmpty).foldl (fun d k =>
    if (d.cry.keys.get k).refs = 0 then d.zeroKey k
    else { d with cry := { d.cry with zeroize := d.cry.zeroize.filter (· != k) ++ [k] } }) d

/-! ### Receive (R297 to R302) -/

/-- XOR of byte strings. -/
def xorBytes (a b : List Nat) : List Nat := List.zipWith Nat.xor a b

/-- Key and salt of a slot (Table 12-3). -/
def SA.key (a : SA) (k : KeySlot) : List Nat := k.key.take (if a.key256 then 32 else 16)
def saltOf (k : KeySlot) : List Nat := slice k.key 32 12

/-- The nonce of an SA for a PN (R296): SCI and PN, or SSCI and the 64-bit PN XORed with the salt, or the ESP salt and IV. -/
def SA.nonce (a : SA) (k : KeySlot) (pn : Nat) (iv : List Nat) : List Nat :=
  if a.esp then (saltOf k).take 4 ++ iv
  else if a.ext then xorBytes (toBe 4 a.ssci ++ toBe 8 pn) (saltOf k)
  else toLe 8 a.sci ++ toBe 4 pn

/-- The confidentiality offset of a MACsec SA. -/
def SA.confOff (a : SA) (n : Nat) : Nat := match a.conf with | 0 => n | 1 => 0 | 2 => min 30 n | _ => min 50 n

/-- The fields of a 32-byte VERDICT request (Table 12-8). -/
structure VReq where
  sa : Nat
  decrypt : Bool
  hdr : Nat
  fin : Nat
  plainDst : Nat
  plainLen : Nat

/-- Read a request. -/
def VReq.of (l : List Nat) : VReq :=
  let w0 := leNat (slice l 0 4)
  let w3 := leNat (slice l 12 4)
  { sa := bits w0 0 16, decrypt := bit w0 16, hdr := bits (leNat (slice l 4 4)) 0 14, fin := bits (leNat (slice l 8 4)) 0 14,
    plainDst := bits w3 0 16, plainLen := bits w3 16 9 }

/-- Where the protected data of a packet begins (Table 12-9). -/
def SA.dataOff (a : SA) (b : List Nat) (hdr : Nat) : Nat :=
  if a.esp then hdr + 16 else if bit (b.getD (hdr + 2) 0) 5 then hdr + 16 else hdr + 8

/-- The header lies between HDR_OFF and ICV_END. -/
def SA.headerFits (a : SA) (b : List Nat) (q : VReq) : Bool := decide (a.dataOff b q.hdr ≤ q.fin ∧ q.fin ≤ b.length)

/-- TAG_ERR (Table 12-10). -/
def SA.tagErr (a : SA) (b : List Nat) (q : VReq) : Bool :=
  if !a.headerFits b q then false
  else if a.esp then beNat (slice b q.hdr 4) != a.sci
  else
    let t := b.getD (q.hdr + 2) 0
    let sl := b.getD (q.hdr + 3) 0
    let n := q.fin - a.icv - a.dataOff b q.hdr
    bit t 7 || bit t 3 != (a.conf != 0) || bit t 2 != (a.conf != 0) || t % 4 != a.an
      || (bit t 5 && leNat (slice b (q.hdr + 8) 8) != a.sci)
      || (decide (a.dataOff b q.hdr + a.icv ≤ q.fin) && sl != (if n < 48 then n else 0))

/-- LENGTH (Table 12-10). -/
def SA.lenErr (a : SA) (b : List Nat) (q : VReq) : Bool :=
  let o := a.dataOff b q.hdr
  !a.headerFits b q || decide (q.fin < o + a.icv)
    || (a.esp && (decide (q.fin - a.icv - o < 2) || (q.fin - a.icv - o) % 4 != 0))

/-- The 32-bit PN on the wire. -/
def SA.wirePn (_a : SA) (b : List Nat) (q : VReq) : Nat := beNat (slice b (q.hdr + 4) 4)

/-- The recovered PN (R298). -/
def SA.recover (a : SA) (w : Nat) : Nat :=
  if !a.ext then w
  else
    let b := max (a.pn + 1 - a.win) 1
    if b % 2 ^ 32 ≤ w then b / 2 ^ 32 * 2 ^ 32 + w else (b / 2 ^ 32 + 1) * 2 ^ 32 + w

/-- LATE (R298). -/
def SA.late (a : SA) (p : Nat) : Bool :=
  !a.ext && a.replay &&
    ((decide (0 < a.win) && decide (a.win ≤ a.pn) && decide (p ≤ a.pn - a.win)) || (a.win == 0 && decide (p ≤ a.pn)))

/-- Open a packet: the plaintext of its confidentiality-protected region, or none where the ICV fails. -/
def SA.open (a : SA) (k : KeySlot) (b : List Nat) (q : VReq) (p : Nat) : Option (List Nat) :=
  let o := a.dataOff b q.hdr
  let n := q.fin - a.icv - o
  if a.esp then
    let aad := if a.ext then toBe 4 a.sci ++ toBe 8 p else toBe 4 a.sci ++ toBe 4 p
    Config.gcmOpen a.icv (a.key k) (a.nonce k p (slice b (q.hdr + 8) 8)) aad (slice b o (n + a.icv))
  else
    let c := a.confOff n
    let aad := slice b (q.hdr - 12) 12 ++ slice b q.hdr (o - q.hdr) ++ slice b o c
    Config.gcmOpen a.icv (a.key k) (a.nonce k p []) aad (slice b (o + c) (n - c + a.icv))

/-- The PN is already accepted, or reserved by another stamp (REPLAY, R298, Table 12-10). -/
def Dev.replayed (d : Dev) (sa : Nat) (a : SA) (st p : Nat) : Bool :=
  (decide (p ≤ a.pn) && bit a.bitmap (a.pn - p)) || d.cry.resv.any fun r => r.sa == sa && r.pn == p && r.stamp != st

/-- Take the cells of a plain image, charged like the item's data (R300). -/
def Dev.takePlainCells (d : Dev) (st : Nat) : Option Dev :=
  (d.item st).bind fun x =>
    let n := cellsOf x.tok.len
    if x.tok.source = 4 then
      if d.buf.hostUse + n ≤ d.get F.BUF_POOL_CFG_HOST_CELLS then
        some (({ d with buf := { d.buf with hostUse := d.buf.hostUse + n } } : Dev).setItem st { x with plain := (n, 0, 0) })
      else none
    else (d.takeCells (x.iap * 8 + x.cls) n).map fun r => r.1.setItem st { x with plain := (r.2.resv, r.2.shared, r.2.head) }

/-- What a VERDICT answers: VSTATUS, the 32 result bytes and the bytes of the plain image asked for. -/
structure VAns where
  vst   : Nat
  res   : List Nat
  plain : List Nat := []

/-- The result of a VERDICT that is not OK: VSTATUS, and words the manual gives no value. -/
def verdictBad (b req : List Nat) (vst : Nat) : VAns :=
  let f := Config.verdictRest b req
  { vst := vst, res := toLe 4 (vst + f 0 % 2 ^ 14 * 2 ^ 8) ++ toLe 4 (f 1 % 2 ^ 30) ++ toLe 4 (f 2) ++ toLe 4 (f 3)
      ++ List.replicate 16 0 }

/-- The first 32 bytes of an OK result (Table 12-9). -/
def SA.verdictOk (a : SA) (b pt : List Nat) (q : VReq) (p : Nat) : List Nat :=
  let o := a.dataOff b q.hdr
  let pad := if a.esp then pt.getD (pt.length - 2) 0 else 0
  let nh := if a.esp then pt.getD (pt.length - 1) 0 else 0
  let e := if a.esp then q.fin - a.icv - 2 - pad else q.fin - a.icv
  toLe 4 (o % 2 ^ 14 * 2 ^ 8) ++ toLe 4 (e % 2 ^ 14 + nh % 256 * 2 ^ 14 + pad % 256 * 2 ^ 22) ++ toLe 8 p
    ++ List.replicate 16 0

/-- The plain image of an item (R297). -/
def SA.image (a : SA) (b pt : List Nat) (q : VReq) : List Nat :=
  let o := a.dataOff b q.hdr
  splice b (if a.esp then o else o + a.confOff (q.fin - a.icv - o)) pt

/-- A VERDICT of the item with stamp `st` (R298, R299, R300). -/
def Dev.verdict (d : Dev) (st : Nat) (b req : List Nat) : Dev × VAns :=
  let q := VReq.of req
  let a := d.sa q.sa
  let k := d.cry.keys.get a.keySlot
  let bad (v : Nat) : Dev × VAns := (d, verdictBad b req v)
  let w := a.wirePn b q
  let p := a.recover w
  if !a.valid || !a.inbound then bad 4
  else if a.tagErr b q then bad 5
  else if a.lenErr b q then bad 6
  else if w = 0 then bad 7
  else if a.late p then bad 3
  else if a.pn = a.hard then bad 8
  else match a.open k b q p with
    | none => bad 1
    | some pt =>
      let held := d.cry.resv.any fun r => r.stamp == st && r.sa == q.sa && r.pn == p
      if a.replay && d.replayed q.sa a st p then bad 2
      else if a.replay && !held && decide (4 ≤ (d.cry.resv.filter (·.stamp == st)).length) then bad 9
      else
        let img := a.image b pt q
        let ok (d : Dev) (plain : List Nat) : Dev × VAns :=
          let d : Dev := if a.replay && !held then { d with cry := { d.cry with resv := d.cry.resv ++ [⟨st, q.sa, p⟩] } } else d
          (d, { vst := 0, res := a.verdictOk b pt q p, plain := plain })
        if q.decrypt then
          match (d.freePlain st).takePlainCells st with
          | none => bad 10
          | some d =>
            ok { d with cry := { d.cry with plain := d.cry.plain.set st (some img) } } (slice img 0 q.plainLen)
        else ok d []

/-- The 32 bytes of SAQRY (R302). -/
def Dev.saqry (d : Dev) (n : Nat) : List Nat :=
  let a := d.sa n
  if !a.valid then List.replicate 32 0
  else
    let lo := if a.inbound then (if a.replay then max (a.pn + 1 - a.win) 1 else 1) else a.soft
    a.bytes.take 16 ++ toLe 8 lo ++ toLe 4 ((d.cry.resv.filter (·.sa == n)).length) ++ toLe 4 0

/-- SA_UPDATE (R303), whose reservation it consumes. -/
def Dev.saUpdate (d : Dev) (st n p : Nat) : Dev :=
  let d : Dev := { d with cry := { d.cry with
    resv := d.cry.resv.filter fun r => !(r.stamp == st && r.sa == n && r.pn == p) } }
  let a := d.sa n
  if !a.valid || !a.inbound then d.count .CRYPTO_SAUP_NO_SA
  else if a.pn < p then
    let s := p - a.pn
    let m := if a.mapBits ≤ s then 1 else (a.bitmap * 2 ^ s + 1) % 2 ^ a.mapBits
    let d := d.setSa n { a with bitmap := m, pn := p, exh := a.exh || decide (a.hard ≤ p) }
    if a.hard ≤ p then d.saNote (d.pfOf a.owner) n 2 else d
  else if a.pn < p + a.win then
    if bit a.bitmap (a.pn - p) then d.count .CRYPTO_SAUP_DUP
    else d.setSa n { a with bitmap := setBits a.bitmap (a.pn - p) 1 1 }
  else d.count .CRYPTO_SAUP_LATE

/-! ### Transmit (R295, R296) -/

/-- The copy takes a PN (R295): none where the SA is exhausted. -/
def Dev.takePn (d : Dev) (n : Nat) : Option (Nat × Dev) :=
  let a := d.sa n
  if a.exh then none
  else
    let p := a.pn
    let hardHit := p == a.hard
    let softHit := !a.softHit && decide (a.soft ≤ p)
    let d := d.setSa n { a with pn := if hardHit then p else p + 1, exh := hardHit, softHit := a.softHit || softHit }
    let d := if softHit then d.saNote (d.pfOf a.owner) n 1 else d
    let d := if hardHit then d.saNote (d.pfOf a.owner) n 2 else d
    some (p, d)

/-- The length change of ESP at the outer IP header (R296). -/
def espIpFix (b : List Nat) (l3 ex : Nat) : List Nat :=
  if ipVer b l3 = 4 then ip4Csum (splice b (l3 + 2) (toBe 2 (beNat (slice b (l3 + 2) 2) + ex))) l3
  else splice b (l3 + 4) (toBe 2 (beNat (slice b (l3 + 4) 2) + ex))

/-- A finished copy protected under an SA with PN `p`: `at_`, `nh` and `l3` from its CRYPTO_MARK (R296). -/
def SA.protect (a : SA) (k : KeySlot) (b : List Nat) (p at_ nh l3 : Nat) : List Nat :=
  if a.esp then
    let body := b.drop at_
    let pad := espPad body.length
    let pt := body ++ (List.range pad).map (· + 1) ++ [pad, nh]
    let iv := toBe 8 p
    let aad := if a.ext then toBe 4 a.sci ++ toBe 8 p else toBe 4 a.sci ++ toBe 4 p
    let b' := b.take at_ ++ toBe 4 a.sci ++ toBe 4 p ++ iv ++ Config.gcmSeal a.icv (a.key k) (a.nonce k p iv) aad pt
    if l3 = 0xFF then b' else espIpFix b' l3 (16 + pad + 2 + a.icv)
  else
    let body := b.drop at_
    let ec := if a.conf = 0 then 0 else 12
    let tag := [0x88, 0xE5, b2n a.txSci * 32 + ec + a.an, if body.length < 48 then body.length else 0] ++ toBe 4 p
      ++ (if a.txSci then toLe 8 a.sci else [])
    let c := a.confOff body.length
    let aad := b.take at_ ++ tag ++ body.take c
    b.take at_ ++ tag ++ body.take c ++ Config.gcmSeal a.icv (a.key k) (a.nonce k p []) aad (body.drop c)

end Sys2Proof.Machine
end

