-- ==== Sys2Proof/Machine/Flash.lean ====
section
/-!
DEFINITION. The flash (27): its bytes, erases and wear (R590 to R592), boot control (R580), the record log (R586, R589) and
the verification of a firmware image (R571, R572, R578, R579).
-/
namespace Sys2Proof.Machine

/-- Change the flash. -/
def Dev.setFlash (d : Dev) (x : Flash) : Dev := { d with stw := { d.stw with flash := x } }

/-- A byte of the flash: 0xFF where it is erased. -/
def Flash.byte (x : Flash) (a : Nat) : Nat := (cellGet x.bytes a).getD 255

/-- `n` bytes from `a` on. -/
def Flash.read (x : Flash) (a n : Nat) : List Nat := (List.range n).map fun i => x.byte (a + i)

/-- Bytes are programmed. -/
def Flash.write (x : Flash) (a : Nat) (b : List Nat) : Flash :=
  { x with bytes := (b.mapIdx fun i v => (i, v)).foldl (fun l e => cellSet 255 l (a + e.1) (e.2 % 256)) x.bytes }

/-! ### Wear (R590 to R592) -/

/-- The physical sector that serves a sector. -/
def Flash.phys (x : Flash) (s : Nat) : Nat := if (x.wear.get s).state = 2 then (x.wear.get s).map.getD s else s

/-- The spares: 128 sectors from 0x0850_0000, and what the flash holds from 143 MiB to 256 MiB. -/
def Flash.spareSectors (x : Flash) : List Nat :=
  (List.range 128).map (0x850 + ·) ++ (List.range (min x.mib 256 * 16 - 143 * 16)).map (143 * 16 + ·)

/-- A free spare. -/
def Flash.freeSpare (x : Flash) : Option Nat := x.spareSectors.find? fun s => (x.wear.get s).map.isNone && (x.wear.get s).state == 0

/-- The free spares, and the sectors of a state. -/
def Flash.sparesFree (x : Flash) : Nat := (x.spareSectors.filter fun s => (x.wear.get s).map.isNone && (x.wear.get s).state == 0).length
def Flash.inState (x : Flash) (st : Nat) : Nat := (x.wear.cells.filter fun c => c.2.state == st).length

/-- A board value of the identity area: none where it is 0 or erased (R577). -/
def Flash.boardWord (x : Flash) (off : Nat) : Option Nat :=
  let v := leNat (x.read (0x803F000 + off) 4)
  if v = 0 ∨ v = 0xFFFFFFFF then none else some v

/-- The rated endurance E (R591). -/
def Flash.endurance (x : Flash) : Nat := (x.boardWord 0).getD (x.sfdp.getD 100000)

/-- The board's limit of the flash clock (R642): an erased value, 0 or any other selects 100 MHz. -/
def Flash.boardMhz (x : Flash) : Nat :=
  match x.boardWord 8 with | some 200 => 200 | some 50 => 50 | _ => 100

/-- MODE and the flash clock in MHz that the boot ROM selects (R622, Table 29-9). -/
def Flash.clock (x : Flash) : Nat × Nat :=
  match x.oct with
  | some m => if 1620 ≤ x.vio then (2, min 200 (min m x.boardMhz)) else (1, min (if 1140 ≤ x.vio then 100 else 50) (min x.quad x.boardMhz))
  | none => (1, min (if 1140 ≤ x.vio then 100 else 50) (min x.quad x.boardMhz))

/-- Every flash write is refused: no free spare was left (R592), or the flash is too small (R577). -/
def Dev.flashFull (d : Dev) : Bool := d.stw.flash.full || decide (d.stw.flash.mib < 143)

/-- A retirement finds no free spare (R592): raised once. -/
def Dev.exhaust (d : Dev) : Dev :=
  if d.stw.flash.full then d
  else ((d.setFlash { d.stw.flash with full := true }).put F.STM_FW_STATUS_EXHAUSTED 0 1).raiseLocal 24 27 0 0

/-- An erase of a sector; `fq` is how it went (Table 27-8): 0 clean, 1 one verify retry, 2 a second retry or a slow erase.
False where its retirement found no spare. -/
def Dev.eraseSector (d : Dev) (s fq : Nat) : Dev × Bool :=
  let x := d.stw.flash
  let p := x.phys s
  let w := x.wear.get p
  let w := { w with erases := w.erases + 1, retries := if fq = 1 then (w.retries + 1) % 256 else w.retries,
                    state := if fq = 1 then 1 else w.state }
  let watch := !w.watched && decide (x.endurance * 8 ≤ w.erases * 10)
  let w := { w with watched := w.watched || watch }
  let dirty := match x.dirty with | some t => some t | none => some d.mono
  let bytes := x.bytes.filter fun c => c.1 / 65536 != s
  let d := d.setFlash { x with bytes := bytes, wear := x.wear.set p w, dirty := dirty }
  let d := if watch then d.raiseLocal 24 26 p w.erases else d
  let d := if fq = 1 then d.raiseLocal 24 24 p w.erases else d
  if fq = 2 then
    match d.stw.flash.freeSpare with
    | none => (d.exhaust, false)
    | some sp =>
      let y := d.stw.flash
      let wear := (y.wear.modify s fun w => { w with state := 2, map := some sp }).modify sp fun w => { w with map := some s }
      let wear := if p = s then wear else wear.modify p fun w => { w with state := 2 }
      ((d.setFlash { y with wear := wear }).raiseLocal 24 25 p sp, true)
  else (d, true)

/-- The wear ledger is written to the next of its sectors (R590). -/
def Dev.writeLedgerCopy (d : Dev) (fq : Nat) : Dev :=
  let r := d.eraseSector (0x840 + d.stw.flash.ledger % 16) fq
  r.1.setFlash { r.1.stw.flash with ledger := r.1.stw.flash.ledger + 1, dirty := none }

/-! ### Boot control (R580, Table 27-4) -/

/-- Boot control is written to its other copy; STM.FW_STATUS follows. -/
def Dev.setBoot (d : Dev) (b : BootCtl) : Dev :=
  let seq := d.stw.flash.boot.seq + 1
  let d := (d.eraseSector (0x804 + seq % 2) 0).1
  let d := d.setFlash { d.stw.flash with boot := { b with seq := seq } }
  let d := (d.put F.STM_FW_STATUS_ACTIVE_SLOT 0 b.active).put F.STM_FW_STATUS_TRIAL 0 (b2n b.trial)
  d.put F.STM_FW_STATUS_TRIES 0 b.tries

/-- The first byte of slot A or B. -/
def slotBase (s : Nat) : Nat := s * 0x4000000

/-- The slot of the running firmware, and the standby slot. -/
def Dev.runSlot (d : Dev) : Nat := d.get F.STM_FW_STATUS_RUN_SLOT
def Dev.standby (d : Dev) : Nat := 1 - d.runSlot

/-! ### Records (R586 to R589) -/

/-- A record is due to be written. -/
def Dev.putRecord (d : Dev) (r : Record) : Dev :=
  (d.setFlash { d.stw.flash with wait := d.stw.flash.wait ++ [r] }).put F.STM_FW_STATUS_CFG_PENDING 0 1

/-- A live or waiting record of a TYPE and KEY exists. -/
def Dev.hasRecord (d : Dev) (ty key : Nat) : Bool :=
  let x := d.stw.flash
  (x.log.any fun r => r.live && r.type == ty && r.key == key) || x.wait.any fun r => r.type == ty && r.key == key

/-- The record in force for firmware of instar `n` (R587): the live one with the highest INSTAR at or below it. -/
def Flash.recordFor (x : Flash) (n ty key : Nat) : Option Record :=
  (x.log.filter fun r => r.live && r.type == ty && r.key == key && decide (r.instar ≤ n)).foldl (fun a r => match a with
    | none => some r
    | some b => if b.instar < r.instar then some r else some b) none

/-- The bytes that a record takes in the log. -/
def Record.size (r : Record) : Nat := 32 + ceilDiv r.data.length 16 * 16

/-- The sectors of the log that hold nothing. -/
def Flash.freeLog (x : Flash) : Nat := 58 + x.tail / 65536 - ceilDiv x.head 65536

/-- A record is appended to the log and supersedes the one of its TYPE, KEY and INSTAR. -/
def Flash.append (x : Flash) (r : Record) : Flash :=
  let same (q : Record) : Bool := q.type == r.type && q.key == r.key && q.instar == r.instar
  let log := x.log.map fun q => if same q then { q with live := false } else q
  { x with log := log ++ [{ r with at_ := x.head, live := true, seq := x.seq + 1 }], head := x.head + r.size, seq := x.seq + 1 }

/-- The first waiting record is written (R589); `fq` as in an erase, 3: the flash failed. -/
def Dev.writeRecord (d : Dev) (fq : Nat) : Dev :=
  match d.stw.flash.wait with
  | [] => d
  | r :: t =>
    let x := d.stw.flash
    let fits := decide (x.head + r.size ≤ x.tail + 58 * 65536)
    if !d.flashFull && !fits then d
    else
      let bad := d.flashFull || fq == 3
      let d := if fq = 3 then d.fault 4 0x0B 24 else d
      let y := { d.stw.flash with wait := t }
      let d := d.setFlash (if bad then y else y.append r)
      let d := if t.isEmpty then d.put F.STM_FW_STATUS_CFG_PENDING 0 0 else d
      d.raiseLocal 24 31 r.type (b2n bad)

/-- The oldest sector of the log is moved and erased, where fewer than 2 are free (R586). -/
def Dev.compactLog (d : Dev) (fq : Nat) : Dev :=
  let x := d.stw.flash
  if 2 ≤ x.freeLog || d.flashFull || x.head ≤ x.tail then d
  else
    let last := x.tail / 65536
    let inIt (r : Record) : Bool := decide (r.at_ / 65536 ≤ last)
    let keep := x.log.filter fun r => !inIt r
    let step (a : List Record × Nat) (r : Record) : List Record × Nat := (a.1 ++ [{ r with at_ := a.2 }], a.2 + r.size)
    let m := (x.log.filter fun r => inIt r && r.live).foldl step ([], x.head)
    let d := d.setFlash { x with log := keep ++ m.1, head := m.2, tail := (last + 1) * 65536 }
    (d.eraseSector (0x806 + last % 58) fq).1

/-! ### Verification (R571, R572, R579) -/

/-- A section entry of a firmware image: TYPE, OFFSET, SIZE, DIGEST. -/
def fwSection (b : List Nat) (i : Nat) : Nat × Nat × Nat × List Nat :=
  let o := 256 + 64 * i
  (leNat (slice b o 2), leNat (slice b (o + 4) 4), leNat (slice b (o + 8) 4), slice b (o + 16) 48)

/-- The table constraints of R578 and R579: the offset of the first failing field. -/
def fwFormat (b : List Nat) : Option Nat :=
  let w (o n : Nat) : Nat := leNat (slice b o n)
  let n := w 0xA 2
  let size := w 0xC 4
  let secs := (List.range n).map (fwSection b)
  let count (ty : Nat) : Nat := (secs.filter (·.1 == ty)).length
  let clash (i j : Nat) : Bool :=
    let x := fwSection b i
    let y := fwSection b j
    i != j && decide (x.2.1 < y.2.1 + y.2.2.1 ∧ y.2.1 < x.2.1 + x.2.2.1)
  let bad (i : Nat) : Bool :=
    let x := fwSection b i
    x.1 == 0 || decide (6 < x.1) || x.2.1 % 4096 != 0 || decide (x.2.1 < 256 + 64 * n) || decide (size < x.2.1 + x.2.2.1)
      || (x.1 == 5 && decide (32768 < x.2.2.1)) || w (256 + 64 * i + 2) 2 != 0 || w (256 + 64 * i + 12) 4 != 0
      || (List.range n).any (clash i)
  if w 0 4 ≠ 0x4659444D then some 0
  else if w 4 2 ≠ 1 then some 4
  else if n < 5 ∨ 16 < n then some 0xA
  else if 0x4000000 < size ∨ size < 256 + 64 * n then some 0xC
  else if w 0x19 1 ≠ 0 then some 0x19
  else if w 0x1E 2 ≠ 0 then some 0x1E
  else if (slice b 0xE0 32).any (· != 0) then some 0xE0
  else match (List.range n).find? bad with
    | some i => some (256 + 64 * i)
    | none =>
      if ((List.range 5).any fun k => count (k + 1) != 1) || decide (1 < count 6) then some 0xA else none

/-- The 48 bytes of ROOT_KEY_HASH in use. -/
def Dev.rootHash (d : Dev) : List Nat := (List.range 12).flatMap fun k => toLe 4 (d.rd .FUSE_VALUE (8 + k))

/-- The verification of an image: none where it passes, else FLASH_CODE (Table 27-6) and DETAIL. -/
def Dev.fwFault (d : Dev) (b : List Nat) : Option (Nat × Nat) :=
  let lc := d.get F.FUSE_STATUS_LC
  let key := slice b 0x20 96
  let idx := leNat (slice b 8 2)
  let size := leNat (slice b 0xC 4)
  match fwFormat b with
  | some x => some (7, x)
  | none =>
    if Config.sha384 key ≠ (if lc = 0 then Config.provisioningHash else d.rootHash) then some (3, 0x20)
    else if !Config.ecdsaVerify key (Config.sha384 (splice (slice b 0 size) 0x80 (List.replicate 96 0))) (slice b 0x80 96) then
      some (4, 0x80)
    else if lc ≠ 0 ∧ (idx < d.get F.FUSE_ROLLBACK_VALUE ∨ 64 < idx) then some (5, 8)
    else if 64 < idx then some (5, 8)
    else none

/-- The SECURITY fault of a failed verification (R571, R572). -/
def Dev.fwFaultRaised (d : Dev) (b : List Nat) (code : Nat) : Dev :=
  if code = 3 ∨ code = 4 then d.fault 10 3 24
  else if code = 5 then (if 64 < leNat (slice b 8 2) then d.fault 10 5 24 else d.fault 10 4 24)
  else d

/-- The image of a slot: its header tells how many bytes it has. -/
def Dev.slotImage (d : Dev) (s : Nat) : List Nat :=
  let x := d.stw.flash
  let n := leNat (x.read (slotBase s + 0xC) 4)
  x.read (slotBase s) (min (max n 1280) 0x4000000)

end Sys2Proof.Machine
end

