-- ==== Sys2Proof/Machine/Parse.lean ====
section
/-!
DEFINITION. The ingress parser (09): profiles and selectors (R217), the headers it recognises (R218), the parse record
(R219), the class (R220) and the order-key hash (R221).
-/
namespace Sys2Proof.Machine

/-- What the parser has found so far. Offsets are 0xFF where the header is absent; `flags` are PARSE_FLAGS; the byte lists are
the inputs of the hash (empty where absent), the inner ones apart. -/
structure Parse where
  l3     : Nat := 0xFF
  l4     : Nat := 0xFF
  tun    : Nat := 0xFF
  il2    : Nat := 0xFF
  il3    : Nat := 0xFF
  il4    : Nat := 0xFF
  pay    : Nat := 0
  etype  : Nat := 0
  tags   : List Nat := []
  labels : List Nat := []
  proto  : Nat := 0
  l3t    : Nat := 0
  tunt   : Nat := 0
  il3t   : Nat := 0
  flags  : Nat := 0
  dscp   : Option Nat := none
  tunId  : List Nat := []
  /-- Fields 4 to 9 of HASH_FIELDS, of the outer and of the inner headers. -/
  outer  : List (List Nat) := [[], [], [], [], [], []]
  inner  : List (List Nat) := [[], [], [], [], [], []]
  /-- The parse has ended. -/
  ovr   : Bool := false
deriving DecidableEq, Repr, Inhabited

/-- Set a bit of PARSE_FLAGS. -/
def Parse.flag (p : Parse) (n : Nat) : Parse := { p with flags := setBits p.flags n 1 1 }

/-- A header of `n` bytes at `o` can be read: it ends within byte 255 and within the frame (`TRUNC`, `MALFORMED` otherwise,
and the parse ends). -/
def Parse.need (p : Parse) (len o n : Nat) (f : Parse → Parse) : Parse :=
  if p.ovr then p
  else if 256 < o + n then { p.flag 11 with ovr := true }
  else if len < o + n then { p.flag 15 with ovr := true }
  else f p

/-- A version or length field is inconsistent: MALFORMED, and the parse ends. -/
def Parse.bad (p : Parse) : Parse := { p.flag 15 with ovr := true }

/-- The hash inputs of one IP level change. -/
def Parse.setHash (p : Parse) (inn : Bool) (i : Nat) (v : List Nat) : Parse :=
  if inn then { p with inner := p.inner.set i v } else { p with outer := p.outer.set i v }

/-- TCP or UDP at `o` (R218); `room` is what the IP header leaves, none for a fragment. Answers the UDP destination port. -/
def Parse.l4hdr (p : Parse) (b : List Nat) (len : Nat) (inn : Bool) (proto o : Nat) (room : Option Nat) : Parse × Option Nat :=
  if proto = 6 then
    (p.need len o 20 fun p =>
      let n := b.getD (o + 12) 0 / 16 * 4
      let p := (p.flag 7).setHash inn 4 (slice b o 2) |>.setHash inn 5 (slice b (o + 2) 2)
      let p := if inn then { p with il4 := o } else { p with l4 := o }
      if n < 20 then p.bad else p.need len o n fun p => { p with pay := o + n }, none)
  else if proto = 17 then
    let r := p.need len o 8 fun p =>
      let n := beNat (slice b (o + 4) 2)
      let p := (p.flag 8).setHash inn 4 (slice b o 2) |>.setHash inn 5 (slice b (o + 2) 2)
      let p := if inn then { p with il4 := o } else { p with l4 := o }
      let p := { p with pay := o + 8 }
      let dp := beNat (slice b (o + 2) 2)
      let p := if dp = 319 ∨ dp = 320 then p.flag 13 else p
      match room with
      | some m => if n < 8 ∨ m < n then p.bad else p
      | none => p
    (r, if r.ovr then none else some (beNat (slice b (o + 2) 2)))
  else (p, none)

/-- The extension headers of an IPv6 header (R218): up to `k` more; answers the parse, the next header, where it begins and
whether a later fragment was seen. -/
def ipv6Ext (b : List Nat) (len : Nat) : Nat → Parse → Nat → Nat → Bool → Parse × Nat × Nat × Bool
  | 0, p, nh, o, fr => (if nh = 0 ∨ nh = 43 ∨ nh = 60 ∨ nh = 44 then { p with ovr := true } else p, nh, o, fr)
  | k + 1, p, nh, o, fr =>
    if nh = 0 ∨ nh = 43 ∨ nh = 60 ∨ nh = 44 then
      let n := if nh = 44 then 8 else (b.getD (o + 1) 0 + 1) * 8
      let p := (p.need len o 8 fun p => p).need len o n fun p => { p.flag 5 with pay := o + n }
      if p.ovr then (p, nh, o, fr)
      else
        let p := if nh = 44 ∧ (beNat (slice b (o + 2) 2) / 8 ≠ 0 ∨ bit (b.getD (o + 3) 0) 0) then p.flag 6 else p
        let later := nh == 44 && beNat (slice b (o + 2) 2) / 8 != 0
        ipv6Ext b len k p (b.getD o 0) (o + n) (fr || later)
    else (p, nh, o, fr)

/-- An IP header at `o` and the L4 header above it. Answers the parse, the protocol above IP where the parse goes on, its
offset, and the UDP destination port. -/
def Parse.ip (p : Parse) (b : List Nat) (len : Nat) (inn v6 : Bool) (o : Nat) : Parse × Nat × Nat × Option Nat :=
  let at3 (p : Parse) : Parse := if inn then { p with il3 := o, il3t := if v6 then 2 else 1 }
    else { p with l3 := o, l3t := if v6 then 2 else 1 }
  if v6 then
    let p := p.need len o 40 fun p =>
      let p := (at3 p).flag 3
      let p := p.setHash inn 0 (slice b (o + 8) 16) |>.setHash inn 1 (slice b (o + 24) 16)
      let fl := beNat (slice b (o + 1) 3) % 2 ^ 20
      let p := p.setHash inn 2 (toBe 3 fl)
      let p := if inn then p else { p with dscp := some (beNat (slice b o 2) / 64 % 64) }
      if b.getD o 0 / 16 ≠ 6 ∨ len < o + 40 + beNat (slice b (o + 4) 2) then p.bad else { p with pay := o + 40 }
    let r := ipv6Ext b len 4 p (b.getD (o + 6) 0) (o + 40) false
    let p := if p.ovr then p else ({ r.1 with proto := r.2.1 } : Parse).setHash inn 3 [r.2.1]
    if p.ovr ∨ r.2.2.2 then (p, 256, r.2.2.1, none)
    else
      let room := if bit p.flags 6 then none else some (o + 40 + beNat (slice b (o + 4) 2) - r.2.2.1)
      let q := p.l4hdr b len inn r.2.1 r.2.2.1 room
      (q.1, r.2.1, r.2.2.1, q.2)
  else
    let n := b.getD o 0 % 16 * 4
    let tot := beNat (slice b (o + 2) 2)
    let p := p.need len o 20 fun p =>
      let p := (at3 p).flag 2
      let p := p.setHash inn 0 (slice b (o + 12) 4) |>.setHash inn 1 (slice b (o + 16) 4)
      let p := if inn then p else { p with dscp := some (b.getD (o + 1) 0 / 4) }
      if b.getD o 0 / 16 ≠ 4 ∨ n < 20 ∨ tot < n ∨ len < o + tot then p.bad
      else p.need len o n fun p =>
        let p := if 20 < n then p.flag 4 else p
        let p := if ocSum (slice b o n) 0 = 0xFFFF then p else p.flag 12
        let fo := beNat (slice b (o + 6) 2)
        let p := if bit fo 13 ∨ fo % 8192 ≠ 0 then p.flag 6 else p
        { p.setHash inn 3 [b.getD (o + 9) 0] with proto := b.getD (o + 9) 0, pay := o + n }
    let fo := beNat (slice b (o + 6) 2)
    if p.ovr ∨ fo % 8192 ≠ 0 then (p, 256, o + n, none)
    else
      let q := p.l4hdr b len inn (b.getD (o + 9) 0) (o + n) (if bit fo 13 then none else some (tot - n))
      (q.1, b.getD (o + 9) 0, o + n, q.2)

/-- VLAN tags at `o` (R218): up to `k` more. Answers the tags' control words, the EtherType and where it ends. -/
def vlanTags (b : List Nat) (len : Nat) : Nat → Parse → Nat → Parse × List Nat × Nat × Nat
  | 0, p, o => (p, [], beNat (slice b o 2), o + 2)
  | k + 1, p, o =>
    let t := beNat (slice b o 2)
    if t = 0x8100 ∨ t = 0x88A8 then
      let p := p.need len o 6 fun p => p
      if p.ovr then (p, [], t, o + 2)
      else
        let r := vlanTags b len k p (o + 4)
        (r.1, beNat (slice b (o + 2) 2) :: r.2.1, r.2.2)
    else (p, [], t, o + 2)

/-- The inner headers of a tunnel (R218): an Ethernet frame, or an IP packet that EtherType `t` names, at `o`. -/
def Parse.innerHdrs (p : Parse) (b : List Nat) (len o t : Nat) : Parse :=
  let ipAt (p : Parse) (t o : Nat) : Parse :=
    if t = 0x0800 then (p.ip b len true false o).1
    else if t = 0x86DD then (p.ip b len true true o).1 else p
  if t = 0x6558 then
    (p.need len o 14 fun p => { p.flag 9 with il2 := o, pay := o + 14 }).need len o 14 fun p =>
      let r := vlanTags b len 2 p (o + 12)
      if r.1.ovr then r.1 else ipAt { r.1 with pay := r.2.2.2 } r.2.2.1 r.2.2.2
  else if t = 0x0800 ∨ t = 0x86DD then p.need len o 1 fun p => ipAt (p.flag 9) t o
  else p

/-- A tunnel header above IP (R218): VXLAN and GENEVE on their UDP ports, GRE. `inn` parses the inner headers. -/
def Parse.tunnel (p : Parse) (b : List Nat) (len vx gn : Nat) (inn : Bool) (proto o : Nat) (dp : Option Nat) : Parse :=
  let go (p : Parse) (o t : Nat) : Parse := if inn then p.innerHdrs b len o t else p
  if p.ovr then p
  else if proto = 17 ∧ dp = some vx then
    p.need len (o + 8) 8 fun p =>
      go { p with tun := o + 8, tunt := 1, tunId := slice b (o + 12) 3, pay := o + 16 } (o + 16) 0x6558
  else if proto = 17 ∧ dp = some gn then
    let n := 8 + b.getD (o + 8) 0 % 64 * 4
    (p.need len (o + 8) 8 fun p => p).need len (o + 8) n fun p =>
      let p := { p with tun := o + 8, tunt := 2, tunId := slice b (o + 12) 3, pay := o + 8 + n }
      if b.getD (o + 8) 0 / 64 ≠ 0 then p.bad else go p (o + 8 + n) (beNat (slice b (o + 10) 2))
  else if proto = 47 then
    let f := b.getD o 0
    let n := 4 + (if bit f 7 then 4 else 0) + (if bit f 5 then 4 else 0) + (if bit f 4 then 4 else 0)
    (p.need len o 4 fun p => p).need len o n fun p =>
      let key := if bit f 5 then slice b (o + 4 + (if bit f 7 then 4 else 0)) 4 else []
      let p := { p with tun := o, tunt := 3, tunId := key, pay := o + n }
      if b.getD (o + 1) 0 % 8 ≠ 0 then p.bad else go p (o + n) (beNat (slice b (o + 2) 2))
  else p

/-- MPLS labels at `o`, up to `k` more (R218). -/
def mplsStack (b : List Nat) (len : Nat) : Nat → Parse → Nat → Parse
  | 0, p, _ => { p with ovr := true }
  | k + 1, p, o =>
    let p := p.need len o 4 fun p =>
      { p.flag 10 with labels := p.labels ++ [beNat (slice b o 4)], pay := o + 4 }
    if p.ovr ∨ bit (beNat (slice b o 4)) 8 then p else mplsStack b len k p (o + 4)

/-- The parse of a frame of `len` bytes (without FCS) whose first 256 bytes are `b` (R218). -/
def parseFrame (b : List Nat) (len vx gn : Nat) (tun : Bool) : Parse :=
  let p : Parse := {}
  let p := if bit (b.getD 0 0) 0 then p.flag 14 else p
  p.need len 0 14 fun (p : Parse) =>
    let r := vlanTags b len 2 { p with pay := 14 } 12
    let p : Parse := { r.1 with tags := r.2.1, etype := r.2.2.1 }
    let p : Parse := if p.tags.length ≥ 1 then p.flag 0 else p
    let p : Parse := if p.tags.length ≥ 2 then p.flag 1 else p
    let o := r.2.2.2
    if p.ovr then p
    else
      let p := { p with pay := o }
      let t := p.etype
      if t = 0x0800 ∨ t = 0x86DD then
        let q := p.ip b len false (t == 0x86DD) o
        q.1.tunnel b len vx gn tun q.2.1 q.2.2.1 q.2.2.2
      else if t = 0x8847 ∨ t = 0x8848 then mplsStack b len 12 { p with l3 := o, l3t := 3 } o
      else if t = 0x88F7 then p.flag 13
      else p

/-- The order-key hash over the selected fields (R221). -/
def Parse.hash (p : Parse) (b : List Nat) (sel : Nat) : Nat :=
  let lv := if bit sel 12 ∧ bit p.flags 9 then p.inner else p.outer
  let frag := bit p.flags 6
  let f (i : Nat) : List Nat :=
    match i with
    | 0 => slice b 0 6
    | 1 => slice b 6 6
    | 2 => match p.tags with | t :: _ => toBe 2 (t % 4096) | [] => []
    | 3 => toBe 2 p.etype
    | 10 => (p.labels.take 3).flatMap fun l => toBe 3 (l / 4096)
    | 11 => p.tunId
    | i => if frag ∧ 7 ≤ i then [] else lv.getD (i - 4) []
  let bytes := (List.range 12).flatMap fun i => if bit sel i then f i else []
  if bytes.isEmpty then 0
  else
    let c := crc32c bytes
    Nat.xor (c / 2 ^ 12) (c % 2 ^ 20)

/-- The class of a frame (R220). -/
def Dev.frameClass (d : Dev) (net prof : Nat) (p : Parse) : Nat :=
  let k := net * 16 + prof
  let dflt := d.get F.NET_PROFILE_CFG_CLASS k
  match d.get F.NET_PROFILE_CFG_CLASS_SRC k with
  | 1 => match p.tags with | t :: _ => t / 2 ^ 13 % 8 | [] => dflt
  | 2 => match p.dscp with | some v => bits (d.rd .NET_DSCP_MAP (net * 8 + v / 8)) (v % 8 * 3) 3 | none => dflt
  | 3 => match p.labels with | l :: _ => l / 2 ^ 9 % 8 | [] => dflt
  | _ => dflt

/-- The profile of a frame (R217). -/
def Dev.frameProfile (d : Dev) (port etype : Nat) : Nat :=
  let n := port / 8
  match (List.range 16).find? fun k =>
      let i := n * 16 + k
      d.flag F.NET_PROFILE_SEL_VALID i && bit (d.get F.NET_PROFILE_SEL_PORT_MASK i) (port % 8)
        && d.get F.NET_PROFILE_SEL_ETHERTYPE i == etype with
  | some k => d.get F.NET_PROFILE_SEL_PROFILE (n * 16 + k)
  | none => d.get F.NET_PORT_CFG_DEFAULT_PROFILE port

/-- The EtherType of a frame after its VLAN tags. -/
def etherType (b : List Nat) (len : Nat) : Nat := (vlanTags b len 2 {} 12).2.2.1

/-- The parse record (Table 09-8); `t` is the receive timestamp in 1/256 ns. -/
def Parse.record (p : Parse) (cls hash t : Nat) : List Nat :=
  let tag (i : Nat) := p.tags.getD i 0
  let off (x : Nat) := if x < 256 then x else 0xFF
  [off p.l3, off p.l4, off p.tun, off p.il2, off p.il3, off p.il4, off p.pay, 0]
    ++ toLe 4 (p.etype % 2 ^ 16 + tag 0 % 4096 * 2 ^ 16 + tag 0 / 2 ^ 13 % 8 * 2 ^ 28)
    ++ toLe 4 (tag 1 % 4096 + tag 1 / 2 ^ 13 % 8 * 2 ^ 12 + p.proto % 256 * 2 ^ 16 + cls * 2 ^ 24 + p.labels.length * 2 ^ 27)
    ++ toLe 4 (p.l3t + p.tunt * 16 + p.il3t * 256 + hash * 2 ^ 12)
    ++ toLe 4 (p.flags + t % 256 * 2 ^ 16) ++ toLe 8 (t / 256)

end Sys2Proof.Machine
end

