-- ==== Sys2Proof/Machine/Erruic.lean ====
section
/-!
DEFINITION. Erruic links (10): blocks and their checks (R244 to R246), the sender's credits, sequence and replay buffer
(R247 to R249), and what the sender starts.
-/
namespace Sys2Proof.Machine

/-- A link. Link `l` is NET island `l + 1`'s. -/
def Dev.link (d : Dev) (l : Nat) : Link := d.net.links.get l

/-- Store a link. -/
def Dev.setLink (d : Dev) (l : Nat) (x : Link) : Dev := { d with net := { d.net with links := d.net.links.set l x } }

/-- A link is ACTIVE. -/
def Dev.linkActive (d : Dev) (l : Nat) : Bool := d.get F.NET_EL_STATUS_STATE (l + 1) == 7

/-- One bit of the CRC with polynomial x^16 + x^12 + x^5 + 1 (R246), payload bit 0 first. -/
def chkBit (c b : Nat) : Nat :=
  let x := c * 2 % 65536
  if (c / 32768 + b) % 2 = 1 then Nat.xor x 0x1021 else x

/-- CHK over bytes (R246). -/
def chk16 (l : List Nat) : Nat :=
  l.foldl (fun c b => (List.range 8).foldl (fun c i => chkBit c (b / 2 ^ i % 2)) c) 0xFFFF

/-- The eight bytes of an SOM block (Table 10-7). -/
def ElMsg.som (m : ElMsg) : List Nat :=
  toLe 4 (0x5A + m.cls % 8 * 2 ^ 8 + m.data.length * 2 ^ 11)
    ++ toLe 4 (m.lseq % 4096 + (m.src - 1) % 4 * 2 ^ 12 + (m.dst - 1) % 4 * 2 ^ 14 + b2n m.rel * 2 ^ 16)

/-- The data blocks, the last zero-padded. -/
def ElMsg.blocks (m : ElMsg) : List Nat := m.data ++ List.replicate ((8 - m.data.length % 8) % 8) 0

/-- The bytes of a message on the link, with the acknowledgement that its EOM carries. -/
def ElMsg.wire (m : ElMsg) (ack : Option Nat) : List Nat :=
  let e := toLe 4 (0x69 + (match ack with | some a => a % 4096 * 2 ^ 8 + 2 ^ 20 | none => 0))
  let body := m.som ++ m.blocks ++ e
  body ++ toLe 4 (crc32c body)

/-- A control block of six bytes with its CHK. -/
def ctlBlock (l : List Nat) : List Nat := slice l 0 6 ++ toLe 2 (chk16 (slice l 0 6))

/-- The sender's available credit of a class (R247). -/
def Link.avail (x : Link) (c : Nat) : Nat := (x.cum.get c + 256 - x.used.get c % 256) % 256

/-- The replay buffer takes another message (R249). -/
def Link.replayRoom (x : Link) (m : ElMsg) : Bool :=
  decide (x.unacked.length < 1024) && decide (x.unacked.foldl (fun a m => a + m.data.length) 0 + m.data.length ≤ 262144)

/-- The first waiting message of a class, where its class has the credits for it. -/
def Link.ready (x : Link) (c : Nat) : Option ElMsg :=
  match x.wait.find? (·.cls == c) with
  | some m => if decide (m.credits ≤ x.avail c) && x.replayRoom m then some m else none
  | none => none

/-- The slots of the weighted round robin: RSP 4, REQ 2, POST 2 (Table 01-4). -/
def wrrSlots : List Nat := [2, 2, 2, 2, 3, 3, 4, 4]

/-- The message that the sender starts next (R247), and the round-robin slot behind it. -/
def Link.choose (x : Link) : Option (ElMsg × Nat) :=
  match x.ready 0 with
  | some m => some (m, x.wrr)
  | none =>
    match x.ready 1 with
    | some m => some (m, x.wrr)
    | none => (List.range 8).findSome? fun k =>
        let s := (x.wrr + k) % 8
        (x.ready (wrrSlots.getD s 4)).map fun m => (m, (s + 1) % 8)

/-- The acknowledgement that a link owes. -/
def Link.ackSeq (x : Link) : Option Nat := if x.ackDue then some ((x.rxSeq + 4095) % 4096) else none

/-- One message is started: it takes the next LSEQ and its credits, and stays in the replay buffer. -/
def Dev.elStart (d : Dev) (l : Nat) (m : ElMsg) (wrr : Nat) : Dev :=
  let x := d.link l
  let ack := x.ackSeq
  let m' := { m with lseq := x.txSeq }
  let d := d.setLink l { x with
    wait := x.wait.erase m, unacked := x.unacked ++ [m'], txSeq := (x.txSeq + 1) % 4096, wrr := wrr,
    used := x.used.set m.cls ((x.used.get m.cls + m.credits) % 256), ackDue := false,
    ackAt := if x.unacked.isEmpty then d.mono else x.ackAt }
  let d := (d.count .NET_EL_TX_MSG (l + 1)).count .NET_EL_TX_BYTES (l + 1) m.data.length
  d.emit (.erruic l 0 (m'.wire ack))

/-- Start messages while credits and the replay buffer allow. -/
def Dev.elRun : Nat → Nat → Dev → Dev
  | 0, _, d => d
  | n + 1, l, d =>
    match (d.link l).choose with
    | some r => Dev.elRun n l (d.elStart l r.1 r.2)
    | none => d

/-- What the sender of an ACTIVE link can start. -/
def Dev.elPump (d : Dev) (l : Nat) : Dev := if d.linkActive l && !d.halted then Dev.elRun (d.link l).wait.length l d else d

/-- A message joins the sender of a link. -/
def Dev.elSend (d : Dev) (l : Nat) (m : ElMsg) : Dev :=
  let x := d.link l
  (d.setLink l { x with wait := x.wait ++ [m] }).elPump l

/-- A message to a member on its path (R479): none of it leaves where the member is unreachable. -/
def Dev.groupSend (d : Dev) (m cls : Nat) (data : List Nat) : Dev :=
  match d.pathTo m with
  | some (l, r) => d.elSend l { cls := cls, src := d.get F.GRP_STATUS_ID, dst := m, rel := r.isSome, data := data }
  | none => d

/-- A replay from LSEQ `s` on (R249): the messages are sent again in order, in turn adding back and using their credits. -/
def Dev.elReplay (d : Dev) (l s : Nat) : Dev :=
  let x := d.link l
  let old := (x.unacked.headD { cls := 0, src := 0, dst := 0, data := [] }).lseq
  let msgs := x.unacked.dropWhile fun m => decide ((m.lseq + 4096 - old) % 4096 < (s + 4096 - old) % 4096)
  if msgs.isEmpty || d.halted then d
  else
    let d := d.setLink l { x with replays := x.replays + 1, ackAt := d.mono }
    let d := d.count .NET_EL_REPLAY (l + 1)
    msgs.foldl (fun d m => d.emit (.erruic l 0 (m.wire none))) d

end Sys2Proof.Machine
end

