-- ==== Sys2Proof/Machine/Nvme.lean ====
section
/-!
DEFINITION. NVMe/TCP assist (13): the PDU stream and the digests of transmit (R318).
-/
namespace Sys2Proof.Machine

/-- A context. -/
def Dev.conn (d : Dev) (c : Nat) : Conn := d.hst.conns.get c

/-- Store a context. -/
def Dev.setConn (d : Dev) (c : Nat) (x : Conn) : Dev := { d with hst := { d.hst with conns := d.hst.conns.set c x } }

/-- The instance that owns a context (kind 5). -/
def Dev.connOwner (d : Dev) (c : Nat) : Nat := (d.rangeOwner 5 c).getD 0

/-! ### The PDU (R318): type, FLAGS, HLEN, PDO and PLEN of the common header -/

def Pdu.type (p : Pdu) : Nat := p.head.getD 0 0
def Pdu.flags (p : Pdu) : Nat := p.head.getD 1 0
def Pdu.hlen (p : Pdu) : Nat := max 8 (p.head.getD 2 0)
def Pdu.pdo (p : Pdu) : Nat := p.head.getD 3 0
def Pdu.plen (p : Pdu) : Nat := max p.hlen (leNat (slice p.head 4 4))

/-- A header digest follows the header, as HDGST and HDGSTF call for it. -/
def Pdu.hasH (p : Pdu) (hd : Bool) : Bool := hd && bit p.flags 0

/-- The PDU carries data with a digest, as DDGST and DDGSTF call for it. -/
def Pdu.hasD (p : Pdu) (dd : Bool) : Bool := dd && bit p.flags 1 && p.pdo != 0

/-- Where the data of the PDU ends. -/
def Pdu.dataEnd (p : Pdu) (dd : Bool) : Nat := p.plen - (if p.hasD dd then 4 else 0)

/-- The kinds of a byte of a PDU: header, header digest byte, data, data digest byte, other. -/
inductive PduByte where
  | header | hdgst (i : Nat) | data | ddgst (i : Nat) | other
deriving DecidableEq, Repr

/-- What the next byte of a PDU is. -/
def Pdu.kind (p : Pdu) (hd dd : Bool) : PduByte :=
  if p.pos < 8 then .header
  else if p.pos < p.hlen then .header
  else if p.hasH hd ∧ p.pos < p.hlen + 4 then .hdgst (p.pos - p.hlen)
  else if p.pdo ≠ 0 ∧ p.pdo ≤ p.pos ∧ p.pos < p.dataEnd dd then .data
  else if p.hasD dd ∧ p.dataEnd dd ≤ p.pos then .ddgst (p.pos - p.dataEnd dd)
  else .other

/-- The PDU after a byte; it starts afresh behind its last one. -/
def Pdu.next (p : Pdu) (hd dd : Bool) (b : Nat) : Pdu :=
  let p' := match p.kind hd dd with
    | .header => { p with head := p.head ++ [b], hcrc := crcByte p.hcrc b }
    | .data => { p with crc := crcByte p.crc b }
    | _ => p
  let p' := { p' with pos := p.pos + 1 }
  if 8 ≤ p'.head.length ∧ p'.plen ≤ p'.pos then {} else p'

/-- Byte `i` of a finished digest. -/
def digestByte (c i : Nat) : Nat := Nat.xor c 0xFFFFFFFF / 256 ^ i % 256

/-- The digests of a payload are filled in (R318). -/
def fillDigests (hd dd : Bool) : List Nat → Pdu → List Nat × Pdu
  | [], p => ([], p)
  | b :: t, p =>
    let o := match p.kind hd dd with
      | .hdgst i => digestByte p.hcrc i
      | .ddgst i => digestByte p.crc i
      | _ => b
    let r := fillDigests hd dd t (p.next hd dd b)
    (o :: r.1, r.2)

/-- Where the TCP payload of a copy begins, the TCP header being at `a`. -/
def tcpPayload (b : List Nat) (a : Nat) : Nat := a + b.getD (a + 12) 0 / 16 * 4

/-- NVME_TX on a copy (R318): its bytes, and the context as it will stand once the copy has been sent whole; none where the
context does not act. A copy out of sequence keeps its digest bytes and counts TX_UNSYNCED. -/
def Dev.nvmeTx (d : Dev) (b : List Nat) (first : Bool) (a c : Nat) : Dev × List Nat × Option (Nat × Conn) :=
  if !d.flag F.NVME_CONN_CFG_VALID c || !d.flag F.NVME_CONN_CFG_TX_EN c then (d, b, none)
  else
    let x := d.conn c
    let seq := beNat (slice b (a + 4) 4)
    if !first && x.txNext != some seq then (d.count .NVME_TX_UNSYNCED (d.connOwner c), b, none)
    else
      let o := tcpPayload b a
      let r := fillDigests (d.flag F.NVME_CONN_CFG_HDGST c) (d.flag F.NVME_CONN_CFG_DDGST c) (b.drop o) (if first then {} else x.tx)
      (d, b.take o ++ r.1, some (c, { x with txNext := some ((seq + (b.length - o)) % 2 ^ 32), tx := r.2 }))

end Sys2Proof.Machine
end

