-- ==== Sys2Proof/Machine/Sched.lean ====
section
/-!
DEFINITION. The scheduler (R263, R274 to R278, R282) and what a copy goes through from its pick to its last byte: header
edits and crypto (R295, R310), one-step and two-step timestamps (R229, R230), forwarding to a member (R482), and the return
of a copy that was cut (R227).
-/
namespace Sys2Proof.Machine

/-! ### What a queue would yield -/

/-- The relayed messages of a link's relay queue that belong to its first copy (R479, R481): up to the next message that
begins one. A message of another class stands alone. -/
def Dev.relayHead (d : Dev) (l : Nat) : List ElMsg :=
  match (d.grp.relay.filter (·.1 == l)).map (·.2) with
  | [] => []
  | m :: t => m :: t.takeWhile fun x => m.cls == 4 && x.cls == 4 && x.src == m.src && x.dst == m.dst && decide (m.data.length = 512)

/-- The link whose relay queue `q` is. -/
def Dev.relayLink (d : Dev) (q : Nat) : Option Nat :=
  (List.range 3).find? fun l => d.get F.GRP_GQ_BASE_QUEUE l + (d.get F.GRP_STATUS_ID - 1) == q
    && d.grp.relay.any (·.1 == l)

/-- The length of the copy that a queue would yield. -/
def Dev.headLen (d : Dev) (q : Nat) : Nat :=
  match d.relayLink q with
  | some l => (d.relayHead l).foldl (fun a m => a + m.data.length) 0
  | none =>
    match (d.q5 q).onchip with
    | [] => 0
    | (st, c) :: _ => match d.copy st c with | some k => k.len | none => 0

/-- The queue's instance may receive (R337, R422): its function may issue requests and it is not moving away. -/
def Dev.rqInstOk (d : Dev) (inst : Nat) : Bool := (d.fn inst).bme && !d.frozen inst

/-- The member of a copy in a group queue can take it now (R479, R484, R485): current, on this link, and with fewer than
1,024 unacknowledged copies, none of them waiting to be resent. -/
def Dev.memberOk (d : Dev) (l m : Nat) : Bool :=
  bit (d.get F.GRP_STATUS_CURRENT) (m - 1) && d.get F.GRP_STATUS_STATE == 3 && (d.pathTo m).map (·.1) == some l
    && decide ((d.grp.fwd.filter (·.member == m)).length < 1024)

/-- The head copy of a queue may leave by its root. -/
def Dev.headOk (d : Dev) (root q : Nat) : Bool :=
  match d.relayLink q with
  | some _ => true
  | none =>
    match (d.q5 q).onchip with
    | [] => false
    | (st, c) :: _ =>
      match d.copy st c with
      | none => false
      | some k =>
        if root < 32 then true
        else if k.dtype = 1 then (match d.rangeOwner 0 k.dest with | some i => d.rqInstOk i | none => true)
        else if k.dtype = 2 then d.memberOk (root - 34) (bits k.dest 15 2 + 1)
        else true

/-- A queue below network port `p` is paused (R222, R278). -/
def Dev.paused (d : Dev) (p q : Nat) : Bool :=
  p < 32 && ((d.net.pause.get (p * 9 + 8)).isSome || (d.net.pause.get (p * 9 + d.get F.TM_Q_CFG_CLASS q)).isSome)

/-- A level-5 queue is eligible (R274). -/
def Dev.queueOk (d : Dev) (root q : Nat) : Bool :=
  d.enabledOf 5 q && d.shaperOk 5 q && d.headOk root q && !d.paused root q

/-- The queues that hold something. -/
def Dev.busyQueues (d : Dev) : List Nat :=
  (d.buf.qs.keys.filter (· < 131072)) ++ ((List.range 3).map fun l => d.get F.GRP_GQ_BASE_QUEUE l + (d.get F.GRP_STATUS_ID - 1)).filter
    fun q => (d.relayLink q).isSome && !d.buf.qs.keys.contains q

/-- The nodes of a level below a node that have a busy queue in their subtree, in ascending order. -/
def Dev.childrenOf (d : Dev) (lv n : Nat) : List Nat :=
  let at5 := d.busyQueues
  let at4 := (at5.map (d.parentOf 5)).eraseDups
  let at3 := (at4.map (d.parentOf 4)).eraseDups
  let at2 := (at3.map (d.parentOf 3)).eraseDups
  let l := match lv with | 1 => at2 | 2 => at3 | 3 => at4 | _ => at5
  sortBy id (l.filter fun c => d.parentOf (lv + 1) c == n)

/-! ### Deficit round robin (R274) -/

/-- What a child would yield: the queue and the length, and the device as its own choice leaves it. -/
structure Yield where
  q   : Nat
  len : Nat
  dev : Dev

/-- The round-robin pointer of a node among its children of a priority: the child + 1, 0 where it has none. -/
def rrKey (lv n prio : Nat) : Nat := nodeKey lv n * 4 + prio

/-- The next child after the pointer, cyclically; the first where there is none. -/
def nextChild (l : List Nat) (ptr : Nat) : Nat :=
  match l.find? fun c => decide (ptr < c + 1) with
  | some c => c
  | none => l.headD 0

/-- Deficit round robin among the eligible children `l` of priority `prio` of node `n` of level `lv`. -/
def drr (peek : Dev → Nat → Option Yield) (lv n prio : Nat) (l : List Nat) : Nat → Dev → Option Yield
  | 0, _ => none
  | k + 1, d =>
    let ptr := d.buf.rr.get (rrKey lv n prio)
    let move (d : Dev) : Dev :=
      let c := nextChild l ptr
      let b := d.buf
      let b := { b with rr := b.rr.set (rrKey lv n prio) (c + 1) }
      let key := nodeKey (lv + 1) c
      let b := { b with deficit := b.deficit.set key (b.deficit.get key + d.weightOf (lv + 1) c * 512) }
      { d with buf := b }
    if ptr ≠ 0 ∧ l.contains (ptr - 1) then
      let c := ptr - 1
      let key := nodeKey (lv + 1) c
      match peek d c with
      | none => none
      | some y =>
        if y.len ≤ d.buf.deficit.get key then
          let b := y.dev.buf
          some { y with dev := { y.dev with buf := { b with deficit := b.deficit.set key (b.deficit.get key - y.len) } } }
        else drr peek lv n prio l k (move d)
    else drr peek lv n prio l k (move d)

/-- What a node of level `5 - h` yields (R274): a queue its head copy, a node the choice among its eligible children. -/
def Dev.yield (root : Nat) : Nat → Nat → Dev → Option Yield
  | 0, q, d => if d.queueOk root q then some ⟨q, d.headLen q, d⟩ else none
  | h + 1, n, d =>
    let lv := 4 - h
    let ok := (d.childrenOf lv n).filter fun c =>
      d.enabledOf (lv + 1) c && d.shaperOk (lv + 1) c && (Dev.yield root h c d).isSome
    let prio := (ok.map (d.prioOf (lv + 1))).foldl min 3
    let l := ok.filter fun c => d.prioOf (lv + 1) c == prio
    if l.isEmpty then none
    else drr (fun d c => Dev.yield root h c d) lv n prio l (36 * l.length + 2) d

/-- The choice of a root. -/
def Dev.rootChoice (d : Dev) (r : Nat) : Option Yield := if d.shaperOk 1 r then Dev.yield r 4 r d else none

/-- A pick debits every node on its way. -/
def Dev.debitPath (d : Dev) (r q len : Nat) : Dev :=
  ((((d.debit 1 r len).debit 2 (d.node2Of q) len).debit 3 (d.node3Of q) len).debit 4 (d.node4Of q) len).debit 5 q len

/-! ### The picked copy -/

/-- The header engine and the crypto engine on a picked copy (R295, R310): its bytes without FCS, none where its SA is
exhausted; and the NVMe context it leaves. -/
def Dev.buildTx (d : Dev) (x : Item) (k : Copy) : Dev × Option (List Nat) × Option (Nat × Conn) :=
  let r := buildCopy x x.data k.edits
  let d := if r.2.2 = 0 then d else d.count .HDRE_CSUM_SKIP 0 r.2.2
  let nv := r.2.1.findSome? fun j => match j with | .nvme true f a c => some (f, a, c) | _ => none
  let n := match nv with
    | some v => d.nvmeTx r.1 v.1 v.2.1 v.2.2
    | none => (d, r.1, none)
  let mk := r.2.1.findSome? fun j => match j with | .mark _ a nh l => some (a, nh, l) | _ => none
  match k.sa, mk with
  | some sa, some m =>
    match n.1.takePn sa with
    | none => (n.1, none, none)
    | some p =>
      let a := p.2.sa sa
      (p.2, some (a.protect (p.2.cry.keys.get a.keySlot) n.2.1 p.1 m.1 m.2.1 m.2.2), n.2.2)
  | _, _ => (n.1, some n.2.1, n.2.2)

/-- The forward header (Table 22-3). -/
def fwdHeader (fseq src dst entry len : Nat) (t : Token) : List Nat :=
  toLe 4 fseq ++ toLe 4 ((src - 1) % 4 + (dst - 1) % 4 * 4 + entry % 256 * 16 + len % 2 ^ 14 * 2 ^ 12) ++ toLe 4 t.okey
    ++ toLe 4 t.rxts ++ toLe 8 (t.seq + t.source * 2 ^ 45) ++ List.replicate 8 0

/-- Cut bytes into messages of at most 512 bytes. -/
def chunks512 (l : List Nat) : List (List Nat) :=
  (List.range (max 1 (ceilDiv l.length 512))).map fun i => (l.drop (512 * i)).take 512

/-- A forwarded copy's messages with a FSEQ leave towards its member (R482). -/
def Dev.sendForward (d : Dev) (x : Item) (k : Copy) (m fseq : Nat) : Dev :=
  let h := fwdHeader fseq (d.get F.GRP_STATUS_ID) m (k.dest % 256) k.bytes.length x.tok
  (chunks512 (h ++ k.bytes)).foldl (fun d b => d.groupSend m 4 b) d

/-- A picked copy is forwarded (R482): it takes the next FSEQ and is held until it is acknowledged. -/
def Dev.forwardCopy (d : Dev) (st c m : Nat) : Dev :=
  match d.item st, d.copy st c with
  | some x, some k =>
    let f := d.grp.fseq.get m
    let d : Dev := { d with grp := { d.grp with fseq := d.grp.fseq.set m ((f + 1) % 2 ^ 32),
                                                fwd := d.grp.fwd ++ [{ member := m, fseq := f, stamp := st, c := c }] } }
    (d.count .GRP_FWD_TX (m - 1)).sendForward x k m f
  | _, _ => d

/-- The picked copy leaves its queue for its port, its host port or its member. -/
def Dev.startCopy (d : Dev) (r st c : Nat) : Dev :=
  match d.item st, d.copy st c with
  | some x, some k =>
    let d := d.leaveQueue st c
    if 32 ≤ r ∧ r < 34 then
      -- The ingress header engine builds the copy at its delivery.
      let d := d.setCopy st c fun k => { k with st := .sending }
      { d with net := { d.net with sending := d.net.sending.set r (some (st, c)) } }
    else
      let b := d.buildTx x k
      match b.2.1 with
      | none => (b.1.count .CRYPTO_TX_EXHAUSTED r).loseCopy st c 1 3
      | some bytes =>
        let d := b.1.setCopy st c fun k => { k with st := .sending, bytes := bytes }
        if r < 32 then
          { d with net := { d.net with sending := d.net.sending.set r (some (st, c)), conn := d.net.conn.set r b.2.2 } }
        else d.forwardCopy st c (bits k.dest 15 2 + 1)
  | _, _ => d

/-- The first relayed copy of a link's relay queue passes on (R479). -/
def Dev.startRelay (d : Dev) (l : Nat) : Dev :=
  let ms := d.relayHead l
  let d : Dev := { d with grp := { d.grp with relay := ms.foldl (fun r m => r.erase (l, m)) d.grp.relay } }
  ms.foldl (fun d m => d.elSend l m) d

/-- A root can start a copy (R213, R274). -/
def Dev.rootCanStart (d : Dev) (r : Nat) : Bool :=
  if r < 32 then d.portUp r && (d.net.sending.get r).isNone
  else if r < 34 then d.get F.HOST_PORT_STATUS_STATE (r - 32) == 2 && (d.net.sending.get r).isNone
  else d.linkActive (r - 34)

/-- A copy is past its item's deadline (R282). -/
def Dev.pastDeadline (d : Dev) (st : Nat) : Bool :=
  match d.item st with | some x => decide (x.deadline < d.mono) | none => false

/-- SCHEDULER_PICK's step: an expired head is removed and nothing else happens (R282); else the pick passes the tree. -/
def Dev.pick (d : Dev) (r : Nat) : Dev :=
  if d.isUp 21 && !d.halted && d.rootCanStart r then
    match (if r < 32 then (d.q5 (chryQueue r)).onchip else []) with
    | (st, c) :: _ => if d.pastDeadline st then d.loseCopy st c 5 0 else d.startCopy r st c
    | [] => match d.rootChoice r with
    | none => d
    | some y =>
      match d.relayLink y.q with
      | some l => (y.dev.debitPath r y.q y.len).startRelay l
      | none =>
        match (d.q5 y.q).onchip with
        | [] => d
        | (st, c) :: _ =>
          if d.pastDeadline st then (d.count .TM_Q_EXPIRED y.q).loseCopy st c 5 0
          else (y.dev.debitPath r y.q y.len).startCopy r st c
  else d

/-! ### The transmit MAC -/

/-- One bit of CRC-32 (polynomial 0xEDB8_8320 reflected, IEEE 802.3). -/
def fcsBit (c : Nat) : Nat := if c % 2 = 1 then Nat.xor (c / 2) 0xEDB88320 else c / 2

/-- The FCS of a frame (R225). -/
def fcsOf (l : List Nat) : Nat :=
  Nat.xor (l.foldl (fun c b =>
    fcsBit (fcsBit (fcsBit (fcsBit (fcsBit (fcsBit (fcsBit (fcsBit (Nat.xor c (b % 256)))))))))) 0xFFFFFFFF) 0xFFFFFFFF

/-- A field of the head is overwritten and the UDP checksum at `u` corrected (R229); 0x1FF names none. -/
def stampField (b : List Nat) (at_ u : Nat) (new : List Nat) : List Nat :=
  let old := slice b at_ new.length
  let b := splice b at_ new
  if u = 0x1FF then b
  else
    let v := beNat (slice b u 2)
    if v = 0 then b
    else
      let c := csumUpdate v (decide ((at_ + u) % 2 = 1)) old new
      splice b u (toBe 2 (if c = 0 then 0xFFFF else c))

/-- The one-step timestamp of a copy, `t` in 1/256 ns (R229): seconds and nanoseconds, or the residence time in units of
2^-16 ns added to the correctionField. -/
def Job.stamp (t : Nat) (b : List Nat) : Job → List Nat
  | .ts true a u _ _ => stampField b a u (toBe 6 (t / 256 / 1000000000) ++ toBe 4 (t / 256 % 1000000000))
  | .ts false a u f ns =>
    let cur : Int := signed 64 (beNat (slice b a 8))
    let add : Int := ((t : Int) - ((ns * 256 + f : Nat) : Int)) * 256
    stampField b a u (toBe 8 (unsigned 64 (cur + add)))
  | _ => b

/-- The two-step entry of a TS_CAPTURE (R230). -/
def Dev.captureTs (d : Dev) (p t tag : Nat) : Dev :=
  let pi := d.get F.NET_TXTS_PI_PI p
  let ci := d.get F.NET_TXTS_CI_CI p
  if (pi + 128 - ci) % 128 = 64 then d.count .NET_TXTS_DROP p
  else
    let d := d.wr .NET_TXTS (p * 64 + pi % 64) (t / 256 % 2 ^ 64 + (t % 256 + tag % 2 ^ 16 * 2 ^ 8) * 2 ^ 64)
    let pi := (pi + 1) % 128
    (d.put F.NET_TXTS_PI_PI p pi).raiseLocal (16 + p / 8) 2 p pi

end Sys2Proof.Machine
end

