-- ==== Sys2Proof/Machine/NetFlow.lean ====
section
/-!
DEFINITION. Ethernet ports (09): port geometry and rates (R210, R211), state changes and the copies they cut (R213, R227),
received and sent flow control (R222 to R224).
-/
namespace Sys2Proof.Machine

/-! ### Geometry (R210, R211) -/

/-- The lanes of a port of mode `m` (Table 09-1); 0 where the mode has none. -/
def modeLanes (m : Nat) : Nat := match m with | 1 => 8 | 2 => 4 | 3 => 2 | 4 => 1 | 5 => 4 | 6 => 1 | _ => 0

/-- Port index `i` is a first lane in mode `m`. -/
def isFirstLane (m i : Nat) : Bool := modeLanes m != 0 && i % modeLanes m == 0

/-- The lanes of port `p`, 0 where it is ABSENT. -/
def Dev.portLanes (d : Dev) (p : Nat) : Nat :=
  let m := d.get F.NET_GROUP_CFG_MODE (p / 8)
  if isFirstLane m (p % 8) then modeLanes m else 0

/-- The first port of lane index `k` of island `n`. -/
def Dev.portOfLane (d : Dev) (n k : Nat) : Nat :=
  let w := max 1 (modeLanes (d.get F.NET_GROUP_CFG_MODE n))
  n * 8 + k / w * w

/-- The rate of one lane in Mb/s (Tables 09-1 and 09-2), as port rate. -/
def Dev.laneMbps (d : Dev) (p : Nat) : Nat :=
  match d.get F.NET_GROUP_CFG_MODE (p / 8) with
  | 5 => 25000
  | 6 => (match d.get F.NET_PORT_CFG_LANE_MODE p with | 0 => 100000 | 1 => 50000 | 2 => 25000 | _ => 10000)
  | _ => 100000

/-- The rate of a port in Mb/s: half of it where it is DEGRADED. -/
def Dev.portMbps (d : Dev) (p : Nat) : Nat :=
  let w := if d.get F.NET_PORT_STATUS_STATE p = 5 then d.get F.NET_PORT_STATUS_WIDTH p else d.portLanes p
  max 1 (d.laneMbps p * max 1 w)

/-- `n` bit times of a port in ns, rounded up. -/
def Dev.bitTimes (d : Dev) (p n : Nat) : Nat := ceilDiv (n * 1000) (d.portMbps p)

/-! ### Lanes (R236, R237) -/

/-- The element of a lane: NET `n`, lane index `k`. -/
def laneIx (n k : Nat) : Nat := n * 12 + k

/-- Lane index `k` of NET `n` exists (10 Model). -/
def hasLane (n k : Nat) : Bool := n != 0 || decide (k < 8)

/-- A lane's stage. -/
def Dev.laneStage (d : Dev) (n k : Nat) : Nat := d.get F.NET_LANE_STATUS_STATE (laneIx n k)

/-- A lane. -/
def Dev.lane (d : Dev) (n k : Nat) : Lane := d.net.lanes.get (laneIx n k)

/-- Store a lane. -/
def Dev.setLane (d : Dev) (n k : Nat) (x : Lane) : Dev := { d with net := { d.net with lanes := d.net.lanes.set (laneIx n k) x } }

/-- A lane takes a stage (Table 10-3): CHANGE and LANE_CHANGE at every change; a lane that leaves READY loses its margins and
aborts a scan (R256, R257). -/
def Dev.laneState (d : Dev) (n k v : Nat) : Dev :=
  let i := laneIx n k
  let old := d.laneStage n k
  let d := d.setLane n k { d.lane n k with since := d.mono }
  if old = v then d
  else
    let d := (d.put F.NET_LANE_STATUS_STATE i v).put F.NET_LANE_STATUS_CHANGE i 1
    let d := d.raiseLocal (16 + n) 5 k (d.rd .NET_LANE_STATUS i)
    if old = 4 then
      let d := (d.wr .NET_LANE_MARGIN i 0).setLane n k { since := d.mono }
      match d.net.scan.get n with
      | some (l, e, _) =>
        if l = k then { d with net := { d.net with scan := d.net.scan.set n (some (l, e, true)) } } else d
      | none => d
    else d

/-! ### State changes -/

/-- The hold of R57 on every copy queued below port `p` starts, or ends as the port returns. -/
def Dev.holdPort (d : Dev) (p : Nat) (up : Bool) : Dev :=
  d.items.cells.foldl (fun d c =>
    match c.2 with
    | none => d
    | some x =>
      (List.range x.copies.length).foldl (fun d i =>
        match d.copy c.1 i with
        | none => d
        | some k =>
          if (k.st == .onchip || k.st == .deep) && d.rootOfQueue k.q == p then
            d.setCopy c.1 i fun k => { k with hold := if up then none else
              (match k.hold with | some t => some t | none => some (d.mono + d.get F.TM_PORT_HOLD_HOLD_MS p * 1000000)) }
          else d) d) d

/-- The copy in transmission on port `p` is cut and returns to the head of its queue (R227). -/
def Dev.cutSending (d : Dev) (p : Nat) : Dev :=
  match d.net.sending.get p with
  | none => d
  | some (st, c) =>
    let d : Dev := { d with net := { d.net with sending := d.net.sending.set p none, conn := d.net.conn.set p none } }
    let d := d.emit (.frameCut p)
    match d.copy st c with
    | none => d
    | some k =>
      let x := d.q5 k.q
      let d := d.setQ5 k.q { x with onchip := (st, c) :: x.onchip, onBytes := x.onBytes + k.len }
      d.setCopy st c fun k => { k with st := .onchip, bytes := [] }

/-- A port takes state `v` with `w` lanes in use (Table 09-5): CHANGE and PORT_CHANGE at every change of STATE, the cut and the
hold where it leaves UP or DEGRADED, and the end of the hold where it enters them. -/
def Dev.portState (d : Dev) (p v w : Nat) : Dev :=
  let old := d.get F.NET_PORT_STATUS_STATE p
  let was := d.portUp p
  let d := (d.put F.NET_PORT_STATUS_STATE p v).put F.NET_PORT_STATUS_WIDTH p w
  if old = v then d
  else
    let d := d.put F.NET_PORT_STATUS_CHANGE p 1
    let d := d.raiseLocal (16 + p / 8) 0 p (d.rd .NET_PORT_STATUS p)
    -- The kinds of Table 21-5 that name the change.
    let d := if v = 5 then d.fault 2 5 (16 + p / 8) p else if v = 2 ∧ 3 ≤ old then d.fault 2 4 (16 + p / 8) p else d
    let now := d.portUp p
    if was && !now then (d.cutSending p).holdPort p false
    else if !was && now then d.holdPort p true
    else d

/-- The lanes that a port trains on, as a mask of lane indices of its island. -/
def laneMask (first n : Nat) : Nat := (2 ^ n - 1) * 2 ^ first

/-- A port starts training on `w` lanes from lane index `a` of its island (R213, R232, R233); `tmo` says that
DEGRADE_TMO bounds it. -/
def Dev.startTraining (d : Dev) (p a w : Nat) (full : Bool) (tmo : Bool) : Dev :=
  let d := d.portState p 3 w
  let d := (List.range w).foldl (fun d j => if d.laneStage (p / 8) (a + j) = 0 then d.laneState (p / 8) (a + j) 1 else d) d
  let x := d.net.ports.get p
  let x : Port := { x with lanes := laneMask a w, full := full, half := if full then x.half else laneMask a w, train := if tmo then some d.mono else none }
  { d with net := { d.net with ports := d.net.ports.set p x } }

/-- The state a port of the group takes from its configuration (R211, R212): ABSENT, DISABLED, or TRAINING at full width. -/
def Dev.portBegin (d : Dev) (p : Nat) : Dev :=
  let w := d.portLanes p
  let clear (d : Dev) : Dev := { d with net := { d.net with ports := d.net.ports.set p { d.net.ports.get p with train := none, lanes := 0 } } }
  if w = 0 then clear (d.portState p 0 0)
  else if d.flag F.NET_PORT_CFG_ENABLE p then d.startTraining p (p % 8) w true false
  else clear (d.portState p 1 0)

/-! ### Received flow control (R222, R224) -/

/-- The key of a pause: class 8 is the whole port. -/
def pauseKey (p c : Nat) : Nat := p * 9 + c

/-- RX_PAUSED follows the pauses of a port. -/
def Dev.rxPaused (d : Dev) (p : Nat) : Dev :=
  d.put F.NET_PORT_STATUS_RX_PAUSED p (b2n ((List.range 9).any fun c => (d.net.pause.get (pauseKey p c)).isSome))

/-- The pause of a class ends. -/
def Dev.unpause (d : Dev) (p c : Nat) : Dev :=
  let n := d.net
  let k := pauseKey p c
  ({ d with net := { n with pause := n.pause.set k none, since := n.since.set k none } } : Dev).rxPaused p

/-- A quanta value for a class is honoured (R222): quanta 0 resumes at once and ends an ignore period (R224); within an ignore
period any other is ignored. -/
def Dev.pauseClass (d : Dev) (p c q : Nat) : Dev :=
  let k := pauseKey p c
  let cnt (d : Dev) : Dev := d.count .NET_RX_PAUSE (p * 8 + c % 8)
  if q = 0 then
    let d := (cnt d).unpause p c
    { d with net := { d.net with ignore := d.net.ignore.set k none } }
  else
    let ign := match d.net.ignore.get k with | some t => decide (d.mono < t) | none => false
    if ign then d
    else
      let n := d.net
      let since := match n.since.get k with | some t => t | none => d.mono
      let e := d.mono + d.bitTimes p (q * 512)
      (cnt { d with net := { n with pause := n.pause.set k (some e), since := n.since.set k (some since),
                                     ignore := n.ignore.set k none } }).rxPaused p

/-- A MAC Control frame of a port (R215, R222): its opcode, class-enable vector and quanta. Honoured under the port's mode,
else discarded and counted. -/
def Dev.pauseReceived (d : Dev) (p op vec : Nat) (qs : List Nat) : Dev :=
  let m := d.get F.NET_PORT_CFG_FC_MODE p
  let on := d.flag F.NET_PORT_CFG_FC_RX_EN p
  if on && m == 1 && op == 1 then d.pauseClass p 8 (qs.getD 0 0)
  else if on && m == 2 && op == 0x101 then
    let mask := d.get F.NET_PORT_CFG_PFC_MASK p
    (List.range 8).foldl (fun d c => if bit vec c && bit mask c then d.pauseClass p c (qs.getD c 0) else d) d
  else d.count .NET_RX_MACCTL p

/-! ### Sent flow control (R223) -/

/-- XOFF of a port by class, bit 8 for the port under PAUSE (R267). -/
def Dev.portXoff (d : Dev) (p : Nat) : Nat :=
  let on := (List.range 8).filter fun c => d.buf.xoff.get (p * 8 + c)
  match d.get F.NET_PORT_CFG_FC_MODE p with
  | 1 => if on.isEmpty then 0 else 2 ^ 8
  | 2 => on.foldl (fun a c => if bit (d.get F.NET_PORT_CFG_PFC_MASK p) c then a + 2 ^ c else a) 0
  | _ => 0

/-- A flow-control frame that carries `quanta` for the classes of `mask` (R223), in the layout of IEEE 802.3; the manual does
not state its source address (Config.portMac). -/
def Dev.pauseFrame (d : Dev) (p mask quanta : Nat) : List Nat :=
  let head := [0x01, 0x80, 0xC2, 0x00, 0x00, 0x01] ++ slice (Config.portMac p) 0 6 ++ [0x88, 0x08]
  let body := if d.get F.NET_PORT_CFG_FC_MODE p = 1 then toBe 2 1 ++ toBe 2 quanta
    else toBe 2 0x101 ++ toBe 2 (mask % 256) ++ (List.range 8).flatMap fun c => toBe 2 (if bit mask c then quanta else 0)
  let f := head ++ body
  let f := f ++ List.replicate (60 - f.length) 0
  f ++ toLe 4 (fcsOf f)

/-- A flow-control frame is sent for the classes of `mask` (bit 8: the port) and counted. -/
def Dev.sendPause (d : Dev) (p mask quanta : Nat) : Dev :=
  let d := d.emit (.frame p (d.pauseFrame p mask quanta))
  (List.range 9).foldl (fun d c => if bit mask c then d.count .NET_TX_PAUSE (p * 8 + c % 8) else d) d

end Sys2Proof.Machine
end

