-- ==== Sys2Proof/Machine/Frames.lean ====
section
/-!
DEFINITION. Frames in (09, 11): the receive MAC, admission segment by segment, and acceptance.
-/
namespace Sys2Proof.Machine

/-- An item is accepted (R41, R47, R281): it takes the next stamp of its source, a handle, the current generation of its
instance and its deadline. -/
def Dev.accept (d : Dev) (src : Nat) (x : Item) : Dev :=
  let r := d.nextStamp src
  let d := r.2
  let h := d.buf.nextHandle
  let d : Dev := { d with buf := { d.buf with nextHandle := (h + 1) % 2 ^ 32 } }
  let tok := { x.tok with source := src, seq := r.1 % 2 ^ 45, gen := d.gen x.tok.inst, handle := h }
  let x := { x with tok := tok, deadline := d.mono + d.get F.TM_LIFETIME_LIFE_MS * 1000000 }
  (d.setItem r.1 x).countAccept src x.tok.port x.tok.inst

/-- Port `p` is a Chrysalis port in service: one lane NLx used as port x (R546). -/
def Dev.chryPort (d : Dev) (p : Nat) : Bool :=
  !d.inService && d.flag F.RST_CHRY_STATUS_ACTIVE &&
    d.stw.chry.ports.any fun x => match x with | some c => c.lane == p | none => false

/-- A frame is parsed and offered to admission of an accounting point (R214, R217 to R220, R235). `t` is its timestamp in
1/256 ns at the ball. -/
def Dev.offerFrame (d : Dev) (p : Nat) (data : List Nat) (t : Nat) (ovr : Bool) : Dev :=
  let n := p / 8
  let b := data.take 256
  let prof := d.frameProfile p (etherType b data.length)
  let k := n * 16 + prof
  let ps := parseFrame b data.length (d.get F.NET_TUN_UDP_VXLAN_PORT n) (d.get F.NET_TUN_UDP_GENEVE_PORT n)
    (d.flag F.NET_PROFILE_CFG_TUNNEL_PARSE k)
  let cls := if d.inService then d.frameClass n prof ps else 0
  if ovr then d.count .NET_RX_FIFO (p * 8 + cls)
  else if !d.accepts then d.count .NET_RX_ADMIT (p * 8 + cls)
  else if !d.inService && !d.chryPort p then d
  else
    let hash := if d.flag F.NET_PROFILE_CFG_ORDER_HASH k then ps.hash b (d.get F.NET_PROFILE_CFG_HASH_FIELDS k) else 0
    let rec_ := ps.record cls hash t
    let tok : Token :=
      { source := n, inst := d.get F.NET_PROFILE_CFG_INSTANCE k, okey := p * 2 ^ 20 + hash,
        slot := d.get F.NET_PROFILE_CFG_SLOT k, len := data.length, head := min 256 data.length, prof := prof, port := p,
        queue := rec_.getD 0 0 + rec_.getD 1 0 * 256, index := ps.flags % 2 ^ 16, rxts := t / 256 % 2 ^ 32 }
    let d := (d.count .NET_RX_FRAMES (p * 8 + cls)).count .NET_RX_BYTES (p * 8 + cls) data.length
    let f : RxFrame := { port := p, iap := p, cls := cls, bytes := data, parse := rec_, tok := tok }
    { d with buf := { d.buf with rx := d.buf.rx ++ [f] } }

/-- FRAME_RECEIVE (R214 to R216, R228): the bytes from DA through FCS as they arrived, the instant of the first bit after the
SFD in units of 1/256 ns, and whether the preamble was bad, the frame was cut, or its data would overrun the receive
store. -/
def execFrameReceive (p : Fin 32) (bytes : List Nat) (ts : Nat) (badPre cut ovr : Bool) (s : State) : Res := s.on fun d =>
  d.onIsland (16 + p.val / 8) fun d =>
    let n := bytes.length
    let fcs := leNat (bytes.drop (n - 4))
    let data := bytes.take (n - 4)
    if !d.portUp p.val || badPre then d
    else if d.get F.NET_PORT_CFG_MAX_FRAME p.val < n then d.count .NET_RX_OVERSIZE p.val
    else if cut then d.count .NET_RX_FCS p.val
    else if n < 64 then d.count .NET_RX_RUNT p.val
    else if fcs ≠ fcsOf data then d.count .NET_RX_FCS p.val
    else if beNat (slice data 12 2) = 0x8808 ∧ d.chryPort p.val = false then
      let op := beNat (slice data 14 2)
      let qs := if op = 1 then [beNat (slice data 16 2)] else (List.range 8).map fun c => beNat (slice data (18 + 2 * c) 2)
      d.pauseReceived p.val op (beNat (slice data 16 2)) qs
    else d.offerFrame p.val data (ts - d.get F.NET_TS_CORR_RX_PS p.val * 256 / 1000) ovr

/-- A frame at admission is dropped whole (R33, R266, R269): its cells return, and a port counts it. -/
def Dev.refuseFrame (d : Dev) (f : RxFrame) (reorder : Bool) : Dev :=
  let d : Dev := { d with buf := { d.buf with rx := d.buf.rx.erase f } }
  let c : Charge := { resv := f.resv, shared := f.shared, head := f.headroom }
  let d := if c = {} then d else d.freeCells (f.iap * 8 + f.cls) c
  let d := if f.iap < 32 then d.count .NET_RX_ADMIT (f.iap * 8 + f.cls) else d
  if reorder then (d.count .BUF_ADM_REORDER_FULL).fault 9 5 21 else d

/-- Admission takes the next segment of a frame (R266, R269, R41): with its last segment the frame is accepted. -/
def Dev.admitSegment (d : Dev) (f : RxFrame) : Dev :=
  let left := f.bytes.length - f.taken
  let seg := min 512 left
  let last := left ≤ 512
  let room := !last || d.robRoom f.tok.okey
  match d.takeCells (f.iap * 8 + f.cls) (cellsOf seg) with
  | none => d.refuseFrame f false
  | some r =>
    let g := { f with taken := f.taken + seg, resv := f.resv + r.2.resv, shared := f.shared + r.2.shared,
                      headroom := f.headroom + r.2.head }
    let b := r.1.buf
    let d : Dev := { r.1 with buf := { b with rx := b.rx.replace f g } }
    if !last then d
    else if !room then d.refuseFrame g true
    else
      let d : Dev := { d with buf := { d.buf with rx := d.buf.rx.erase g } }
      -- On the Chrysalis path the order key has HASH 0 and no token is dispatched (R546, R547).
      let ch := g.iap < 32 && !d.inService
      let tok := if ch then { g.tok with okey := g.port * 2 ^ 20 } else g.tok
      d.accept g.tok.source { tok := tok, chry := ch, pst := if ch then .loading else .waiting, data := g.bytes, parse := g.parse, iap := g.iap, cls := g.cls, resv := g.resv,
                              shared := g.shared, headroom := g.headroom }

/-- SEGMENT_ADMIT (R266): the next segment of the oldest frame of an accounting point. -/
def execSegmentAdmit (iap : Fin 36) (s : State) : Res := s.on fun d =>
  d.onIsland 21 fun d =>
    match d.buf.rx.find? (·.iap == iap.val) with
    | none => d
    | some f => d.admitSegment f

end Sys2Proof.Machine
end

