-- ==== Sys2Proof/Machine/Images.lean ====
section
/-!
DEFINITION. Program images (04, 26): the checks of the loader (R113, R114, R575), their placement (R593, R444), and what a
binding gives a slot (R443).
-/
namespace Sys2Proof.Machine

/-! ### The checks of Tables 04-9 to 04-11 -/

/-- The first breach of a list of checks: the DETAIL of the first condition that holds. -/
def firstBreach : List (Bool × Nat) → Option Nat
  | [] => none
  | (c, x) :: t => if c then some x else firstBreach t

/-- Entry `i` of the section table: TYPE, FLAGS, OFFSET, SIZE, CRC32C. -/
def secAt (b : List Nat) (i : Nat) : Nat × Nat × Nat × Nat × Nat :=
  let o := 0x80 + 16 * i
  (leNat (slice b o 2), leNat (slice b (o + 2) 2), leNat (slice b (o + 4) 4), leNat (slice b (o + 8) 4), leNat (slice b (o + 12) 4))

/-- The index of the section of a TYPE. -/
def secIx (b : List Nat) (ty : Nat) : Option Nat :=
  (List.range (leNat (slice b 0xA 2))).find? fun i => (secAt b i).1 == ty

/-- Offset and size of a section, (0, 0) where it is absent. -/
def secOf (b : List Nat) (ty : Nat) : Nat × Nat :=
  match secIx b ty with
  | some i => ((secAt b i).2.2.1, (secAt b i).2.2.2.1)
  | none => (0, 0)

/-- The data of a section. -/
def secData (b : List Nat) (ty : Nat) : List Nat := slice b (secOf b ty).1 (secOf b ty).2

/-- Two sections overlap. -/
def secClash (b : List Nat) (i j : Nat) : Bool :=
  let x := secAt b i
  let y := secAt b j
  decide (x.2.2.1 < y.2.2.1 + y.2.2.2.1 ∧ y.2.2.1 < x.2.2.1 + x.2.2.2.1)

/-- The header checks, in the order of their offsets. -/
def headerChecks (b : List Nat) (len : Nat) : List (Bool × Nat) :=
  let w (o n : Nat) : Nat := leNat (slice b o n)
  [(w 0 4 != 0x4C474E5A, 0), (w 4 2 != 1, 4), (w 8 1 != 1, 8), (w 9 1 != 0, 9), (w 0xA 2 == 0 || decide (16 < w 0xA 2), 0xA),
   (w 0xC 4 / 2 != 0, 0xC), (len != w 0x10 4 || w 0x10 4 % 16 != 0 || decide (0x140000 < w 0x10 4), 0x10),
   (w 0x14 4 % 4 != 0 || decide (262144 < w 0x14 4), 0x14), (decide (1048576 < w 0x18 4), 0x18),
   (decide (w 0x1C 4 < 512) || decide (8192 < w 0x1C 4) || w 0x1C 4 % 16 != 0, 0x1C),
   ((slice b 0x24 12).any (· != 0), 0x24), ((slice b 0x60 32).any (· != 0), 0x60)]

/-- The checks of entry `i` of the section table. -/
def tableChecks (b : List Nat) (len i : Nat) : List (Bool × Nat) :=
  let o := 0x80 + 16 * i
  let x := secAt b i
  let size := x.2.2.2.1
  let first := 0x80 + 16 * leNat (slice b 0xA 2)
  [(x.1 == 0 || decide (6 < x.1) || (List.range i).any fun j => (secAt b j).1 == x.1, o), (x.2.1 != 0, o + 2),
   (x.2.2.1 % 16 != 0 || decide (x.2.2.1 < first) || (List.range i).any (fun j => secClash b j i), o + 4),
   (decide (len < x.2.2.1 + size) || (x.1 == 6 && size != 96), o + 8),
   (crc32c (slice b x.2.2.1 size) != x.2.2.2.2, o + 12)]

/-- The checks of the sections together. -/
def sectionChecks (b : List Nat) : List (Bool × Nat) :=
  [((secIx b 1).isNone || (secIx b 3).isNone || (secIx b 4).isNone, 0xA),
   (bit (leNat (slice b 0xC 4)) 0 != (secIx b 6).isSome, 0xC),
   ((secOf b 1).2 != leNat (slice b 0x14 4), 0x14), ((secOf b 2).2 != leNat (slice b 0x18 4), 0x18)]

/-- The checks of ENTRIES record `i` at offset `o`. -/
def entryChecks (b : List Nat) (base i : Nat) : List (Bool × Nat) :=
  let o := base + 16 * i
  let w (k n : Nat) : Nat := leNat (slice b (o + k) n)
  let bud := w 8 4
  let h := w 0xD 3
  [((List.range i).any fun j => slice b (base + 16 * j) 1 == slice b o 1, o), (decide (1 < w 1 1), o + 1), (w 2 2 != 0, o + 2),
   (w 4 4 % 4 != 0 || decide (leNat (slice b 0x14 4) ≤ w 4 4), o + 4),
   (bud != 0 && (decide (bud < 1000) || decide (10000000 < bud)), o + 8), (decide (32 < w 0xC 1), o + 0xC),
   (bits h 18 5 != 0 || bits h 0 2 != 0 || (!bit h 23 && bits h 0 18 != 0), o + 0xD)]

/-- The checks of TREFS record `i`. -/
def trefChecks (b : List Nat) (base i : Nat) : List (Bool × Nat) :=
  let o := base + 4 * i
  let w := leNat (slice b o 4)
  [(decide (63 < bits w 0 8) || bits w 10 6 != 0 || w / 2 ^ 16 != 0
      || (List.range i).any (fun j => slice b (base + 4 * j) 1 == slice b o 1), o)]

/-- The image with the bytes that R113 leaves out of the DIGEST replaced by 0. -/
def digestBytes (b : List Nat) : List Nat :=
  let b := splice b 0x30 (List.replicate 48 0)
  match secIx b 6 with
  | none => b
  | some i => splice (splice b (secAt b i).2.2.1 (List.replicate (secAt b i).2.2.2.1 0)) (0x80 + 16 * i + 12) [0, 0, 0, 0]

/-- The first breach of R113 and R114 by an image given with length `len`: its DETAIL. -/
def imageBreach (b : List Nat) (len : Nat) : Option Nat :=
  match firstBreach (headerChecks b len) with
  | some x => some x
  | none =>
    let n := leNat (slice b 0xA 2)
    let e := secOf b 3
    let t := secOf b 4
    match firstBreach ((List.range n).flatMap (tableChecks b len) ++ sectionChecks b) with
    | some x => some x
    | none =>
      firstBreach ([(e.2 % 16 != 0 || e.2 == 0 || decide (4096 < e.2), 0x80 + 16 * (secIx b 3).getD 0 + 8),
          (t.2 % 4 != 0, 0x80 + 16 * (secIx b 4).getD 0 + 8)]
        ++ (List.range (e.2 / 16)).flatMap (entryChecks b e.1) ++ (List.range (t.2 / 4)).flatMap (trefChecks b t.1)
        ++ [(Config.sha384 (digestBytes b) != slice b 0x30 48, 0x30)])

/-- The DIGEST of an image. -/
def imageDigest (b : List Nat) : List Nat := slice b 0x30 48

/-- The program signing key (R553), its 96 bytes; none where it is blank. -/
def Dev.progKey (d : Dev) : Option (List Nat) :=
  let l := (List.range 24).flatMap fun k => toLe 4 (d.rd .FUSE_VALUE (96 + k))
  if l.all (· == 0) then none else some l

/-- The signing rule of R575: DETAIL where the image is refused. -/
def Dev.signBreach (d : Dev) (b : List Nat) : Option Nat :=
  let must := bit (d.rd .FUSE_VALUE 4) 0
  match secIx b 6, d.progKey with
  | none, _ => if must then some 0xC else none
  | some i, none => if must then some (0x80 + 16 * i) else none
  | some i, some k => if Config.ecdsaVerify k (imageDigest b) (secData b 6) then none else some (0x80 + 16 * i)

/-! ### Placement -/

/-- The loaded images, by IMAGE_ID. -/
def Dev.images (d : Dev) : List (Nat × ProgImage) := d.stw.imgs.cells.filterMap fun c => c.2.map fun x => (c.1, x)

/-- The places of `n` bytes in a region of `size` bytes that are clear of the ranges in use, at multiples of `al`. -/
def fitPlaces (used : List (Nat × Nat)) (size al n : Nat) : List Nat :=
  ((List.range (size / al)).map (· * al)).filter fun o =>
    decide (o + n ≤ size) && used.all fun u => decide (o + n ≤ u.1 ∨ u.1 + u.2 ≤ o)

/-- One of the places that fit. -/
def pickPlace (used : List (Nat × Nat)) (size al n : Nat) : Option Nat :=
  let l := fitPlaces used size al n
  if l.isEmpty then none else l[Config.imagePlace used n % l.length]?

/-- The ranges of an instruction bank in use: the first 32 KiB of bank 0 belong to the supervisor. -/
def Dev.bankUse (d : Dev) (bank : Nat) : List (Nat × Nat) :=
  (if bank = 0 then [(0, 32768)] else []) ++ (d.images.filter fun x => x.2.bank == bank).map fun x => (x.2.code, x.2.codeLen)

/-- Bank and place for CODE of `n` bytes: bank 0 first, then bank 1. -/
def Dev.placeCode (d : Dev) (n : Nat) : Option (Nat × Nat) :=
  match pickPlace (d.bankUse 0) 262144 4 n with
  | some o => some (0, o)
  | none => (pickPlace (d.bankUse 1) 262144 4 n).map fun o => (1, o)

/-- The place of a SHARED section of `n` bytes. -/
def Dev.placeShared (d : Dev) (n : Nat) : Option Nat :=
  pickPlace (d.images.map fun x => (x.2.shared, x.2.sharedLen)) 1048576 16 n

/-- Bytes are written to shared LOCAL of every pod. -/
def Dev.fillShared (d : Dev) (o : Nat) (b : List Nat) : Dev :=
  (List.range 16).foldl (fun d p => (b.mapIdx fun i x => (i, x)).foldl (fun (d : Dev) e =>
    { d with shl := d.shl.set (p * 2 ^ 20 + o + e.1) e.2 }) d) d

/-- An ENTRIES record as the loader keeps it. -/
def entryOf (b : List Nat) : ProgEntry :=
  let bud := leNat (slice b 8 4)
  { slot := leNat (slice b 0 1), tenant := slice b 1 1 == [1], code := leNat (slice b 4 4),
    budget := if bud = 0 then 100000 else bud, handler := leNat (slice b 0xD 3) }

/-- A checked image is placed and loaded: its IMAGE_ID, or none where it does not fit. -/
def Dev.loadImage (d : Dev) (owner : Nat) (b : List Nat) : Option (Nat × Dev) :=
  let e := secData b 3
  let t := secData b 4
  match d.placeCode (secOf b 1).2, d.placeShared (secOf b 2).2 with
  | some c, some o =>
    let x : ProgImage :=
      { owner := owner, bytes := b, bank := c.1, code := c.2, codeLen := (secOf b 1).2, shared := o, sharedLen := (secOf b 2).2,
        entries := (List.range (e.length / 16)).map fun i => entryOf (slice e (16 * i) 16),
        trefs := (List.range (t.length / 4)).map fun i => (t.getD (4 * i) 0, t.getD (4 * i + 1) 0) }
    let id := d.stw.nextImg
    let d := d.fillShared o (secData b 2)
    some (id, { d with stw := { d.stw with imgs := d.stw.imgs.set id (some x), nextImg := (id + 1) % 2 ^ 32 } })
  | _, _ => none

/-! ### Bindings (R107, R443) -/

/-- The map entry of a TREF: descriptor, READ, WRITE. -/
def mapEntry (map : List Nat) (k : Nat) : Nat × Bool × Bool :=
  let w := leNat (slice map (4 * k) 4)
  (bits w 0 10, bit w 10, bit w 11)

/-- The first TREF whose entry fails: status (2 BAD_FIELD, 3 NOT_PERMITTED) and TREF. -/
def Dev.mapFault (d : Dev) (x : ProgImage) (tenant : Bool) (inst : Nat) (map : List Nat) : Option (Nat × Nat) :=
  (List.range 64).findSome? fun k =>
    let m := mapEntry map k
    let need := ((x.trefs.find? (·.1 == k)).map (·.2)).getD 0
    let granted := m.2.1 || m.2.2
    if leNat (slice map (4 * k) 4) / 2 ^ 12 ≠ 0 then some (2, k)
    else if granted && !d.flag F.TABLE_DESC_CFG_VALID m.1 then some (2, k)
    else if granted && tenant && d.get F.TABLE_DESC_CFG_OWNER m.1 != inst &&
        !(d.flag F.TABLE_DESC_CFG_SHARED_READ m.1 && !m.2.2) then some (3, k)
    else if (bit need 0 && !m.2.1) || (bit need 1 && !m.2.2) || ((x.trefs.any (·.1 == k)) && !granted) then some (2, k)
    else none

/-- The version that a binding gives a slot: its image's entry, with the handler word and the map (R151, R443, R593). -/
def versionOf (id pf : Nat) (x : ProgImage) (e : ProgEntry) (inst : Nat) (map : List Nat) : SlotVer × Nat × List TRef :=
  ({ image := id, entry := e.code, code := x.codeLen, base := x.code, shared := 0x100000 + x.shared, budget := e.budget,
     tenant := e.tenant, inst := inst, owner := pf, bank := x.bank },
   if bit e.handler 23 then 2 ^ 31 + (x.code + bits e.handler 0 18) % 2 ^ 18 else 0,
   (List.range 64).map fun k =>
     let m := mapEntry map k
     { table := if m.2.1 || m.2.2 then some m.1 else none, rd := m.2.1, wr := m.2.2 })

end Sys2Proof.Machine
end

