-- ==== Sys2Proof/Machine/Mailbox.lean ====
section
/-!
DEFINITION. Instance mailboxes (19): R430 to R437. Each instance has an uplink, sent at its tenant end and received at its
manager end, and a downlink the other way; `up` names the direction. The registers of the tenant ends are `MBX_T_…`,
those of the manager ends `MBX_…`; SHM_BASE and SHM_CFG are one pair
that both ends reach (R438).
-/
namespace Sys2Proof.Machine

/-- The register of an end that has the place of a given manager-end register (Table 19-1). -/
def Reg.atEnd (r : Reg) (tenant : Bool) : Reg :=
  if !tenant then r
  else match r with
    | .MBX_TX_MSG => .MBX_T_TX_MSG | .MBX_TX_CFG => .MBX_T_TX_CFG | .MBX_TX_CTL => .MBX_T_TX_CTL
    | .MBX_TX_STATUS => .MBX_T_TX_STATUS | .MBX_RX_MSG => .MBX_T_RX_MSG | .MBX_RX_INFO => .MBX_T_RX_INFO
    | .MBX_RX_TAKE => .MBX_T_RX_TAKE
    | r => r

/-- A field at an end. -/
def Fld.atEnd (f : Fld) (tenant : Bool) : Fld := { f with reg := f.reg.atEnd tenant }

/-- The instance that owns the sending and the receiving end of a mailbox of instance `i`. -/
def Dev.mbxSender (d : Dev) (i : Nat) (up : Bool) : Nat := if up then i else d.pfOf i
def Dev.mbxReceiver (d : Dev) (i : Nat) (up : Bool) : Nat := if up then d.pfOf i else i

/-- An instance is CREATED or ENABLED and its host port is UP (Table 19-6). -/
def Dev.present (d : Dev) (i : Nat) : Bool :=
  let st := d.get F.INST_STATE_STATE i
  (st == 2 || st == 3) && d.get F.HOST_PORT_STATUS_STATE (d.hostPortOf i) == 2

/-- The sender's STATE changes (Table 19-3). -/
def Dev.mbxState (d : Dev) (i : Nat) (up : Bool) (st reason : Nat) : Dev :=
  let d := d.put (F.MBX_TX_STATUS_STATE.atEnd up) i st
  let d := d.put (F.MBX_TX_STATUS_REASON.atEnd up) i reason
  d.put (F.MBX_TX_STATUS_CHANGE.atEnd up) i 1

/-- TX_STATUS and RX_INFO of a mailbox. -/
def Dev.mbxTx (d : Dev) (i : Nat) (up : Bool) : Nat := d.rd (Reg.atEnd .MBX_TX_STATUS up) i
def Dev.mbxRx (d : Dev) (i : Nat) (up : Bool) : Nat := d.rd (Reg.atEnd .MBX_RX_INFO (!up)) i

/-- The sender's message is PENDING. -/
def Dev.mbxPending (d : Dev) (i : Nat) (up : Bool) : Bool := d.get (F.MBX_TX_STATUS_STATE.atEnd up) i == 1

/-- The end of a PENDING message's wait. -/
def mbxKey (i : Nat) (up : Bool) : Nat := i * 2 + b2n up
def Dev.setMbxDue (d : Dev) (i : Nat) (up : Bool) (v : Option Nat) : Dev :=
  { d with hst := { d.hst with mbxDue := d.hst.mbxDue.set (mbxKey i up) v } }

/-- A message is withdrawn: the box empties and STATE becomes TIMEOUT with a reason (R434). -/
def Dev.mbxTimeout (d : Dev) (i : Nat) (up : Bool) (reason : Nat) : Dev :=
  if d.mbxPending i up then
    let d := (d.put (F.MBX_RX_INFO_FULL.atEnd (!up)) i 0).setMbxDue i up none
    let d := d.mbxState i up 3 reason
    d.raiseInst 0x008 (d.mbxSender i up) (if up then d.mbxReceiver i up else i) (d.mbxTx i up)
  else d

/-- A message is placed in the box (R431, R437), and the receiver's MBX_RX is raised. -/
def Dev.mbxPlace (d : Dev) (i : Nat) (up : Bool) (words : List Nat) (src gen seq : Nat) : Dev :=
  let r := Reg.atEnd .MBX_RX_MSG (!up)
  let d := (List.range 8).foldl (fun d k => d.wr r (i * 8 + k) (words.getD k 0)) d
  let d := d.wr (Reg.atEnd .MBX_RX_INFO (!up)) i (1 + src % 4 * 2 + gen % 2 ^ 12 * 16 + seq % 2 ^ 16 * 2 ^ 16)
  d.raiseInst 0x006 (d.mbxReceiver i up) i (d.mbxRx i up)

/-- SEND is set at the sending end of a mailbox (R431). -/
def Dev.mbxSend (d : Dev) (i : Nat) (up : Bool) : Dev :=
  if d.mbxPending i up then (if up then d.count .MBX_T_SEND_BUSY i else d.count .MBX_SEND_BUSY i)
  else
    let s := d.get (F.MBX_TX_STATUS_SEQ.atEnd up) i
    let seq := if s = 0xFFFF then 1 else s + 1
    let d := d.put (F.MBX_TX_STATUS_SEQ.atEnd up) i seq
    if d.present (d.mbxReceiver i up) then
      let msg := (List.range 8).map fun k => d.rd (Reg.atEnd .MBX_TX_MSG up) (i * 8 + k)
      let d := d.mbxPlace i up msg 0 (d.gen (d.mbxSender i up)) seq
      let tmo := d.get (F.MBX_TX_CFG_TMO_MS.atEnd up) i
      (d.mbxState i up 1 0).setMbxDue i up (some (d.mono + tmo * 1000000))
    else
      let d := d.mbxState i up 3 3
      d.raiseInst 0x008 (d.mbxSender i up) (if up then d.mbxReceiver i up else i) (d.mbxTx i up)

/-- CANCEL is set at the sending end (R433). -/
def Dev.mbxCancel (d : Dev) (i : Nat) (up : Bool) : Dev :=
  if d.mbxPending i up then
    ((d.put (F.MBX_RX_INFO_FULL.atEnd (!up)) i 0).setMbxDue i up none).mbxState i up 0 0
  else d

/-- A read of RX_TAKE at the receiving end (R432, R437): what it returns, and its effects. -/
def Dev.mbxTake (d : Dev) (i : Nat) (up : Bool) : Nat × Dev :=
  let x := d.mbxRx i up
  if x % 2 = 0 then (0, d)
  else
    let seq := x / 2 ^ 16
    let d := d.put (F.MBX_RX_INFO_FULL.atEnd (!up)) i 0
    let own := bits x 1 2 == 0 && d.mbxPending i up && d.get (F.MBX_TX_STATUS_SEQ.atEnd up) i == seq
    let d := if !own then d
      else
        let d := (d.setMbxDue i up none).mbxState i up 2 0
        if d.flag (F.MBX_TX_CFG_MODE.atEnd up) i then d
        else d.raiseInst 0x007 (d.mbxSender i up) (if up then d.mbxReceiver i up else i) (d.mbxTx i up)
    (seq + 2 ^ 16, d)

/-- A program's post (R437): dropped and counted where the box is full or the receiver absent. -/
def Dev.mbxPost (d : Dev) (i : Nat) (up : Bool) (msg : List Nat) (gen seq : Nat) : Dev :=
  if d.mbxRx i up % 2 = 1 ∨ ¬ d.present (d.mbxReceiver i up) then d.count .MBX_POST_DROP
  else d.mbxPlace i up ((List.range 8).map fun k => leNat (slice msg (8 * k) 8)) 1 gen seq

/-- The mailboxes with a PENDING message: instance and direction. -/
def Dev.mbxWaiting (d : Dev) : List (Nat × Bool) :=
  (d.hst.mbxDue.cells.filter (·.2.isSome)).map fun c => (c.1 / 2, c.1 % 2 == 1)

/-- Every message for a receiver that `f` names is withdrawn at once (R434). -/
def Dev.mbxLose (d : Dev) (f : Nat → Bool) (reason : Nat) : Dev :=
  d.mbxWaiting.foldl (fun d m => if f (d.mbxReceiver m.1 m.2) then d.mbxTimeout m.1 m.2 reason else d) d

/-- Every register of an array whose element `f` names takes its reset value. -/
def Dev.resetRegs (d : Dev) (f : Reg → Nat → Bool) : Dev :=
  { d with regs := d.regs.filter fun c => match Reg.all[c.1 % 512]? with | some r => !f r (c.1 / 512) | none => true }

/-- The mailboxes at the reset point of an instance (R434, R435). -/
def Dev.mbxReset (d : Dev) (i : Nat) : Dev :=
  let d := (d.mbxLose (· == i) 2).setMbxDue i true none
  d.resetRegs fun r k => match r with
    | .MBX_SHM_BASE | .MBX_SHM_CFG | .MBX_T_TX_CFG | .MBX_T_TX_CTL | .MBX_T_TX_STATUS | .MBX_T_RX_INFO | .MBX_T_RX_TAKE => k == i
    | .MBX_T_TX_MSG | .MBX_T_RX_MSG => k / 8 == i
    | _ => false

end Sys2Proof.Machine
end

