-- ==== Sys2Proof/Machine/Slots.lean ====
section
/-!
DEFINITION. Program slots and their versions (27): the switch of a moult and the retirement of the old version (R593 to
R597).
-/
namespace Sys2Proof.Machine

/-- The item's token has been dispatched and is outstanding. -/
def Item.tokenOut (x : Item) : Bool :=
  match x.pst with | .atPod _ | .atThread _ | .lost => true | .waiting => x.tok.replay | _ => false

/-- The outstanding tokens of a slot's version (OLD_COUNT, replays included). -/
def Dev.verCount (d : Dev) (slot v : Nat) : Nat :=
  (d.itemList.filter fun x => x.tokenOut && x.tok.slot == slot && x.tok.ver == v).length

/-- The next version of a slot (R443): one above its previous one, wrapping from 255 to 1. -/
def Dev.nextVer (d : Dev) (slot : Nat) : Nat := let v := d.lastVer.get slot; if v = 255 then 1 else v + 1

/-- One slot switches (R594, R597): to a new version with its handler and map, or to none. -/
def Dev.switchSlot (d : Dev) (slot : Nat) (new : Option (SlotVer × Nat × List TRef)) : Dev :=
  let old := d.activeVer slot
  let held := (List.range 16).map fun p => d.rd .POD_SLOT_HANDLER (p * 256 + slot)
  let d : Dev := if old = 0 then d else
    { d with slots := d.slots.modify (slot * 256 + old) fun v => v.map fun x => { x with handlers := held } }
  let d := d.put F.BUF_SLOT_STATE_RETIRING slot old
  match new with
  | none =>
    (List.range 16).foldl (fun d p => d.wr .POD_SLOT_HANDLER (p * 256 + slot) 0) (d.put F.BUF_SLOT_STATE_ACTIVE slot 0)
  | some (x, h, map) =>
    let v := d.nextVer slot
    let d := d.put F.BUF_SLOT_STATE_ACTIVE slot v
    let d : Dev := { d with slots := d.slots.set (slot * 256 + v) (some x), lastVer := d.lastVer.set slot v }
    let d := (map.mapIdx fun i t => (i, t)).foldl (fun (d : Dev) p =>
      { d with trefs := d.trefs.set ((slot * 256 + v) * 64 + p.1) p.2 }) d
    (List.range 16).foldl (fun d p => d.wr .POD_SLOT_HANDLER (p * 256 + slot) h) d

/-- The switch instant (R594): every slot named switches in one cycle, MOULT_DTB holds it, and MOULT_SWITCH is raised. -/
def Dev.moultSwitch (d : Dev) (l : List (Nat × Option (SlotVer × Nat × List TRef))) : Dev :=
  match l with
  | [] => d
  | (s0, _) :: _ =>
    let d := l.foldl (fun d e => d.switchSlot e.1 e.2) d
    (d.wr .BUF_MOULT_DTB 0 d.now).raiseLocal 24 29 s0 (d.activeVer s0)

/-- The per-version state of a version is freed (R596). -/
def Dev.freeVer (d : Dev) (slot v : Nat) : Dev :=
  let d : Dev := { d with slots := d.slots.set (slot * 256 + v) none }
  (List.range 64).foldl (fun (d : Dev) k => { d with trefs := d.trefs.set ((slot * 256 + v) * 64 + k) {} }) d

/-- The retiring version of a slot has no token left (R596). -/
def Dev.moultRetire (d : Dev) (slot : Nat) : Dev :=
  let v := d.get F.BUF_SLOT_STATE_RETIRING slot
  if v = 0 ∨ d.verCount slot v ≠ 0 then d
  else ((d.freeVer slot v).put F.BUF_SLOT_STATE_RETIRING slot 0).raiseLocal 24 30 slot v

/-- The instance that a slot's active version is bound to, where it is a TENANT slot. -/
def Dev.slotTenant (d : Dev) (slot : Nat) : Option Nat :=
  match d.slots.get (slot * 256 + d.activeVer slot) with
  | some x => if x.tenant && d.activeVer slot != 0 then some x.inst else none
  | none => none

/-- The TENANT slots bound to instances without resources are unbound, once their previous version has retired (R406). -/
def Dev.unbindGone (d : Dev) : Dev :=
  (List.range 256).foldl (fun d sl =>
    match d.slotTenant sl with
    | some i => if !d.hst.live.contains i && d.get F.BUF_SLOT_STATE_RETIRING sl == 0 then d.moultSwitch [(sl, none)] else d
    | none => d) d

end Sys2Proof.Machine
end

