-- ==== Sys2Proof/Machine/Steward.lean ====
section
/-!
DEFINITION. The steward's windows and commands (19, 27): callers, timeouts (R442), argument ranges (R439), settings (R589),
bindings and moults (R443, R594 to R597), keys (R290) and injection (R444).
-/
namespace Sys2Proof.Machine

/-! ### Windows and callers (R440 to R442) -/

/-- The PF that reaches a steward window: mailboxes 2p and 2p + 1, secure channel p; none for channels 4 to 7. -/
def stmPf (m : Fin 16) : Option Nat := if m.val < 8 then some (m.val / 2) else if m.val < 12 then some (m.val - 8) else none

/-- A window is a secure channel. -/
def stmSecure (m : Fin 16) : Bool := decide (8 ≤ m.val)

/-- The lifecycle state refuses secure channels and key loads (Table 26-4). -/
def Dev.noSecrets (d : Dev) : Bool := let lc := d.get F.FUSE_STATUS_LC; lc == 0 || lc == 3

/-- Entry to COCOON has begun (PWR.STATE ENTERING). -/
def Dev.entering (d : Dev) : Bool := d.get F.PWR_STATE_STATE == 4

/-- The end of a steward window's wait. -/
def Dev.setStmDue (d : Dev) (m : Nat) (v : Option Nat) : Dev := { d with stw := { d.stw with due := d.stw.due.set m v } }

/-- A steward command completes: STATUS, DETAIL and the words of STM_RES from byte 8 on. -/
def Dev.stmDone (d : Dev) (m : Fin 16) (status : Nat) (detail : Nat := 0) (more : List (Nat × Nat) := []) : Dev :=
  (d.winDone (.stm m) ((0x200, status + detail % 2 ^ 16 * 2 ^ 16) :: more)).setStmDue m.val none

/-- The command of a window stays BUSY until its TMO_MS. -/
def Dev.stmWaits (d : Dev) (m : Fin 16) (tmo : Nat) : Dev :=
  (d.setStmDue m.val (some (d.mono + (if tmo = 0 then 100 else tmo) * 1000000))).winBusy (.stm m)

/-- The access to a secure channel is refused (R441). -/
def Dev.secRefused (d : Dev) : Dev := (d.count .STM_SEC_REFUSED).fault 10 1 24

/-- A command on secure channels 4 to 7 is carried by a STEWARD_CMD message of the session bound to the channel (R440, R506). -/
def Dev.carried (d : Dev) (m : Fin 16) : Bool := decide (m.val < 12) || (d.mgt.stm.get m.val).isSome

/-- A command submitted to a steward window: the running firmware takes and executes it; where it does not run, the command
waits for its timeout, and during entry to COCOON it is TIMEOUT with RECEIVER_COCOON at once (R442, R523). -/
def Dev.steward (d : Dev) (m : Fin 16) (tmo : BitVec 14) (f : Dev → Dev) : Dev :=
  if !d.carried m then d.onIsland 24 fun d => d.secRefused
  else d.submit (.stm m) fun d =>
    if d.entering then d.winDone (.stm m) [(0x200, 9 + 4 * 256)]
    else if !d.stw.running then d.stmWaits m tmo.toNat
    else if 10000 < tmo.toNat then d.stmDone m 2
    else if stmSecure m && d.noSecrets then d.stmDone m 3
    else f d

/-- As above, for commands that any PF may send. -/
def Dev.stewardPf (d : Dev) (m : Fin 16) (tmo : BitVec 14) (f : Nat → Dev → Dev) : Dev :=
  d.steward m tmo fun d => match stmPf m with | some p => f p d | none => d.stmDone m 3

/-- As above, for commands of PF0. -/
def Dev.steward0 (d : Dev) (m : Fin 16) (tmo : BitVec 14) (f : Dev → Dev) : Dev :=
  d.stewardPf m tmo fun p d => if p = 0 then f d else d.stmDone m 3

/-- An argument range lies inside the ENABLED region of a PF's own instance (R439). -/
def Dev.shmOk (d : Dev) (p off len : Nat) : Bool :=
  d.flag F.MBX_SHM_CFG_ENABLE p && decide (off + len ≤ 2 ^ d.get F.MBX_SHM_CFG_LOG2_SIZE p)

/-- The read of an argument range: what it returned, or the status that ends the command (4 SHM_RANGE, 5 HOST_ERR). -/
def Dev.shmRead (d : Dev) (p off len : Nat) (data : Option (List Nat)) : List Nat × Nat :=
  if !d.shmOk p off len then ([], 4)
  else match data with
    | none => ([], 5)
    | some b => (slice (b ++ List.replicate len 0) 0 len, 0)

/-! ### Images (R444, R596) -/

/-- IMAGE_LOAD (R113, R444, R575). -/
def execImageLoad (m : Fin 16) (tmo : BitVec 14) (off : BitVec 64) (len : BitVec 32) (data : Option (List Nat)) (s : State) :
    Res := s.on fun d => d.stewardPf m tmo fun p d =>
  let r := d.shmRead p off.toNat len.toNat data
  if r.2 ≠ 0 then d.stmDone m r.2
  else match imageBreach r.1 len.toNat with
    | some x => d.stmDone m 6 x
    | none => match d.signBreach r.1 with
      | some x => (d.fault 10 2 24 p).stmDone m 6 x
      | none => match d.loadImage p r.1 with
        | none => d.stmDone m 7
        | some (id, d) => d.stmDone m 0 0 [(0x208, id)]

/-- A loaded image. -/
def Dev.image (d : Dev) (id : Nat) : Option ProgImage := d.stw.imgs.get id

/-- A live version uses the image. -/
def Dev.imageUsed (d : Dev) (id : Nat) : Bool := d.slots.cells.any fun c => match c.2 with | some v => v.image == id | none => false

/-- IMAGE_DROP (R596). -/
def execImageDrop (m : Fin 16) (tmo : BitVec 14) (id : BitVec 32) (s : State) : Res := s.on fun d =>
  d.stewardPf m tmo fun p d =>
    match d.image id.toNat with
    | none => d.stmDone m 2
    | some x =>
      if x.owner ≠ p then d.stmDone m 3
      else if d.imageUsed id.toNat || d.stw.moults.any (fun j => j.entries.any (·.image == some id.toNat)) then d.stmDone m 8
      else
        let d : Dev := { d with stw := { d.stw with imgs := d.stw.imgs.set id.toNat none } }
        d.stmDone m 0

/-! ### Bindings and moults (R443, R594, R597) -/

/-- The PF that binds a slot now. -/
def Dev.slotOwner (d : Dev) (slot : Nat) : Option Nat :=
  if d.activeVer slot = 0 then none else (d.slots.get (slot * 256 + d.activeVer slot)).map (·.owner)

/-- The check of one entry of a binding: status and DETAIL. `imgAt` and `slotAt` are the offsets of its IMAGE_ID and SLOT
fields. -/
def Dev.bindFault (d : Dev) (p id slot inst imgAt slotAt off : Nat) (data : Option (List Nat)) : Option (Nat × Nat) :=
  match d.image id with
  | none => some (2, imgAt)
  | some x => match x.entries.find? (·.slot == slot) with
    | none => some (2, slotAt)
    | some e =>
      let map := d.shmRead p off 256 data
      if (!e.tenant && p != 0) || (e.tenant && (decide (2051 < inst) || d.pfOf inst != p)) then some (3, 0)
      else if (match d.slotOwner slot with | some q => q != p | none => false) = true then some (8, 0)
      else if map.2 ≠ 0 then some (map.2, 0)
      else d.mapFault x e.tenant inst map.1

/-- The entry of a moult. -/
def bindEntry (id slot inst : Nat) (data : Option (List Nat)) : MoultEntry :=
  { slot := slot, image := some id, inst := inst, map := data.getD [] }

/-- What the switch of an entry gives its slot. -/
def Dev.moultNew (d : Dev) (p : Nat) (e : MoultEntry) : Option (SlotVer × Nat × List TRef) :=
  match e.image with
  | none => none
  | some id => (d.image id).bind fun x => (x.entries.find? (·.slot == e.slot)).map fun y => versionOf id p x y e.inst e.map

/-- The records of a binding (R586, R589): the image's, and the slot's. -/
def Dev.bindRecords (d : Dev) (e : MoultEntry) : Dev :=
  let ins := d.get F.STM_FW_STATUS_RUN_INSTAR
  match e.image.bind d.image with
  | none => d.putRecord { type := 3, instar := ins, key := e.slot, data := [] }
  | some x =>
    let k := leNat ((imageDigest x.bytes).take 4)
    let d := if d.hasRecord 2 k then d else d.putRecord { type := 2, instar := ins, key := k, data := x.bytes }
    let cls := b2n ((x.entries.find? (·.slot == e.slot)).any (·.tenant))
    d.putRecord { type := 3, instar := ins, key := e.slot, data := toLe 4 k ++ [cls] ++ toLe 2 e.inst ++ slice e.map 0 256 }

/-- A moult job waits for its switch instant. -/
def Dev.moultWaits (d : Dev) (m : Fin 16) (tmo : BitVec 14) (opc p : Nat) (l : List MoultEntry) : Dev :=
  let d : Dev := { d with stw := { d.stw with moults := d.stw.moults ++ [⟨m.val, opc, p, l⟩] } }
  d.stmWaits m tmo.toNat

/-- The result of a moult command: the new version of a SLOT_BIND. -/
def Dev.moultRes (d : Dev) (opc : Nat) (l : List MoultEntry) : List (Nat × Nat) :=
  if opc = 3 then [(0x208, d.activeVer ((l.head?.map (·.slot)).getD 0))] else []

/-- Entries take effect without a moult: no slot named is bound or retiring. -/
def Dev.bindNow (d : Dev) (m : Fin 16) (opc p : Nat) (l : List MoultEntry) : Dev :=
  let d := l.foldl (fun d e => d.switchSlot e.slot (d.moultNew p e)) d
  (l.foldl (fun d e => d.bindRecords e) d).stmDone m 0 0 (d.moultRes opc l)

/-- A checked binding of slots: at once where every slot is unbound and nothing of it is retiring, else a moult. -/
def Dev.bindSlots (d : Dev) (m : Fin 16) (tmo : BitVec 14) (opc p : Nat) (l : List MoultEntry) : Dev :=
  if l.all fun e => d.activeVer e.slot == 0 && d.get F.BUF_SLOT_STATE_RETIRING e.slot == 0 then d.bindNow m opc p l
  else d.moultWaits m tmo opc p l

/-- SLOT_BIND (R443). `map` is what the read of the TREF map returns. -/
def execSlotBind (m : Fin 16) (tmo : BitVec 14) (id : BitVec 32) (slot : BitVec 8) (inst : BitVec 16) (off : BitVec 64)
    (map : Option (List Nat)) (s : State) : Res := s.on fun d => d.stewardPf m tmo fun p d =>
  match d.bindFault p id.toNat slot.toNat inst.toNat 0 4 off.toNat map with
  | some (st, x) => d.stmDone m st x
  | none => d.bindSlots m tmo 3 p [bindEntry id.toNat slot.toNat inst.toNat map]

/-- SLOT_UNBIND (R597). -/
def execSlotUnbind (m : Fin 16) (tmo : BitVec 14) (slot : BitVec 8) (s : State) : Res := s.on fun d =>
  d.stewardPf m tmo fun p d =>
    match d.slotOwner slot.toNat with
    | none => d.stmDone m 0
    | some q => if q ≠ p then d.stmDone m 3 else d.moultWaits m tmo 4 p [{ slot := slot.toNat, image := none }]

/-- The first failing entry of a MOULT_SET: status and DETAIL (R443, R594). -/
def Dev.moultFault (d : Dev) (p : Nat) (l : List MoultArg) : Option (Nat × Nat) :=
  let slots := l.map (·.2.1)
  match (List.range l.length).find? fun i => (slots.take i).contains (slots.getD i 0) with
  | some i => some (2, 16 + 16 * i + 4)
  | none => (List.range l.length).findSome? fun i => match l[i]? with
    | some a => d.bindFault p a.1 a.2.1 a.2.2.1 (16 + 16 * i) (16 + 16 * i + 4) a.2.2.2.1 a.2.2.2.2
    | none => none

/-- MOULT_SET (R594): COUNT entries switch in one cycle. -/
def execMoultSet (m : Fin 16) (tmo : BitVec 14) (l : List MoultArg) (s : State) : Res := s.on fun d =>
  d.stewardPf m tmo fun p d =>
    if l.isEmpty || decide (15 < l.length) then d.stmDone m 2 0
    else match d.moultFault p l with
      | some (st, x) => d.stmDone m st x
      | none => d.bindSlots m tmo 0x14 p (l.map fun a => bindEntry a.1 a.2.1 a.2.2.1 a.2.2.2.2)

/-- MOULT_SWITCH (R594): the switch instant of the first waiting moult of a window, none of whose slots is still retiring a
version; the command completes and its records are due. -/
def execMoultSwitch (m : Fin 16) (s : State) : Res := s.on fun d =>
  d.onIsland 21 fun d =>
    match d.stw.moults.find? (·.win == m.val) with
    | none => d
    | some j =>
      if j.entries.any fun e => d.get F.BUF_SLOT_STATE_RETIRING e.slot != 0 then d
      else
        let d := d.moultSwitch (j.entries.map fun e => (e.slot, d.moultNew j.pf e))
        let d : Dev := { d with stw := { d.stw with moults := d.stw.moults.erase j } }
        (j.entries.foldl (fun d e => d.bindRecords e) d).stmDone m 0 0 (d.moultRes j.opc j.entries)

/-- MOULT_RETIRED (R596): no token of the retiring version is left. -/
def execMoultRetired (slot : BitVec 8) (s : State) : Res := s.on fun d =>
  d.onIsland 21 fun d => (d.moultRetire slot.toNat).unbindGone

/-! ### Settings (R440, R589) -/

/-- The value of a CFG_SET breaks its layout. -/
def Dev.cfgBad (d : Dev) (item : Nat) (v : List Nat) : Bool :=
  match item with
  | 1 => decide (v.getD 0 0 < 2) || decide (30 < v.getD 0 0)
  | 2 =>
    let l := (List.range 4).map fun k => leNat (slice v (2 * k) 2)
    decide (2048 < ((l.mapIdx fun i x => if d.pfExists i then x else 0).foldl (· + ·) 0))
  | 3 => !d.pfExists (v.getD 0 0) || decide (1 < v.getD 1 0)
  | _ => true

/-- CFG_SET: the setting is stored, and its record is due. -/
def execCfgSet (m : Fin 16) (tmo : BitVec 14) (item : BitVec 16) (v : List Nat) (s : State) : Res := s.on fun d =>
  d.steward0 m tmo fun d =>
    let i := item.toNat
    if d.cfgBad i v then d.stmDone m 2
    else if d.stw.flash.full then d.stmDone m 7
    else
      let k := if i = 3 then 3 + 0x10000 * v.getD 0 0 else i
      let d : Dev := { d with stw := { d.stw with cfg := d.stw.cfg.set k (slice v 0 248) } }
      (d.putRecord { type := 1, instar := d.get F.STM_FW_STATUS_RUN_INSTAR, key := k, data := slice v 0 248 }).stmDone m 0

/-- The words of a result from byte 8 on. -/
def resBytes (b : List Nat) : List (Nat × Nat) :=
  (List.range (ceilDiv b.length 8)).map fun i => (0x208 + 8 * i, leNat (slice b (8 * i) 8))

/-- CFG_GET. -/
def execCfgGet (m : Fin 16) (tmo : BitVec 14) (item : BitVec 16) (s : State) : Res := s.on fun d =>
  d.stewardPf m tmo fun p d =>
    let i := item.toNat
    if i = 0 ∨ 3 < i then d.stmDone m 2
    else d.stmDone m 0 0 (resBytes (d.stw.cfg.get (if i = 3 then 3 + 0x10000 * p else i)))

/-- FW_INFO. -/
def execFwInfo (m : Fin 16) (tmo : BitVec 14) (s : State) : Res := s.on fun d =>
  d.stewardPf m tmo fun _ d =>
    d.stmDone m 0 0 [(0x208, d.get F.STM_FW_STATUS_RUN_INSTAR + d.stw.isa % 2 ^ 16 * 2 ^ 16 + d.get F.STM_FW_STATUS_ACTIVE_SLOT * 2 ^ 32)]

/-! ### Keys (R289, R290) -/

/-- KEY_LOAD: key plaintext into a slot, on a secure channel. -/
def execKeyLoad (m : Fin 16) (tmo : BitVec 14) (slot : BitVec 16) (owner : BitVec 8) (key : List Nat) (s : State) : Res :=
  s.on fun d => d.steward m tmo fun d =>
    let k := slot.toNat
    if !stmSecure m then d.stmDone m 3
    else if 32767 < k ∨ ¬ d.pfExists owner.toNat ∨ (slice key 44 4).any (· != 0) = true then d.stmDone m 2
    else if 0 < (d.cry.keys.get k).refs then d.stmDone m 8
    else
      let b := slice (key ++ List.replicate 48 0) 0 48
      let x : KeySlot := { key := b, owner := owner.toNat }
      let d : Dev := { d with cry := { d.cry with keys := d.cry.keys.set k x } }
      d.stmDone m 0 0 [(0x208, kcvOf b)]

/-- KEK_LOAD: a KEK, or a zero length that empties its slot. -/
def execKekLoad (m : Fin 16) (tmo : BitVec 14) (slot owner : BitVec 8) (exp : Bool) (len : BitVec 8) (key : List Nat) (s : State) :
    Res := s.on fun d => d.steward m tmo fun d =>
    let n := len.toNat
    if !stmSecure m then d.stmDone m 3
    else if 63 < slot.toNat ∨ ¬ d.pfExists owner.toNat ∨ (n ≠ 0 ∧ n ≠ 16 ∧ n ≠ 32) then d.stmDone m 2
    else
      let b := slice (key ++ List.replicate n 0) 0 n
      let x : Kek := if n = 0 then {} else { key := b, owner := owner.toNat, export_ := exp }
      let d : Dev := { d with cry := { d.cry with keks := d.cry.keks.set slot.toNat x } }
      d.stmDone m 0 0 (if n = 0 then [] else [(0x208, kcvOf b)])

/-! ### Injection (R44, R444) -/

/-- INJECT: one item through IAP 35, or NO_SPACE at once. -/
def execInject (m : Fin 16) (tmo : BitVec 14) (off : BitVec 64) (len : BitVec 16) (slot : BitVec 8) (inst : BitVec 16)
    (data : Option (List Nat)) (s : State) : Res := s.on fun d => d.steward0 m tmo fun d =>
  let r := d.shmRead 0 off.toNat len.toNat data
  let n := len.toNat
  if n = 0 ∨ 16383 < n ∨ 2051 < inst.toNat then d.stmDone m 2
  else if r.2 ≠ 0 then d.stmDone m r.2
  else
    let st := (d.nextStamp 6).1
    let cls := (Config.injectClass st).toNat
    let key := (Config.injectKey st).toNat
    match d.takeCells (35 * 8 + cls) (cellsOf n) with
    | none => d.stmDone m 7
    | some (d', c) =>
      if !d.robRoom key then d.stmDone m 7
      else
        let tok : Token := { inst := inst.toNat, okey := key, slot := slot.toNat, len := n, head := min 256 n }
        (d'.accept 6 { tok := tok, data := r.1, iap := 35, cls := cls, resv := c.resv, shared := c.shared, headroom := c.head }).stmDone
          m 0 0 [(0x208, st)]

/-! ### Timeouts (R442) -/

/-- STEWARD_CMD_TIMEOUT (R442): TMO_MS of a BUSY command have passed. A moult that has not run was not taken. -/
def execStewardCmdTimeout (m : Fin 16) (s : State) : Res := s.on fun d =>
  match d.stw.due.get m.val with
  | none => d
  | some t =>
    if (d.win (.stm m)).st ≠ 1 then d
    else
      let d := d.reach t
      let reason := if d.entering then 4 else if !d.stw.running then 3 else if d.stw.wasReset then 2 else 1
      let d : Dev := { d with stw := { d.stw with moults := d.stw.moults.filter (·.win != m.val) } }
      (d.winDone (.stm m) [(0x200, 9 + reason * 256)]).setStmDue m.val none

end Sys2Proof.Machine
end

