-- ==== Sys2Proof/Machine/Fields.lean ====
section
/-!
DEFINITION. A software write to a register, field by field (R64 to R72): the access types, the values a field takes, the
locks, the byte enables and the same-cycle precedence. RegWrite.lean adds what each register's write sets off.
-/
namespace Sys2Proof.Machine

/-- A field may take value `v` of width `w` (R8 and the field tables). -/
def Rng.ok (g : Rng) (w v : Nat) : Bool :=
  match g with
  | .any => true
  | .range lo hi => decide (lo ≤ v) && decide (v ≤ hi)
  | .zeroOr lo hi => v == 0 || (decide (lo ≤ v) && decide (v ≤ hi))
  | .signed m => decide (v ≤ m) || decide (2 ^ w - m ≤ v)
  | .align n => v % n == 0

/-- The bits that byte enables cover. -/
def beMask (be : Nat) : Nat := (List.range 8).foldl (fun a k => a + if bit be k then 0xFF * 2 ^ (8 * k) else 0) 0

/-- RWL fields of element `i` are locked (R72, R348, R367, R374). -/
def Dev.regLocked (d : Dev) (r : Reg) (i : Nat) : Bool :=
  match r with
  | .QE_QCTX_CFG | .QE_QCTX_BASE | .QE_QCTX_HWB => d.get F.QE_QCTX_STATE_STATE i != 0
  | .QE_CQCTX_BASE | .QE_CQCTX_CFG => d.flag F.QE_CQCTX_CFG_ENABLE i
  | .QE_EQCTX_BASE | .QE_EQCTX_CFG => d.flag F.QE_EQCTX_CFG_ENABLE i
  | .MGT_MOD_MAP => d.flag F.MGT_I2C_CFG_LOCK (d.get F.MGT_MOD_MAP_PORT i)
  | .MGT_AVS_RAIL => d.flag F.MGT_I2C_CFG_LOCK (d.get F.MGT_AVS_RAIL_PORT i)
  | _ => match r.lockBit with
    | some (l, b) => bit (d.rd l (if l = r ∨ l = .QE_LEDGER_STATUS then i else 0)) b
    | none => false

/-- What a write leaves in a register so far: its value, and whether a field kept its value as BAD_ENUM, as LOCKED, or lost
its write to hardware (R71). -/
structure WriteAcc where
  val    : Nat
  bad    : Bool := false
  locked : Bool := false
  lost   : Bool := false
deriving DecidableEq, Repr, Inhabited

/-- One field of a write (R64, R67, R69, R70): `old` is the register before, `v` the data, `m` the enabled bits, `hw` the
hardware update of the field in the same cycle, if any (the value, or the increment of an HWU field). -/
def FieldRow.merge (f : FieldRow) (old v m : Nat) (locked : Bool) (hw : Option Nat) (a : WriteAcc) : WriteAcc :=
  let oldF := bits old f.lo f.w
  let en := bits m f.lo f.w
  let newF := bits (setBits old f.lo f.w (Nat.land v m / 2 ^ f.lo + Nat.land oldF (2 ^ f.w - 1 - en))) f.lo f.w
  let put (x : Nat) : WriteAcc := { a with val := setBits a.val f.lo f.w x }
  let hwOnly := match hw with | some x => put x | none => a
  if en = 0 then hwOnly
  else match f.acc with
    | .ro | .rc => hwOnly
    | .wo => a
    | .rw | .rws => if f.rng.ok f.w newF then put newF else { a with bad := true }
    | .rwl =>
      if locked then { a with locked := true }
      else if f.rng.ok f.w newF then put newF else { a with bad := true }
    | .rwh =>
      match hw with
      | some x => { put x with lost := true }
      | none => if f.rng.ok f.w newF then put newF else { a with bad := true }
    | .hwu => put (newF + hw.getD 0)
    | .rw1c => put (Nat.lor (Nat.land oldF (2 ^ f.w - 1 - Nat.land (bits v f.lo f.w) en)) (hw.getD 0))
    | .rw1s => put (Nat.lor (match hw with | some x => x | none => oldF) (Nat.land (bits v f.lo f.w) en))

/-- A software write of element `i` with byte enables `be`, beside the hardware updates `hw` (field's lowest bit, value)
of the same cycle. Each cause is counted once per write (notes/assumptions/7.md); `bad` and `locked` say that the caller has
found a value refused already. -/
def Dev.writeWith (d : Dev) (r : Reg) (i v be : Nat) (hw : List (Nat × Nat)) (bad locked : Bool) : Dev :=
  let old := d.rd r i
  let lk := d.regLocked r i
  let led := lk && (r == .QE_LEDGER_BASE || r == .QE_LEDGER_SIZE)
  if led then d.ignored r i cLOCKED
  else
    let m := beMask be
    let a := r.fields.foldl (fun a f => f.merge old v m lk (cellGet hw f.lo) a) ({ val := old, bad := bad, locked := locked } : WriteAcc)
    let d := d.wr r i a.val
    let d := if a.bad then d.ignored r i cBAD_ENUM else d
    let d := if a.locked then d.ignored r i cLOCKED else d
    if a.lost then
      let h := r.place.header i
      (d.put F.BLK_STATUS_WRITE_LOST h 1).put F.BLK_LAST_ADDR_OFFSET h (r.place.blockOffset i)
    else d

/-- A software write with no value refused beforehand. -/
def Dev.writeFields (d : Dev) (r : Reg) (i v be : Nat) (hw : List (Nat × Nat)) : Dev := d.writeWith r i v be hw false false

end Sys2Proof.Machine
end

