-- ==== Sys2Proof/Machine/TableCmds.lean ====
section
/-!
DEFINITION. Tables and Lookups, and Table Maintenance (07, 08): one meaning per command.
-/
namespace Sys2Proof.Machine

/-! ### Lookups -/

/-- Lookup unit `u` is in service. -/
def Dev.luUp (d : Dev) (u : Nat) : Bool := !bit (d.get F.FCOL_PART_ISO_LU) u

/-- The unit of a request (R163): the first healthy one from `u` on; `not` is a unit that has just faulted. -/
def Dev.pickUnit (d : Dev) (u : Nat) (not : Option Nat) : Nat :=
  (((List.range 8).map fun k => (u + k) % 8).find? fun v => d.luUp v && some v != not).getD (u % 8)

/-- The unit that R163 assigns to a table and a hash or index. -/
def unitOf (n h : Nat) : Nat := Nat.xor (n % 8) (h % 8)

/-- A walk starts (R163, R177): its unit, the accesses to the given HBM lines, and what it would find now. -/
def Dev.startWalk (d : Dev) (w : Walk) (lines : List Nat) (not : Option Nat) : Dev :=
  let lines := if d.get F.TABLE_DESC_CFG_PLACE w.table = 0 then lines else []
  let h := match w.handle with | some x => if w.confirm.isSome then crc32c w.key else x | none => crc32c w.key
  let miss := lines.filter fun l => !d.resident l
  let w := { w with unit := d.pickUnit (unitOf w.table h) not, waits := miss, t1 := miss.isEmpty,
                    seen := [d.walkRes w.table w.key w.handle], cold := false }
  let d := lines.foldl (fun d l => d.access w.shadow l) d
  { d with tbl := { d.tbl with walks := d.tbl.walks.filter (·.id != w.id) ++ [w] } }

/-- A request that cannot reach a current owner completes REMOTE_FAIL (R188); a shadow request counts nothing (R182). -/
def Dev.remoteFailTicket (d : Dev) (th tk id n : Nat) (shadow trd : Bool) : Dev :=
  let d := if shadow then d else (d.count .TABLE_REMOTE_FAIL_CNT).lookupCount n 7 trd
  d.answer th tk id { status := 7 } none

/-- Forward a request to an owner (R186), or fail it where the owner is not current (R188). -/
def Dev.forward (d : Dev) (r : Remote) (fail : Dev → Dev) : Dev :=
  if d.isCurrent r.owner then
    let d : Dev := { d with tbl := { d.tbl with remotes := d.tbl.remotes ++ [r] } }
    d.emit (.tableReq r.owner r.id r.req)
  else fail d

/-- The expiry of a remote request. -/
def Dev.remoteDue (d : Dev) : Nat := d.mono + d.get F.TABLE_REMOTE_CFG_TMO * 1000

/-- A new request number. -/
def Dev.newWalk (d : Dev) : Dev × Nat :=
  ({ d with tbl := { d.tbl with nextWalk := d.tbl.nextWalk + 1 } }, d.tbl.nextWalk)

/-- The walk that a request asks for, with what the owner of its shard is; none of a table where nothing can be confirmed. -/
def Dev.walkOf (d : Dev) (q : RemoteReq) : Option Walk :=
  let w : Walk := { id := 0, th := 0, tk := 0, stamp := 0, unit := 0, table := 0 }
  match q with
  | .lookup sh n key st => some { w with table := n, key := key, shadow := sh, stamp := st }
  | .trd n h => some { w with table := n, handle := some h }
  | .confirm s st => some { w with table := s.table, key := s.key, handle := d.walkHandle s, confirm := some s, stamp := st }
  | _ => none

/-- The owner of what a request asks (R185, R186). -/
def Dev.ownerOf (d : Dev) (q : RemoteReq) : Nat :=
  match q with
  | .trd _ h => handleOwner h
  | .lookup _ _ key _ => d.shardOwner key
  | .confirm s _ => d.shardOwner s.key
  | .window c =>
    if c.opc = 5 ∨ c.opc = 6 ∨ c.opc = 7 ∨ c.opc = 8 then handleOwner (leNat (slice c.arg 0 8))
    else d.shardOwner (slice c.arg 0 (d.tKeyLen c.n))
  | .effect _ _ e =>
    match e with
    | .tableWrite _ _ _ key _ => d.shardOwner key
    | .cntEntry _ h _ => handleOwner h
    | .atomic _ blk => handleOwner (leNat (slice blk 8 8))
    | _ => d.me

/-- An LKC whose WRITE_SEQ is unchanged makes no access (R183). -/
def Dev.confirmLines (d : Dev) (w : Walk) (lines : List Nat) : List Nat :=
  match w.confirm with
  | some s => if w.handle.isNone && d.tSeq s.table == s.wseq then [] else lines
  | none => lines

/-- LOOKUP_REQUEST (R163, R183, R186): the request of ticket `tk` of thread `th` reaches TABLE. `lines` are the HBM lines
that the walk's accesses touch. An LKC on an LKS that retains nothing completes STALE. -/
def execLookupRequest (th : Fin 2048) (tk : Fin 8) (lines : List Nat) (s : State) : Res := s.on fun d =>
  d.onIsland 22 fun d =>
    let t := d.ths.get th.val
    let k := t.tks.get tk.val
    if k.st ≠ 1 ∨ k.sent ≠ 0 then d
    else
      let stamp := t.stamp.getD 0
      let q : Option RemoteReq := match k.req with
        | .lk sh n key _ => some (.lookup sh n key stamp)
        | .trd n h _ => some (.trd n h)
        | .lkc => k.shadow.map fun x => .confirm x stamp
        | _ => none
      let isTable := match k.req with | .lk .. => true | .trd .. => true | .lkc => true | _ => false
      if !isTable then d
      else
        let r := d.newWalk
        let d : Dev := { r.1 with ths := r.1.ths.set th.val { t with tks := t.tks.set tk.val { k with sent := r.2 } } }
        match q.bind fun q => (d.walkOf q).map fun w => (q, w) with
        | none => d.answer th.val tk.val r.2 { status := 2 } none
        | some (q, w) =>
          let w := { w with id := r.2, th := th.val, tk := tk.val }
          let trd := w.handle.isSome && w.confirm.isNone
          if d.tScope w.table = 2 ∧ d.ownerOf q ≠ d.me then
            d.forward { id := r.2, by_ := .ticket th.val tk.val w.table w.shadow, req := q, owner := d.ownerOf q,
                        due := d.remoteDue } fun d => d.remoteFailTicket th.val tk.val r.2 w.table w.shadow trd
          else d.startWalk w (d.confirmLines w lines) none

/-- FILL_RETURN (R166, R167): an HBM line returns to the walks that wait for it; it is installed unless voided. -/
def execFillReturn (line : Nat) (s : State) : Res := s.on fun d =>
  d.onIsland 22 fun d =>
    match d.tbl.fills.find? (·.1 == line) with
    | none => d
    | some f =>
      let void := d.tbl.voided.contains line
      let d : Dev := { d with tbl := { d.tbl with
        fills := d.tbl.fills.filter (·.1 != line), voided := d.tbl.voided.filter (· != line),
        walks := d.tbl.walks.map fun w => { w with waits := w.waits.filter (· != line) } } }
      if void then d else d.install f.2 line

/-- WALK_COMPLETE (R177, R179, R180, R183): the walk returns what it saw at instant `pick` of those it spans. `ue` says
that one of its accesses met an uncorrectable error of the entry that it reached, and whether in the stored key. -/
def execWalkComplete (w pick : Nat) (ue : Option Bool) (s : State) : Res := s.on fun d =>
  d.onIsland 22 fun d =>
    match d.tbl.walks.find? (·.id == w) with
    | none => d
    | some x =>
      if !x.waits.isEmpty then d
      else
        let r := x.seen.getD pick (x.seen.headD {})
        let d := match ue, r.hit with
          | some inKey, some (i, _) => match d.entry x.table i with
            | some e => (d.setEntry x.table i (some { e with lost := true, keyLost := inKey })).entryFault x.table i
            | none => d.entryFault x.table i
          | _, _ => d
        match ue with
        | some _ => d.walkDone x { status := 5 }
        | none => match x.confirm with
          | some c => d.walkDone x (d.confirmAnswer c (x.seen.headD {}) r)
          | none => d.walkDone x (d.lookupAnswer x r)

/-- LOOKUP_UNIT_FAULT (R164): the walks of unit `u` are reissued on the other units, each from its first access; those in
`applied` had their entry-side updates applied already. `lines` gives each walk's lines. -/
def execLookupUnitFault (u : Fin 8) (applied : List Nat) (lines : List (Nat × List Nat)) (s : State) : Res := s.on fun d =>
  d.onIsland 22 fun d =>
    (d.tbl.walks.filter (·.unit == u.val)).foldl (fun d w =>
      let r := d.walkRes w.table w.key w.handle
      let d := if applied.contains w.id && !w.shadow && w.handle.isNone then
        d.entrySide w.table (r.hit.map (·.1)) w.key w.stamp else d
      d.startWalk w (d.confirmLines w ((cellGet lines w.id).getD [])) (some u.val)) d

/-- T1_CFG_WRITE (R165): CACHE_MIB follows PINNED_STEP, and the cache is emptied. -/
def execT1CfgWrite (v : BitVec 32) (s : State) : Res := s.on fun d =>
  d.onIsland 22 fun d => d.byWrite .TABLE_T1_CFG 0 fun d =>
    let lk := d.regLocked .TABLE_T1_CFG 0
    let step := bits v.toNat 0 4
    let d := d.writeFields .TABLE_T1_CFG 0 v.toNat 0xF []
    if lk || decide (step < 1 ∨ 10 < step) then d
    else
      let d := d.put F.TABLE_T1_CFG_CACHE_MIB 0 (48 - 4 * step)
      { d with tbl := { d.tbl with cache := {} } }

/-! ### Window commands -/

/-- The leader's member (R491). -/
def Dev.isLeader (d : Dev) : Bool := d.get F.GRP_STATUS_STATE == 3 && d.get F.GRP_STATUS_LEADER == d.me

/-- The other current members. -/
def Dev.others (d : Dev) : List Nat := [1, 2, 3, 4].filter fun m => m != d.me && bit (d.get F.GRP_STATUS_CURRENT) (m - 1)

/-- A REPLICATED write at the leader (R491): numbered, applied here and sent to every other current member; a write that
the leader's own copy refuses is sent to none. The window is DONE when every member has applied it. -/
def Dev.replWrite (d : Dev) (win : Option Nat) (op : TOp) : Dev :=
  let r := d.tableOp op
  let d := r.1
  let fin (d : Dev) : Dev := match win with | some w => d.winDone (tawOf w) (d.writeRes op r.2) | none => d
  if r.2.status ≠ tOK ∨ d.others.isEmpty then fin d
  else
    let q := d.tbl.replNext
    let x : Repl := ⟨q, op, d.others, d.mono + 1000000, win, r.2⟩
    let d : Dev := { d with tbl := { d.tbl with replNext := q + 1, repl := d.tbl.repl ++ [x] } }
    let d := d.others.foldl (fun d m => d.emit (.replWrite m q op)) d
    match win with | some w => d.winBusy (tawOf w) | none => d

/-- The write that a window or bulk command asks for, with the key, aux, PLEN, PRIORITY and record of its table (R191). -/
def Dev.cmdOp (d : Dev) (c : WCmd) : TOp :=
  let ty := d.tType c.n
  let kl := d.tKeyLen c.n
  let ex := d.get F.TABLE_DESC_CFG_EXACT_LEN c.n
  let key := slice c.arg 0 kl
  let aux := if ty = 3 then slice c.arg 64 kl else if ty = 4 then List.replicate ex 0 ++ slice c.arg (64 + ex) (kl - ex) else []
  let pl := if ty = 1 ∨ ty = 2 then c.plen else 0
  let pr := if 3 ≤ ty then c.prio else 0
  let res := slice c.arg 128 (d.tResLen c.n - 16)
  let h := leNat (slice c.arg 0 8)
  match c.opc with
  | 1 => .insert c.n key aux pl pr res
  | 2 => .modify c.n key aux pl pr res c.rst
  | 3 => .delete c.n key aux pl pr
  | 6 => .modifyH c.n h res c.rst
  | 7 => .deleteH c.n h
  | _ => .destroy c.n

/-- The check of the descriptor that every window command makes (R189, R192): NO_DESC, then NOT_OWNER. -/
def Dev.tawCheck (d : Dev) (w n : Nat) : Nat :=
  if !d.tValid n then tNO_DESC else if w != 4 && d.pfOf (d.tOwner n) != w then tNOT_OWNER else tOK

/-- The handle of a *_HANDLE command or CNT_READ names this table, in range. -/
def handleOk (n h : Nat) : Bool := bits h 28 10 == n && decide (h < 2 ^ 40)

/-- A command is a write. -/
def WCmd.isWrite (c : WCmd) : Bool := c.opc == 1 || c.opc == 2 || c.opc == 3 || c.opc == 6 || c.opc == 7 || c.opc == 10

/-- A command names an entry by handle. -/
def WCmd.byHandle (c : WCmd) : Bool := c.opc == 5 || c.opc == 6 || c.opc == 7 || c.opc == 8

/-- What READ and READ_HANDLE return of an entry, in the layout of TAW_ARG (Table 08-3). -/
def readArea (e : Entry) : List Nat := slice e.key 0 64 ++ slice e.aux 0 64 ++ e.res

/-- READ, READ_HANDLE, CNT_READ and LOOKUP where the entry is stored: the state after, and the result area. -/
def Dev.tawRead (d : Dev) (c : WCmd) : Dev × List (Nat × Nat) :=
  let n := c.n
  let ty := d.tType n
  let key := slice c.arg 0 (d.tKeyLen n)
  let none' (st : Nat) := (d, tawRes c.opc n { status := st } [])
  let found := match c.opc with
    | 4 => match d.cmdOp { c with opc := 3 } with
        | .delete n key aux pl pr => d.findStored n key aux pl pr
        | _ => none
    | 12 => d.tableFind n key
    | _ => (d.entry n (leNat (slice c.arg 0 8) % 2 ^ 28)).map fun e => (leNat (slice c.arg 0 8) % 2 ^ 28, e)
  match found with
  | none => none' tNOT_FOUND
  | some (i, e) =>
    if e.lost then none' tMEM_ERR
    else
      let r : TRes := { handle := d.handle n i, vtag := e.vtag }
      match c.opc with
      | 8 =>
        let area := d.cntArea n e ++ toLe 4 (d.get F.STATS_EPOCH_CTL_EPOCH)
        (if c.clr then d.touchEntry n i { e with hits := 0, acc := 0 } else d, tawRes 8 n r area)
      | 12 =>
        let t1 := d.get F.TABLE_DESC_CFG_PLACE n != 0 || (Config.entryLines n i).all d.resident
        (d, tawRes 12 n r (slice e.res 0 (d.tResLen n - 16) ++ (d.hitBytes n i e t1 false).drop (d.tResLen n - 16)))
      | _ => (d, tawRes c.opc n r (if ty ≤ 2 then slice e.key 0 64 ++ List.replicate 64 0 ++ e.res else readArea e))

/-- A command on its entry's member, at once: used by the owner of a shard (R186, R193). -/
def Dev.tawHere (d : Dev) (c : WCmd) : Dev × List (Nat × Nat) :=
  if c.isWrite then
    let op := d.cmdOp c
    let r := d.tableOp op
    (r.1, r.1.writeRes op r.2)
  else d.tawRead c

/-- TAW_CMD as the write that submits the command leaves it, GO clear (Table 08-2), and TAW_ARG. -/
def Dev.tawStore (d : Dev) (w : Fin 5) (c : WCmd) : Dev :=
  let x := d.win (.taw w)
  let a := (List.range 30).foldl (fun (t : Tbl Nat) i => t.set i (leNat (slice c.arg (8 * i) 8))) x.arg
  d.setWin (.taw w) { x with arg := a, cmd := c.opc + c.n * 2 ^ 8 + b2n c.rst * 2 ^ 18 + b2n c.clr * 2 ^ 19 +
    c.plen % 256 * 2 ^ 24 + c.prio % 2 ^ 20 * 2 ^ 32 }

/-- A command of TAW[w] on an entry (R189 to R193, R202, R491). -/
def Dev.tawEntry (d : Dev) (w : Fin 5) (c : WCmd) : Dev :=
  (if d.isUp 22 && !d.halted then d.tawStore w c else d).submit (.taw w) fun d =>
    let fin (d : Dev) (st : Nat) : Dev := d.winDone (.taw w) (tawRes c.opc c.n { status := st } [])
    let chk := d.tawCheck w.val c.n
    let op := d.cmdOp c
    if chk ≠ tOK then fin d chk
    else if !c.byHandle && !d.plenOk c.n c.plen then fin d tBAD_FIELD
    else if c.byHandle && !handleOk c.n (leNat (slice c.arg 0 8)) then fin d tNOT_FOUND
    else if c.isWrite && d.tScope c.n == 1 then
      if w.val = 0 && d.isLeader then d.replWrite (some 0) op else fin d tREPLICATED
    else if d.tScope c.n = 2 ∧ d.ownerOf (.window c) ≠ d.me then
      let r := d.newWalk
      (r.1.winBusy (.taw w)).forward
        { id := r.2, by_ := .window w.val c, req := .window c, owner := d.ownerOf (.window c), due := d.remoteDue }
        fun d => (fin d tREMOTE_FAIL).count .TABLE_REMOTE_FAIL_CNT
    else if c.isWrite then (d.winBusy (.taw w)).tableWrite (.window w.val) op
    else
      let r := d.tawRead c
      r.1.winDone (.taw w) r.2

/-- INSERT (R191, R193): `arg` is TAW_ARG. -/
def execInsert (w : Fin 5) (n : Fin 1024) (plen prio : Nat) (arg : List Nat) (s : State) : Res := s.window (.taw w) (.insert w n plen prio arg) fun d =>
  d.tawEntry w { opc := 1, n := n.val, plen := plen, prio := prio, arg := arg }

/-- MODIFY (R191, R207). -/
def execModify (w : Fin 5) (n : Fin 1024) (rst : Bool) (plen prio : Nat) (arg : List Nat) (s : State) : Res := s.window (.taw w) (.modify w n rst plen prio arg) fun d =>
  d.tawEntry w { opc := 2, n := n.val, rst := rst, plen := plen, prio := prio, arg := arg }

/-- DELETE (R191). -/
def execDelete (w : Fin 5) (n : Fin 1024) (plen prio : Nat) (arg : List Nat) (s : State) : Res := s.window (.taw w) (.delete w n plen prio arg) fun d =>
  d.tawEntry w { opc := 3, n := n.val, plen := plen, prio := prio, arg := arg }

/-- READ (R191). -/
def execRead (w : Fin 5) (n : Fin 1024) (plen prio : Nat) (arg : List Nat) (s : State) : Res := s.window (.taw w) (.read w n plen prio arg) fun d =>
  d.tawEntry w { opc := 4, n := n.val, plen := plen, prio := prio, arg := arg }

/-- READ_HANDLE (R191). -/
def execReadHandle (w : Fin 5) (n : Fin 1024) (handle : BitVec 64) (s : State) : Res := s.window (.taw w) (.readHandle w n handle) fun d =>
  d.tawEntry w { opc := 5, n := n.val, arg := toLe 8 handle.toNat }

/-- MODIFY_HANDLE (R191, R209). -/
def execModifyHandle (w : Fin 5) (n : Fin 1024) (rst : Bool) (arg : List Nat) (s : State) : Res := s.window (.taw w) (.modifyHandle w n rst arg) fun d =>
  d.tawEntry w { opc := 6, n := n.val, rst := rst, arg := arg }

/-- DELETE_HANDLE (R191, R209). -/
def execDeleteHandle (w : Fin 5) (n : Fin 1024) (handle : BitVec 64) (s : State) : Res := s.window (.taw w) (.deleteHandle w n handle) fun d =>
  d.tawEntry w { opc := 7, n := n.val, arg := toLe 8 handle.toNat }

/-- CNT_READ (R208). -/
def execCntRead (w : Fin 5) (n : Fin 1024) (clr : Bool) (handle : BitVec 64) (s : State) : Res := s.window (.taw w) (.cntRead w n clr handle) fun d =>
  d.tawEntry w { opc := 8, n := n.val, clr := clr, arg := toLe 8 handle.toNat }

/-- LOOKUP (R191): no entry-side behaviour and no fill. -/
def execLookup (w : Fin 5) (n : Fin 1024) (arg : List Nat) (s : State) : Res := s.window (.taw w) (.lookup w n arg) fun d =>
  d.tawEntry w { opc := 12, n := n.val, arg := arg }

/-- DESC_CREATE (R169 to R171, R191, R409, R477): `img` is the DESC_CFG image and `cap` the CAPACITY word. -/
def execDescCreate (w : Fin 5) (n : Fin 1024) (img cap : BitVec 64) (s : State) : Res := s.window (.taw w) (.descCreate w n img cap) fun d =>
  (if d.isUp 22 && !d.halted then d.tawStore w { opc := 9, n := n.val, arg := toLe 8 img.toNat ++ toLe 8 cap.toNat } else d).submit (.taw w) fun d =>
    let owner := bits img.toNat 16 12
    let fin (d : Dev) (st : Nat) : Dev := d.winDone (.taw w) (tawRes 9 n.val { status := st } [])
    if w.val ≠ 4 ∧ d.pfOf (if d.tValid n.val then d.tOwner n.val else owner) ≠ w.val then fin d tNOT_OWNER
    else if bits img.toNat 6 2 ≠ 0 ∧ ¬ d.flag F.GRP_CFG_ENABLE ∧ ¬ d.tValid n.val then fin d tBAD_FIELD
    else
      let r := d.descCreate n.val img.toNat cap.toNat true
      fin r.1 r.2

/-- DESC_DESTROY (R191, R202). -/
def execDescDestroy (w : Fin 5) (n : Fin 1024) (s : State) : Res := s.window (.taw w) (.descDestroy w n) fun d =>
  (if d.isUp 22 && !d.halted then d.tawStore w { opc := 10, n := n.val } else d).submit (.taw w) fun d =>
    let chk := d.tawCheck w.val n.val
    if chk ≠ tOK then d.winDone (.taw w) (tawRes 10 n.val { status := chk } [])
    else (d.winBusy (.taw w)).tableWrite (.window w.val) (.destroy n.val)

/-- DESC_PARAM (R203): a reserved or out-of-range value completes BAD_FIELD. -/
def execDescParam (w : Fin 5) (n : Fin 1024) (age learn : BitVec 32) (s : State) : Res := s.window (.taw w) (.descParam w n age learn) fun d =>
  (if d.isUp 22 && !d.halted then d.tawStore w { opc := 11, n := n.val, arg := toLe 4 age.toNat ++ toLe 4 learn.toNat } else d).submit (.taw w) fun d =>
    let fin (d : Dev) (st : Nat) : Dev := d.winDone (.taw w) (tawRes 11 n.val { status := st } [])
    let chk := d.tawCheck w.val n.val
    let a := age.toNat
    let l := learn.toNat
    if chk ≠ tOK then fin d chk
    else if bits a 0 16 = 0 ∨ bits a 16 8 = 0 ∨ bits a 25 7 ≠ 0 ∨ bits l 1 15 ≠ 0 ∨ bits l 16 16 = 0 then fin d tBAD_FIELD
    else fin ((d.wr .TABLE_AGE_CFG n.val a).wr .TABLE_LEARN_CFG n.val l) tOK

/-! ### Requests of other members -/

/-- REMOTE_REQUEST (R186, R187): a request of member `m` about a SHARDED table reaches this member. `lines` are the HBM
lines of its walk. -/
def execRemoteRequest (m : Fin 5) (id : Nat) (q : RemoteReq) (lines : List Nat) (s : State) : Res := s.on fun d =>
  d.onIsland 22 fun d =>
    if d.ownerOf q ≠ d.me ∨ d.get F.GRP_STATUS_STATE ≠ 3 then d.emit (.tableRsp m.val id .notOwner)
    else match q with
      | .effect st ix e =>
        let key := (st + m.val * 2 ^ 60, ix)
        if d.applied.contains key then d.emit (.tableRsp m.val id .applied)
        else match d.effTable e with
          | some d => ({ d with applied := d.applied ++ [key] } : Dev).emit (.tableRsp m.val id .applied)
          | none => d
      | .window c =>
        let r := d.tawHere c
        r.1.emit (.tableRsp m.val id (.window r.2))
      | q => match d.walkOf q with
        | some w =>
          let r := d.newWalk
          let w := { w with id := r.2, th := id, from_ := some m.val }
          r.1.startWalk w (r.1.confirmLines w lines) none
        | none => d

/-- A remote request fails (R188). -/
def Dev.remoteFails (d : Dev) (r : Remote) : Dev :=
  match r.by_ with
  | .ticket th tk n sh => d.remoteFailTicket th tk r.id n sh (match r.req with | .trd .. => true | _ => false)
  | .window w c => (d.winDone (tawOf w) (tawRes c.opc c.n { status := tREMOTE_FAIL } [])).count .TABLE_REMOTE_FAIL_CNT

/-- Drop a remote request from those that wait. -/
def Dev.dropRemote (d : Dev) (id : Nat) : Dev :=
  { d with tbl := { d.tbl with remotes := d.tbl.remotes.filter (·.id != id) } }

/-- The owner of a shard has acknowledged a forwarded effect (R51, R186). -/
def Dev.effDone (d : Dev) (id : Nat) : Dev :=
  match d.effq.find? fun e => e.reqId == id with
  | some e => d.effAck e
  | none => d

/-- REMOTE_RESPONSE (R186, R187): an answer returns; the first NOT_OWNER is retried under the current map, `lines` being
the walk's lines where this member now owns the shard; a second completes REMOTE_FAIL. -/
def execRemoteResponse (id : Nat) (a : RemoteRsp) (lines : List Nat) (s : State) : Res := s.on fun d =>
  d.onIsland 22 fun d =>
    match d.tbl.remotes.find? (·.id == id) with
    | none => match a with | .applied => d.effDone id | _ => d
    | some r =>
      let d := d.dropRemote id
      match a, r.by_ with
      | .notOwner, by_ =>
        if r.notOwner then d.remoteFails r
        else if d.ownerOf r.req = d.me then
          match by_, d.walkOf r.req with
          | .ticket th tk _ _, some w =>
            let w := { w with id := id, th := th, tk := tk }
            d.startWalk w (d.confirmLines w lines) none
          | .window w c, _ => let x := d.tawHere c; x.1.winDone (tawOf w) x.2
          | _, _ => d
        else d.forward { r with owner := d.ownerOf r.req, due := d.remoteDue, notOwner := true } (·.remoteFails r)
      | .ticket st aux bytes sh, .ticket th tk n shadow =>
        let trd := match r.req with | .trd .. => true | _ => false
        let d := if shadow then d else d.lookupCount n st trd
        d.answer th tk id { status := st, aux := aux, bytes := bytes } sh
      | .window res, .window w _ => d.winDone (tawOf w) res
      | _, _ => d

/-- REMOTE_TIMEOUT (R188): a request without a response within TMO is resent once; a second expiry completes REMOTE_FAIL,
with the REMOTE_TIMEOUT fault (notes/assumptions/21.md). -/
def execRemoteTimeout (id : Nat) (s : State) : Res := s.on fun d =>
  d.onIsland 22 fun d =>
    match d.tbl.remotes.find? (·.id == id) with
    | none => d
    | some r =>
      let d := (d.reach r.due).dropRemote id
      if r.again then (d.remoteFails r).fault 4 6 22 r.owner
      else d.forward { r with again := true, due := d.remoteDue } (·.remoteFails r)

/-! ### The bulk update queue -/

/-- The command of a bulk record (R200). -/
def recCmd (r : List Nat) : WCmd :=
  let w := leNat (slice r 0 8)
  { opc := bits w 0 8, n := bits w 8 10, rst := bit w 18, plen := bits w 24 8, prio := bits w 32 20, arg := slice r 16 240 }

/-- LAST of a bulk record. -/
def recLast (r : List Nat) : Bool := bit (r.getD 8 0) 0

/-- One record, checked against the table as the earlier records left it (R201). -/
def Dev.bulkRec (d : Dev) (p : Nat) (r : List Nat) : Dev × Nat :=
  let c := recCmd r
  let chk := d.tawCheck p c.n
  if chk ≠ tOK then (d, chk)
  else if !(c.opc == 1 || c.opc == 2 || c.opc == 3 || c.opc == 6 || c.opc == 7) then (d, tBAD_FIELD)
  else if d.tScope c.n = 1 then (d, tREPLICATED)
  else if d.tScope c.n ≠ 0 ∨ (!c.byHandle && !d.plenOk c.n c.plen) then (d, tBAD_FIELD)
  else if c.byHandle && !handleOk c.n (leNat (slice c.arg 0 8)) then (d, tNOT_FOUND)
  else
    let x := d.tableOp (d.cmdOp c)
    (x.1, x.2.status)

/-- Records in order until one fails: the tables they leave, and the index and status of the first failure. -/
def Dev.bulkRun (d : Dev) (p : Nat) : List (List Nat) → Nat → Dev × Option (Nat × Nat)
  | [], _ => (d, none)
  | r :: t, k =>
    let x := d.bulkRec p r
    if x.2 = tOK then x.1.bulkRun p t (k + 1) else (x.1, some (k, x.2))

/-- A batch of PF `p` ends (R201): the hold ends, CI passes it, the status is written, BULK_DONE is raised and the
deferred writes are applied. -/
def Dev.bulkEnd (d : Dev) (p n fail st : Nat) : Dev :=
  let d : Dev := { d with tbl := { d.tbl with bulk := d.tbl.bulk.filter (·.pf != p) } }
  let ci := d.get F.TABLE_BULK_CI_CI p
  let d := d.put F.TABLE_BULK_CI_CI p (ci + n)
  let d := d.put F.TABLE_BULK_STATUS_STATUS p st
  let d := d.put F.TABLE_BULK_STATUS_FAIL_INDEX p (if st = tOK then 0 else (ci + fail) % 2 ^ d.get F.TABLE_BULK_CFG_LOG2_SIZE p)
  let d := d.put F.TABLE_BULK_STATUS_BATCH_SEQ p (d.get F.TABLE_BULK_STATUS_BATCH_SEQ p + 1)
  (d.raiseInst 0x022 p 0 (d.rd .TABLE_BULK_STATUS p)).undefer

/-- The batch that stages ends by success or by its first failing record (R199 to R201): on success every write becomes
visible in one cycle, walks in flight keeping the pre-batch lines. `bytes` are the staged lines. -/
def Dev.bulkFinish (d : Dev) (b : Bulk) (bytes : Nat) : Dev :=
  let n := b.recs.length
  if decide (65536 < n) || decide (2 ^ 28 - d.tbl.remapped < bytes) then d.bulkEnd b.pf n (min (n - 1) 65536) tBATCH_TOO_LARGE
  else
    let tabs := b.recs.map recTable
    let ws := d.tbl.walks.map fun w => { w with cold := w.cold || tabs.contains w.table }
    let d' : Dev := { d with tbl := { d.tbl with walks := ws } }
    match d'.bulkRun b.pf b.recs 0 with
    | (x, none) => x.bulkEnd b.pf n 0 tOK
    | (_, some (k, st)) => d.bulkEnd b.pf n k st

/-- BULK_BATCH (R200, R201): the records that PF `p`'s ring holds from BULK_CI up to LAST, taken once LAST lies below
BULK_PI; the tables they name are held while the batch stages. With `fin` the batch reaches its end, `bytes` being its
staged lines. -/
def execBulkBatch (p : Fin 4) (recs : List (List Nat)) (fin : Bool) (bytes : Nat) (s : State) : Res := s.on fun d =>
  d.onIsland 22 fun d =>
    let d := match d.tbl.bulk.find? (·.pf == p.val) with
      | some _ => d
      | none =>
        let avail := (d.get F.TABLE_BULK_PI_PI p.val + 2 ^ 16 - d.get F.TABLE_BULK_CI_CI p.val) % 2 ^ 16
        let last := match recs.getLast? with | some r => recLast r | none => false
        if d.flag F.TABLE_BULK_CFG_ENABLE p.val && last && !recs.dropLast.any recLast && decide (recs.length ≤ avail) then
          let b : Bulk := ⟨p.val, recs, d.mono + d.get F.TABLE_BULK_CFG_TMO p.val * 1000000⟩
          { d with tbl := { d.tbl with bulk := d.tbl.bulk ++ [b] } }
        else d
    match d.tbl.bulk.find? (·.pf == p.val) with
    | some b => if fin then d.bulkFinish b bytes else d
    | none => d

/-- BULK_BATCH_TIMEOUT (R201): a batch staging longer than TMO is refused and nothing is published. `k` is the record
that was being staged. -/
def execBulkBatchTimeout (p : Fin 4) (k : Nat) (s : State) : Res := s.on fun d =>
  d.onIsland 22 fun d =>
    match d.tbl.bulk.find? (·.pf == p.val) with
    | some b => (d.reach b.due).bulkEnd p.val b.recs.length (min k (b.recs.length - 1)) tBATCH_TIMEOUT
    | none => d

/-! ### Aging -/

/-- AGING_VISIT (R204, R202, R495): the scanner visits entry `i` of table `n`; a held table is skipped, and an expired
entry of a REPLICATED table is reported to the leader. -/
def execAgingVisit (n : Fin 1024) (ix : Nat) (s : State) : Res := s.on fun d =>
  d.onIsland 22 fun d =>
    let n := n.val
    if !d.tValid n || !d.flag F.TABLE_DESC_CFG_AGE_EN n || d.tableHeld n then d
    else match d.entry n ix with
      | none => d
      | some e =>
        let limit := d.get F.TABLE_AGE_CFG_LIMIT n
        if e.active then d.touchEntry n ix { e with active := false, idle := 0 }
        else if limit ≤ e.idle then
          -- Only under NOTIFY, or for a REPLICATED entry, does an expired entry stay.
          if d.tScope n = 1 then
            if d.isLeader then { d with tbl := { d.tbl with idleRep := d.tbl.idleRep ++ [(d.me, n, ix, d.mono)] } }
            else d.emit (.idleReport (d.get F.GRP_STATUS_LEADER) n ix)
          else d
        else
          let d := d.touchEntry n ix { e with idle := e.idle + 1 }
          if e.idle + 1 < limit then d
          else if d.flag F.TABLE_AGE_CFG_ACTION n then d.note 3 n false (d.handle n ix) e.vtag 0 e.key
          else if d.tScope n = 1 then
            if d.isLeader then { d with tbl := { d.tbl with idleRep := d.tbl.idleRep ++ [(d.me, n, ix, d.mono)] } }
            else d.emit (.idleReport (d.get F.GRP_STATUS_LEADER) n ix)
          else
            let h := d.handle n ix
            ((d.tableDelete n ix e).1.tableSeen n).note 2 n false h e.vtag 0 e.key

end Sys2Proof.Machine
end

