-- ==== Sys2Proof/Machine/Group.lean ====
section
/-!
DEFINITION. The group (22): contact and voters (R493), leaving service (R494), the settings (R488), commits (R490, R491) and
what a member makes of what it hears of the leader (R492, R495).
-/
namespace Sys2Proof.Machine

/-- Members by number. -/
def members : List Nat := [1, 2, 3, 4]

/-- Member `m` is in a mask. -/
def inMask (mask m : Nat) : Bool := m != 0 && bit mask (m - 1)

/-- The mask of a list of members. -/
def maskOf (l : List Nat) : Nat := l.foldl (fun a m => setBits a (m - 1) 1 1) 0

/-- The members of a mask. -/
def ofMask (mask : Nat) : List Nat := members.filter (inMask mask)

/-- The superframe of the beacon line (Table 22-7). -/
def Dev.superframe (d : Dev) : Nat := if d.gbl.cocoon then 1024000000 else 1000000

/-- What was last heard of a member, over a link where it is a peer, else on the beacon line. -/
def Dev.peerOn (d : Dev) (m : Nat) : Bool :=
  (List.range 3).any fun l => d.linkActive l && d.get F.NET_EL_STATUS_PEER_MEMBER (l + 1) == m - 1
def Dev.recent (d : Dev) (h : Heard) (n : Nat) : Bool := decide (d.mono ≤ h.at_ + n * d.superframe)
def Dev.heardOf (d : Dev) (m : Nat) : Option Heard :=
  match d.gp.hello.get m, d.peerOn m with
  | some h, true => some h
  | _, _ => (d.gp.beacon.get m).bind fun h => if d.recent h 3 then some h else none

/-- In contact with a member (R493). -/
def Dev.inContact (d : Dev) (m : Nat) : Bool :=
  m == d.me || (match d.gp.beacon.get m with | some h => h.state == 3 && d.recent h 3 | none => false) ||
    (match d.gp.hello.get m with | some h => h.state == 3 && d.peerOn m | none => false)

/-- The voters and the majority (R493). -/
def Dev.configured (d : Dev) : List Nat := ofMask (d.get F.GRP_STATUS_CONFIGURED)
def Dev.bmcVotes (d : Dev) : Bool := d.configured.length == 2 && slice d.grp.set 7 1 == [1]
def Dev.majority (d : Dev) : Nat := (d.configured.length + b2n d.bmcVotes) / 2 + 1
def Dev.bmcHeard (d : Dev) : Bool := match d.gp.beacon.get 0 with | some h => d.recent h 3 | none => false
def Dev.contacts (d : Dev) : List Nat := d.configured.filter d.inContact
def Dev.votes (d : Dev) : Nat := d.contacts.length + b2n (d.bmcVotes && d.bmcHeard)

/-- FENCE_MS of the settings, in ns. -/
def Dev.fenceNs (d : Dev) : Nat := leNat (slice d.grp.set 10 2) * 1000000

/-- An interval goes on, began now, or is over. -/
def keepSince (on : Bool) (old : Option Nat) (now : Nat) : Option Nat := if on then some (old.getD now) else none

/-- CONTACT, and the intervals that R492 and R493 measure, follow what is heard; the minor version in force is the lowest among
current members. -/
def Dev.grpWatch (d : Dev) : Dev :=
  let g := d.gp
  let low := decide (d.votes < d.majority)
  let away := members.foldl (fun (t : Tbl (Option Nat)) m =>
    t.set m (keepSince (inMask (d.get F.GRP_STATUS_CURRENT) m && !d.inContact m) (g.away.get m) d.mono)) g.away
  let d : Dev := { d with gp := { g with below := keepSince low g.below d.mono, okAt := keepSince (!low) g.okAt d.mono, away := away } }
  let minor := (ofMask (d.get F.GRP_STATUS_CURRENT)).foldl (fun a m => match d.heardOf m with
    | some h => min a h.vmin | none => a) (d.stw.grpVer / 16 % 16)
  (d.put F.GRP_STATUS_CONTACT 0 (maskOf d.contacts)).put F.GRP_STATUS_VER_MINOR 0 minor

/-! ### Leaving service (R494) -/

/-- The offered copies of an item's copy are forgotten. -/
def Dev.dropFwd (d : Dev) (st c : Nat) : Dev :=
  { d with grp := { d.grp with fwd := d.grp.fwd.filter fun f => !(f.stamp == st && f.c == c) } }

/-- Items whose primary copy is a forwarded copy not yet accepted are GROUP_FENCED. -/
def Dev.fenceCopies (d : Dev) : Dev :=
  d.itemList.foldl (fun d x => match d.copy x.tok.stamp 0 with
    | some k => if x.committed && k.dtype == 2 && k.st != .gone then (d.loseCopy x.tok.stamp 0 6 0).dropFwd x.tok.stamp 0 else d
    | none => d) d

/-- A forwarded effect: one that another member applies (R186). -/
def Dev.effRemote (d : Dev) (e : EffReq) : Bool :=
  (match e.eff with
   | .tableWrite n .. | .cntEntry n .. | .atomic n _ => d.tScope n == 2
   | _ => false) && d.ownerOf (.effect e.stamp e.index e.eff) != d.me

/-- Items with a forwarded effect not yet acknowledged are GROUP_FENCED. -/
def Dev.fenceEffects (d : Dev) : Dev :=
  let l := d.effq.filter d.effRemote
  let d : Dev := { d with effq := d.effq.filter fun e => !d.effRemote e }
  l.foldl (fun d e => d.outcome e.stamp 6 0) d

/-- A member takes state `st`; from MEMBER it leaves group service. -/
def Dev.leaveService (d : Dev) (st : Nat) : Dev :=
  let ld := d.get F.GRP_STATUS_LEADER
  let cur := d.get F.GRP_STATUS_CURRENT
  if d.get F.GRP_STATUS_STATE ≠ 3 then d.grpSet st ld cur
  else
    let d := d.grpSet st (if ld = d.me then 0 else ld) (setBits cur (d.me - 1) 1 0)
    let d := d.tbl.remotes.foldl (fun d r => (d.dropRemote r.id).remoteFails r) d
    let d : Dev := { d with gp := { d.gp with memberAt := d.mono } }
    d.fenceCopies.fenceEffects

/-- QUARANTINE with its fault. -/
def Dev.quarantine (d : Dev) (kind : Nat) : Dev :=
  if d.get F.GRP_STATUS_STATE = 4 then d else (d.leaveService 4).fault 13 kind 25

/-! ### Settings (R488) -/

/-- A record of the encoding, its descriptor number and its DESC_CFG image. -/
def grpRecs (b : List Nat) : List (List Nat) := (List.range (leNat (slice b 12 2))).map fun k => slice b (1296 + 16 * k) 16
def grpDesc (r : List Nat) : Nat := leNat (slice r 0 2)
def grpImg (r : List Nat) : Nat :=
  let x (k : Nat) : Nat := r.getD k 0
  let f := x 12
  1 + x 2 % 8 * 2 + x 3 % 4 * 2 ^ 6 + f % 2 * 2 ^ 8 + f / 8 % 2 * 2 ^ 9 + f / 4 % 2 * 2 ^ 10 + f / 2 % 2 * 2 ^ 11
    + x 4 % 128 * 2 ^ 32 + x 5 % 256 * 2 ^ 40 + x 6 % 128 * 2 ^ 48 + x 7 % 4 * 2 ^ 55
def grpCap (r : List Nat) : Nat := leNat (slice r 8 4)

/-- A record breaks Table 22-4 or R169. -/
def grpRecBad (r : List Nat) : Bool :=
  let x (k : Nat) : Nat := r.getD k 0
  decide (1023 < grpDesc r) || decide (7 < x 2) || !(x 3 == 1 || x 3 == 2) || decide (127 < x 4) || decide (127 < x 6)
    || decide (3 < x 7) || decide (15 < x 12) || descBad (grpImg r) (grpCap r)

/-- The first byte offset at which an encoding of length `len` breaks Table 22-4. -/
def encBreach (b : List Nat) (len : Nat) : Option Nat :=
  let w (o n : Nat) : Nat := leNat (slice b o n)
  let n := w 12 2
  let mask := w 6 1
  let recs := grpRecs b
  firstBreach ([(w 0 4 != 0x4759444D, 0), (w 4 2 != 1, 4), (mask == 0 || decide (15 < mask), 6), (decide (1 < w 7 1), 7),
      (w 8 2 == 0 || decide (1000 < w 8 2), 8), (decide (w 10 2 < 5 ∨ 1000 < w 10 2), 10),
      (decide (1024 < n ∨ len ≠ 1296 + 16 * n), 12), (w 14 2 != 0, 14)]
    ++ (List.range 256).map (fun s => (!inMask mask (w (16 + s) 1), 16 + s))
    ++ (List.range 256).flatMap (fun i =>
        [(decide (15 < w (272 + 4 * i + 1) 1), 272 + 4 * i + 1), (decide (2051 < w (272 + 4 * i + 2) 2), 272 + 4 * i + 2)])
    ++ recs.mapIdx fun k r => (grpRecBad r || (k != 0 && decide (grpDesc r ≤ grpDesc (recs.getD (k - 1) []))), 1296 + 16 * k))

/-- The tables of the settings in force that are not in `b` are destroyed, and those of `b` that are not in force are created
empty: the device after, and whether every creation had storage. -/
def Dev.grpTables (d : Dev) (b : List Nat) : Dev × Bool :=
  let old := grpRecs d.grp.set
  let new := grpRecs b
  let d := (old.filter fun r => !new.contains r).foldl (fun (d : Dev) r => (d.tableOp (.destroy (grpDesc r))).1) d
  (new.filter fun r => !old.contains r).foldl (fun (a : Dev × Bool) r =>
    let n := grpDesc r
    let x := a.1.descCreate n (grpImg r) (grpCap r) false
    let d := (x.1.put F.TABLE_AGE_CFG_LIMIT n (r.getD 13 0)).put F.TABLE_AGE_CFG_PERIOD_MS n (leNat (slice r 14 2))
    if x.2 = tOK then (d, a.2) else (a.1, false)) (d, true)

/-- The digest of an encoding (R488). -/
def grpDigest (b : List Nat) : Nat := leNat (slice (Config.sha384 b) 0 8)

/-- The encoding comes into force, apart from its tables. -/
def Dev.grpSettings (d : Dev) (b : List Nat) : Dev :=
  let d : Dev := { d with grp := { d.grp with set := b } }
  let d := (List.range 256).foldl (fun (d : Dev) s => d.put F.TABLE_SHARD_MAP_OWNER s (b.getD (16 + s) 0)) d
  (d.put F.GRP_STATUS_CONFIGURED 0 (b.getD 6 0)).wr .GRP_DIGEST 0 (grpDigest b)

/-! ### Commits (R490) -/

/-- PTP_LOCK of a member as it shows it. -/
def Dev.ptpOf (d : Dev) (m : Nat) : Bool :=
  if m = d.me then d.flag F.GRP_STATUS_PTP_LOCK else match d.heardOf m with | some h => h.ptp | none => false

/-- The leader that R487 chooses among members. -/
def Dev.chooseLeader (d : Dev) (l : List Nat) : Nat :=
  match l.find? d.ptpOf with
  | some m => m
  | none => l.headD 0

/-- A JOINING member that a commit can add: equal digest and VER_MAJOR. -/
def Dev.joinable (d : Dev) (m : Nat) : Bool :=
  match d.heardOf m with
  | some h => h.state == 2 && h.digest == d.rd .GRP_DIGEST 0 && h.vmaj == d.get F.GRP_STATUS_VER_MAJOR
  | none => false

/-- The CURRENT of a commit of an encoding: the configured members that are current and in contact, and those that join. -/
def Dev.nextCurrent (d : Dev) (enc : List Nat) (lost : List Nat) : List Nat :=
  (ofMask (enc.getD 6 0)).filter fun m => !lost.contains m &&
    (m == d.me || (inMask (d.get F.GRP_STATUS_CURRENT) m && d.inContact m) || d.joinable m)

/-- The members that are asked: those that will be current, and QUARANTINE members of the same VER_MAJOR. -/
def Dev.asked (d : Dev) (cur : List Nat) : List Nat :=
  members.filter fun m => m != d.me && (cur.contains m || match d.heardOf m with
    | some h => h.state == 4 && h.vmaj == d.get F.GRP_STATUS_VER_MAJOR | none => false)

/-- A commit message to members. -/
def Dev.tellAll (d : Dev) (l : List Nat) (kind : Nat) (words : List Nat) : Dev := l.foldl (fun d m => d.emit (.group m kind words)) d

/-- The status of a group window command (Table 22-5), with GW_DONE. -/
def Dev.gwDone (d : Dev) (status detail : Nat) : Dev :=
  let e := d.get F.GRP_STATUS_EPOCH
  (d.winDone .gw [(0x200, status + detail % 2 ^ 16 * 2 ^ 16), (0x208, e)]).raiseLocal 25 1 status e

/-- Every member that will be current is READY: COMMIT with T_apply = DTB + 200 us. -/
def Dev.commitGo (d : Dev) (r : Run) : Dev :=
  let t := d.mono + 200000
  let p := { r.prep with apply := some t }
  let d := d.tellAll (d.asked (ofMask p.current)) 3 [d.now + 200000]
  { d with gp := { d.gp with prep := some p, run := some { r with prep := p } } }

/-- READY answers are complete. -/
def Dev.commitReady (d : Dev) (r : Run) : Bool := (ofMask r.prep.current).all fun m => m == d.me || r.ready.contains m

/-- Every REPLICATED table is copied to a member before the commit that adds it (R491). -/
def Dev.copyTables (d : Dev) (m : Nat) : Dev :=
  d.tbl.entries.cells.foldl (fun d c => match c.2 with
    | some e =>
      let n := c.1 / 2 ^ 28
      if d.tScope n = 1 ∧ d.tValid n then
        let d := d.emit (.replWrite m d.tbl.replNext (.insert n e.key e.aux e.plen e.prio e.res))
        { d with tbl := { d.tbl with replNext := d.tbl.replNext + 1 } }
      else d
    | none => d) d

/-- A commit starts at the leader: PREPARE to every member asked. -/
def Dev.startCommit (d : Dev) (enc : List Nat) (cur : List Nat) (epoch : Nat) (window : Bool) : Dev :=
  let d := (cur.filter fun m => m != d.me && !inMask (d.get F.GRP_STATUS_CURRENT) m).foldl (fun (d : Dev) m => d.copyTables m) d
  let p : Prep := { epoch := epoch % 2 ^ 32, current := maskOf cur, leader := d.chooseLeader cur, enc := enc, at_ := d.mono }
  let r : Run := { prep := p, window := window }
  let d := d.tellAll (d.asked cur) 0 (p.epoch :: p.current :: p.leader :: enc)
  let d : Dev := { d with gp := { d.gp with prep := some p, run := some r } }
  if d.commitReady r then d.commitGo r else d

/-- A membership commit (R487, R491, R492): the encoding in force without the members lost. -/
def Dev.membership (d : Dev) (lost : List Nat) : Dev :=
  if d.gp.run.isSome ∨ d.grp.set = [] then d
  else
    let cur := d.nextCurrent d.grp.set lost
    if cur.length + b2n (d.bmcVotes && d.bmcHeard) < d.majority then d
    else d.startCommit d.grp.set cur (d.get F.GRP_STATUS_EPOCH + 1) false

/-- A commit is abandoned: ABORT, EPOCH_COMMIT_FAIL and the window's status. -/
def Dev.commitFails (d : Dev) (r : Run) (status m : Nat) : Dev :=
  let d := (d.tellAll (d.asked (ofMask r.prep.current)) 4 []).fault 13 9 25 m
  let d : Dev := { d with gp := { d.gp with run := none, prep := none } }
  if r.window then d.gwDone status m else d

/-- REPLICATED writes no longer wait for members that are not current. -/
def Dev.replSettle (d : Dev) : Dev :=
  let cur := d.get F.GRP_STATUS_CURRENT
  let l := d.tbl.repl.map fun (x : Repl) => { x with left := x.left.filter (inMask cur) }
  let d : Dev := { d with tbl := { d.tbl with repl := l.filter fun x => !x.left.isEmpty } }
  (l.filter fun x => x.left.isEmpty).foldl (fun d x => match x.win with
    | some w => d.winDone (tawOf w) (d.writeRes x.op x.res)
    | none => d) d

/-- The commit applies (R490 step 4). A member that GROUP_LEAVE or its time offset holds stays in JOINING. -/
def Dev.commitApply (d : Dev) (p : Prep) : Dev :=
  let was := d.get F.GRP_STATUS_CURRENT
  let serving := d.get F.GRP_STATUS_STATE
  let d := (d.grpTables p.enc).1.grpSettings p.enc
  let d := d.putRecord { type := 4, instar := d.get F.STM_FW_STATUS_RUN_INSTAR, key := 0, data := p.enc }
  let mine := inMask p.current d.me && !d.gp.held && !d.gp.timeLeft && !d.gp.silent
  let added := members.filter fun m => inMask p.current m && (!inMask was m || !inMask was d.me)
  let g := d.grp
  let d : Dev := { d with
    grp := { g with fseq := added.foldl (fun (t : Tbl Nat) m => t.set m 0) g.fseq },
    gp := { d.gp with expect := added.foldl (fun (t : Tbl Nat) m => t.set m 0) d.gp.expect, prep := none,
                      verdicts := ⟨d.gp.verdicts.cells.filter fun c => !added.contains (c.1 / 1024)⟩ } }
  let d := d.put F.GRP_STATUS_EPOCH 0 p.epoch
  let d := if mine then d.grpSet 3 p.leader p.current
    else if serving = 3 then (d.leaveService 2).grpSet 2 p.leader p.current
    else if d.gp.silent then d.grpSet 4 p.leader p.current
    else d.grpSet 2 p.leader p.current
  let d := d.replSettle
  match d.gp.run with
  | some r =>
    let d : Dev := { d with gp := { d.gp with run := none } }
    if r.window then d.gwDone 0 0 else d
  | none => d

/-! ### What a member hears (R492, R495) -/

/-- A number joins a rising list. -/
def insertInt (x : Int) : List Int → List Int
  | [] => [x]
  | y :: t => if x ≤ y then x :: y :: t else y :: insertInt x t

/-- The median of the last offsets. -/
def median (l : List Int) : Int :=
  let s := l.foldl (fun a x => insertInt x a) []
  s.getD (s.length / 2) 0

/-- The time offset of an exchange with the leader. -/
def Dev.timeOffset (d : Dev) (t1 t2 t3 t4 : Nat) : Dev :=
  let o : Int := (((t2 : Int) - t1) - ((t4 : Int) - t3)) / 2
  let l := (d.gp.offsets ++ [o])
  let l := l.drop (l.length - 16)
  let m := median l
  let d : Dev := { d with gp := { d.gp with offsets := l } }
  let d := d.wr .GRP_TIME_OFFSET 0 (unsigned 64 m)
  let near := decide (m.natAbs ≤ 1000)
  let d := if near then d.put F.GRP_STATUS_TIME_DIVERGED 0 0
    else if d.flag F.GRP_STATUS_TIME_DIVERGED then d
    else (d.put F.GRP_STATUS_TIME_DIVERGED 0 1).fault 13 3 25
  let ok := keepSince (near && d.gp.timeLeft) d.gp.timeOk d.mono
  let back := match ok with | some t => decide (t + 1000000000 ≤ d.mono) | none => false
  let d : Dev := { d with gp := { d.gp with timeOk := if back then none else ok, timeLeft := d.gp.timeLeft && !back } }
  if 100000 < m.natAbs ∧ d.get F.GRP_STATUS_STATE = 3 then
    let d : Dev := { d with gp := { d.gp with timeLeft := true, timeOk := none } }
    (d.leaveService 2).fault 13 4 25
  else d

/-- A HELLO or beacon of the leader is checked (Table 22-6). -/
def Dev.leaderHeard (d : Dev) (h : Heard) : Dev :=
  let d := d.wr .GRP_LEADER_DIGEST 0 h.digest
  let st := d.get F.GRP_STATUS_STATE
  if st ≠ 2 ∧ st ≠ 3 then d
  else if h.vmaj ≠ d.get F.GRP_STATUS_VER_MAJOR then d.quarantine 2
  else if h.digest ≠ d.rd .GRP_DIGEST 0 then d.quarantine 1
  else d

/-- What every HELLO and beacon of a member does: a member that halts is not current at once. -/
def Dev.memberHeard (d : Dev) (m : Nat) (h : Heard) : Dev :=
  let d : Dev := if h.state = 3 then { d with gp := { d.gp with memberAt := d.mono } } else d
  let cur := d.get F.GRP_STATUS_CURRENT
  let d := if h.state = 6 ∧ inMask cur m then d.grpSet (d.get F.GRP_STATUS_STATE) (d.get F.GRP_STATUS_LEADER) (setBits cur (m - 1) 1 0)
    else d
  let d := if d.get F.GRP_STATUS_LEADER = m then d.leaderHeard h else d
  d.grpWatch

end Sys2Proof.Machine
end

