-- ==== Sys2Proof/Machine/GroupCmds.lean ====
section
/-!
DEFINITION. The commands of the group (22): HELLOs, forwarded copies, the group window, commits, fencing, and REPLICATED tables.
-/
namespace Sys2Proof.Machine

/-- The AON island runs the group protocol: GRP.CFG.ENABLE is 1. -/
def Dev.onGroup (d : Dev) (f : Dev → Dev) : Dev := d.onIsland 25 fun d => if d.flag F.GRP_CFG_ENABLE then f d else d

/-! ### HELLO (R478, R495) -/

/-- The members reached by ACTIVE links. -/
def Dev.directMask (d : Dev) : Nat := maskOf (members.filter d.peerOn)

/-- A HELLO on link `l` (Table 22-2). -/
def Dev.helloBytes (d : Dev) (l : Nat) : List Nat :=
  let e := (d.gp.echo.get l).getD (0, 0)
  let w0 := d.me + d.get F.GRP_STATUS_STATE * 8 + d.get F.GRP_STATUS_PTP_LOCK * 64 + d.directMask * 128
    + d.get F.GRP_STATUS_VER_MAJOR * 2 ^ 11 + d.stw.grpVer / 16 % 16 * 2 ^ 15
  toLe 4 w0 ++ toLe 4 (d.get F.GRP_STATUS_EPOCH) ++ toLe 8 (d.rd .GRP_DIGEST 0) ++ toLe 8 d.now ++ toLe 8 e.1 ++ toLe 8 e.2

/-- HELLO_SEND (R478): every 100 us on every ACTIVE link. -/
def execHelloSend (l : Fin 3) (s : State) : Res := s.on fun d => d.onGroup fun d =>
  if !d.linkActive l.val then d
  else
    let d := d.reach (d.gp.helloAt.get l.val + 100000)
    let d : Dev := { d with gp := { d.gp with helloAt := d.gp.helloAt.set l.val d.mono } }
    d.elSend l.val { cls := 0, src := d.me, dst := d.get F.NET_EL_STATUS_PEER_MEMBER (l.val + 1) + 1, data := d.helloBytes l.val }

/-- HELLO_RECEIVE (R478, R492, R493, R495): the 40 bytes of a HELLO from the peer of a link. -/
def execHelloReceive (l : Fin 3) (b : List Nat) (s : State) : Res := s.on fun d => d.onGroup fun d =>
  let w (o n : Nat) : Nat := leNat (slice b o n)
  let w0 := w 0 4
  let m := w0 % 8
  if !d.linkActive l.val || m == d.me || m == 0 || decide (4 < m) then d
  else
    let h : Heard := { at_ := d.mono, state := bits w0 3 3, ptp := bit w0 6, direct := bits w0 7 4, vmaj := bits w0 11 4,
                       vmin := bits w0 15 4, epoch := w 4 4, digest := w 8 8 }
    let g := d.gp
    let d : Dev := { d with grp := { d.grp with direct := d.grp.direct.set m h.direct },
                            gp := { g with hello := g.hello.set m (some h), echo := g.echo.set l.val (some (w 16 8, d.now)) } }
    let d := if d.get F.GRP_STATUS_LEADER = m then
        let d : Dev := { d with gp := { d.gp with directAt := d.mono } }
        if w 24 8 = 0 then d else d.timeOffset (w 24 8) (w 32 8) (w 16 8) d.now
      else d
    d.memberHeard m h

/-- TIME_DIVERGED (R495): no direct link to the leader for 1 s. -/
def execTimeDiverged (s : State) : Res := s.on fun d => d.onGroup fun d =>
  let ld := d.get F.GRP_STATUS_LEADER
  if d.get F.GRP_STATUS_STATE ≠ 3 ∨ ld = d.me ∨ ld = 0 ∨ d.peerOn ld = true ∨ d.flag F.GRP_STATUS_TIME_DIVERGED = true then d
  else ((d.reach (d.gp.directAt + 1000000000)).put F.GRP_STATUS_TIME_DIVERGED 0 1).fault 13 3 25

/-! ### Forwarded copies (R483 to R485) -/

/-- The verdict on a forwarded copy goes back to its sender (R484). -/
def Dev.fwdAck (d : Dev) (src fseq : Nat) (ok : Bool) : Dev := d.groupSend src 2 (toLe 4 fseq ++ toLe 4 (b2n !ok))

/-- Admission of `n` bytes at an accounting point, segment by segment (R266). -/
def admitRun (k : Nat) : Nat → Nat → Dev → Charge → Option (Dev × Charge)
  | 0, _, d, c => some (d, c)
  | i + 1, left, d, c =>
    if left = 0 then some (d, c)
    else match d.takeCells k (cellsOf (min 512 left)) with
      | none => none
      | some (d', x) =>
        admitRun k i (left - 512) d' { resv := c.resv + x.resv, shared := c.shared + x.shared, head := c.head + x.head }

/-- The order key of a copy that arrives (R483). -/
def arrivalKey (src k : Nat) : Nat := 2 ^ 31 + (src - 1) % 4 * 2 ^ 20 + Nat.xor (k % 2 ^ 20) (k / 2 ^ 20 % 2 ^ 12)

/-- A copy is offered to admission at the accounting point of its link (R483): the item that it becomes, or none. -/
def Dev.arrive (d : Dev) (l src : Nat) (b : List Nat) : Option Dev :=
  let w1 := leNat (slice b 4 4)
  let ent := bits w1 4 8
  let len := bits w1 12 14
  let okey := arrivalKey src (leNat (slice b 8 4))
  let a := 272 + 4 * ent
  let fl := d.grp.set.getD (a + 1) 0
  let cls := bits fl 1 3
  if !bit fl 0 || !d.accepts || d.get F.GRP_STATUS_STATE != 3 || !inMask (d.get F.GRP_STATUS_CURRENT) src then none
  else match admitRun ((32 + l) * 8 + cls) (ceilDiv len 512) len d {} with
    | none => none
    | some (d', c) =>
      if !d'.robRoom okey then none
      else
        let tok : Token := { inst := leNat (slice d.grp.set (a + 2) 2), okey := okey, slot := d.grp.set.getD a 0, len := len,
                             head := min 256 len, queue := ent + (src - 1) * 256, rxts := leNat (slice b 12 4) }
        some (d'.accept 5 { tok := tok, data := slice b 32 len, iap := 32 + l, cls := cls, resv := c.resv, shared := c.shared,
                            headroom := c.head })

/-- FORWARDED_COPY_ARRIVAL (R482, R483, R485): a copy with its forward header has arrived whole on a link. -/
def execForwardedCopyArrival (l : Fin 3) (b : List Nat) (s : State) : Res := s.on fun d => d.onGroup fun d =>
  let fseq := leNat (slice b 0 4)
  let w1 := leNat (slice b 4 4)
  let src := w1 % 4 + 1
  let dst := bits w1 2 2 + 1
  let want := d.gp.expect.get src
  let gap := (fseq + 2 ^ 32 - want) % 2 ^ 32
  let slot := src * 1024 + fseq % 1024
  if !d.isUp 21 || dst != d.me then d
  else if 2 ^ 31 ≤ gap then
    let d := d.count .GRP_FWD_DUP (src - 1)
    match d.gp.verdicts.get slot with
    | some (f, ok) => if f = fseq then d.fwdAck src fseq ok else d
    | none => d
  else if gap ≠ 0 then d
  else
    let r := d.arrive l.val src b
    let d := (r.getD d).count .GRP_FWD_RX (src - 1)
    let g := d.gp
    let d : Dev := { d with gp := { g with expect := g.expect.set src ((fseq + 1) % 2 ^ 32), verdicts := g.verdicts.set slot (some (fseq, r.isSome)) } }
    d.fwdAck src fseq r.isSome

/-- FORWARD_ACK (R484): the verdict of a member on a copy. -/
def execForwardAck (m : Fin 5) (fseq : BitVec 32) (refuse : Bool) (s : State) : Res := s.on fun d => d.onIsland 21 fun d =>
  match d.grp.fwd.find? fun f => f.member == m.val && f.fseq == fseq.toNat && f.redo.isNone with
  | none => d
  | some f =>
    if refuse then
      let l := d.grp.fwd.map fun x => if x = f then { x with redo := some (d.mono + 2000) } else x
      ({ d with grp := { d.grp with fwd := l } } : Dev).count .GRP_FWD_REFUSED (m.val - 1)
    else
      let d : Dev := { d with grp := { d.grp with fwd := d.grp.fwd.erase f } }
      let d := if f.c = 0 then d.outcome f.stamp 0 0 else d
      d.endCopy f.stamp f.c

/-- REFUSE_RESEND (R484): the copy joins the tail of its queue; its hold counts from its first offer. -/
def execRefuseResend (m : Fin 5) (fseq : BitVec 32) (s : State) : Res := s.on fun d => d.onIsland 21 fun d =>
  match d.grp.fwd.find? fun f => f.member == m.val && f.fseq == fseq.toNat with
  | none => d
  | some f =>
    match f.redo with
    | none => d
    | some t =>
      let d := d.reach t
      let d : Dev := { d with grp := { d.grp with fwd := d.grp.fwd.erase f } }
      match d.copy f.stamp f.c with
      | none => d
      | some k =>
        match d.queueOf k with
        | none => d
        | some q => (d.joinQueue f.stamp f.c q k).setCopy f.stamp f.c fun x => { x with hold := k.hold }

/-- GROUP_HOLD_EXPIRY (R484): a copy was not accepted within HOLD_MS. -/
def execGroupHoldExpiry (st c : Nat) (s : State) : Res := s.on fun d => d.onIsland 21 fun d =>
  match d.copy st c with
  | none => d
  | some k =>
    if k.dtype ≠ 2 ∨ k.st = .gone ∨ d.halted = true then d
    else match k.hold with
      | none => d
      | some t => (((d.reach t).count .GRP_FWD_HOLD_DROP (bits k.dest 15 2)).loseCopy st c 4 3).dropFwd st c

/-! ### The group window (R489) -/

/-- GROUP_COMMIT (R489, R490). -/
def execGroupCommit (off : BitVec 64) (len : BitVec 32) (data : Option (List Nat)) (s : State) : Res := s.window .gw (.groupCommit off len data) fun d => d.submit .gw fun d =>
  if !d.isLeader then d.gwDone 1 0
  else if (ofMask (d.get F.GRP_STATUS_CURRENT)).length + b2n (d.bmcVotes && d.bmcHeard) < d.majority then d.gwDone 2 0
  else if d.gp.run.isSome then d.gwDone 3 0
  else
    let r := d.shmRead 0 off.toNat len.toNat data
    if r.2 ≠ 0 then d.gwDone (r.2 + 3) 0
    else match encBreach r.1 len.toNat with
      | some x => d.gwDone 4 x
      | none =>
        if !(d.grpTables r.1).2 then d.gwDone 5 d.me
        else (d.winBusy .gw).startCommit r.1 (d.nextCurrent r.1 []) (d.get F.GRP_STATUS_EPOCH + 1) true

/-- GROUP_LEAVE (R489, R494). -/
def execGroupLeave (s : State) : Res := s.window .gw .groupLeave fun d => d.submit .gw fun d =>
  let d : Dev := { d with gp := { d.gp with held := true } }
  (if d.get F.GRP_STATUS_STATE = 3 then d.leaveService 2 else d).gwDone 0 0

/-- GROUP_REJOIN (R489). -/
def execGroupRejoin (s : State) : Res := s.window .gw .groupRejoin fun d => d.submit .gw fun d =>
  ({ d with gp := { d.gp with held := false, memberAt := d.mono } } : Dev).gwDone 0 0

/-! ### Commits (R490) -/

/-- PREPARE reaches a member. -/
def execPrepare (m : Fin 5) (epoch : BitVec 32) (cur : BitVec 4) (ld : Fin 5) (enc : List Nat) (s : State) : Res :=
  s.on fun d => d.onGroup fun d =>
    if m.val = d.me then d
    else if (encBreach enc enc.length).isSome || !(d.grpTables enc).2 ||
        (match d.heardOf m.val with | some h => h.vmaj != d.get F.GRP_STATUS_VER_MAJOR | none => false) then d.emit (.group m.val 2 [])
    else
      let p : Prep := { epoch := epoch.toNat, current := cur.toNat, leader := ld.val, enc := enc, at_ := d.mono }
      ({ d with gp := { d.gp with prep := some p } } : Dev).emit (.group m.val 1 [])

/-- READY: the answer of a member to PREPARE, READY or REFUSE. -/
def execReady (m : Fin 5) (refuse : Bool) (s : State) : Res := s.on fun d => d.onGroup fun d =>
  match d.gp.run with
  | none => d
  | some r =>
    if !inMask r.prep.current m.val || r.prep.apply.isSome || r.ready.contains m.val then d
    else if refuse then d.commitFails r 5 m.val
    else
      let r := { r with ready := r.ready ++ [m.val] }
      let d : Dev := { d with gp := { d.gp with run := some r } }
      if d.commitReady r then d.commitGo r else d

/-- COMMIT reaches a member: T_apply is a DTB value. -/
def execCommit (t : BitVec 64) (s : State) : Res := s.on fun d => d.onGroup fun d =>
  match d.gp.prep with
  | none => d
  | some p => { d with gp := { d.gp with prep := some { p with apply := some (t.toNat - d.sys.steps) } } }

/-- COMMIT_APPLY: the own DTB reads T_apply. -/
def execCommitApply (s : State) : Res := s.on fun d => d.onGroup fun d =>
  match d.gp.prep with
  | none => d
  | some p => match p.apply with
    | none => d
    | some t => (d.reach t).commitApply p

/-- GROUP_ABORT: the prepared state is dropped. -/
def execGroupAbort (s : State) : Res := s.on fun d => d.onGroup fun d => { d with gp := { d.gp with prep := none } }

/-- PREPARE_TIMEOUT: 10 ms without every READY; DETAIL names the lowest member that has not answered. -/
def execPrepareTimeout (s : State) : Res := s.on fun d => d.onGroup fun d =>
  match d.gp.run with
  | none => d
  | some r =>
    if r.prep.apply.isSome then d
    else
      let m := ((ofMask r.prep.current).find? fun m => m != d.me && !r.ready.contains m).getD 0
      (d.reach (r.prep.at_ + 10000000)).commitFails r 6 m

/-- PREPARED_DISCARD (22, When the leader is lost during a commit): 100 ms after PREPARE. -/
def execPreparedDiscard (s : State) : Res := s.on fun d => d.onGroup fun d =>
  match d.gp.prep with
  | none => d
  | some p =>
    if p.apply.isSome ∨ d.gp.run.isSome then d
    else
      let d := d.reach (p.at_ + 100000000)
      { d with gp := { d.gp with prep := none } }

/-! ### Leader and membership (R486, R487, R492, R493) -/

/-- GROUP_FORM (R486): no MEMBER is heard for two superframes and this JOINING member is the one that R487 chooses. -/
def execGroupForm (s : State) : Res := s.on fun d => d.onGroup fun d =>
  let l := members.filter fun m => inMask (d.get F.GRP_STATUS_CONFIGURED) m && (m == d.me || d.joinable m)
  let epochs := members.map fun m => match d.heardOf m with | some h => h.epoch | none => 0
  let e := epochs.foldl max (d.get F.GRP_STATUS_EPOCH)
  if d.get F.GRP_STATUS_STATE ≠ 2 ∨ d.gp.held = true ∨ d.gp.timeLeft = true ∨ d.gp.run.isSome = true ∨ d.grp.set = []
      ∨ (members.any fun m => m != d.me && d.inContact m) = true ∨ d.chooseLeader l ≠ d.me
      ∨ l.length + b2n (d.bmcVotes && d.bmcHeard) < d.majority then d
  else (d.reach (d.gp.memberAt + 2 * d.superframe)).startCommit d.grp.set l (e + 1) false

/-- LEADER_LOST (R487, R490): the leader is out of contact; the member that the rule selects leads, settles a commit that the former
leader left, and runs a membership commit. -/
def execLeaderLost (s : State) : Res := s.on fun d => d.onGroup fun d =>
  let old := d.get F.GRP_STATUS_LEADER
  let cur := d.get F.GRP_STATUS_CURRENT
  if d.get F.GRP_STATUS_STATE ≠ 3 ∨ old = d.me ∨ old = 0 ∨ d.inContact old = true then d
  else
    let left := (ofMask cur).filter fun m => m != old && d.inContact m
    let new := d.chooseLeader left
    let d := d.grpSet 3 new cur
    if new ≠ d.me then d
    else match d.gp.prep with
      | some p =>
        let applied := members.any fun m => match d.heardOf m with | some h => h.epoch == p.epoch | none => false
        if applied then d.commitGo { prep := { p with leader := d.me } }
        else
          let d := d.tellAll (d.asked left) 4 []
          ({ d with gp := { d.gp with prep := none } } : Dev).membership [old]
      | none => d.membership [old]

/-- SELF_FENCE (R492, R493, R494). -/
def execSelfFence (s : State) : Res := s.on fun d => d.onGroup fun d =>
  let d := d.grpWatch
  match d.gp.below with
  | none => d
  | some t => if d.get F.GRP_STATUS_STATE = 3 then (((d.reach (t + d.fenceNs)).leaveService 5)).fault 13 5 25 else d

/-- FENCE_RECOVERY (R493): contact at the majority for 100 ms. -/
def execFenceRecovery (s : State) : Res := s.on fun d => d.onGroup fun d =>
  let d := d.grpWatch
  match d.gp.okAt with
  | none => d
  | some t =>
    if d.get F.GRP_STATUS_STATE = 5 then
      let d := d.reach (t + 100000000)
      ({ d with gp := { d.gp with memberAt := d.mono } } : Dev).grpSet 2 (d.get F.GRP_STATUS_LEADER) (d.get F.GRP_STATUS_CURRENT)
    else d

/-- MEMBER_LOST (R492): the leader removes a current member out of contact for FENCE_MS, or HALTED. -/
def execMemberLost (m : Fin 5) (s : State) : Res := s.on fun d => d.onGroup fun d =>
  let d := d.grpWatch
  let halted := match d.heardOf m.val with | some h => h.state == 6 | none => false
  if !d.isLeader || m.val == d.me || !inMask (d.get F.GRP_STATUS_CURRENT) m.val && !halted then d
  else match d.gp.away.get m.val with
    | some t => ((d.reach (t + d.fenceNs)).fault 13 6 25 m.val).membership [m.val]
    | none => if halted then (d.fault 13 6 25 m.val).membership [m.val] else d

/-! ### REPLICATED tables (R491, R495) -/

/-- REPLICATED_WRITE (R491): a member applies the leader's writes in their order and reports each; the command that waits at the leader
is DONE with the last report. -/
def execReplicatedWrite (a : ReplArg) (s : State) : Res := s.on fun d => d.onIsland 22 fun d =>
  match a with
  | .write seq op =>
    if seq < d.tbl.replGot ∨ d.isLeader = true then d
    else
      let d := (d.tableOp op).1
      ({ d with tbl := { d.tbl with replGot := seq + 1 } } : Dev).emit (.replAck (d.get F.GRP_STATUS_LEADER) seq)
  | .applied m seq =>
    let l := d.tbl.repl.map fun (x : Repl) => if x.seq = seq then { x with left := x.left.filter (· != m) } else x
    ({ d with tbl := { d.tbl with repl := l } } : Dev).replSettle

/-- REPLICATED_APPLY_TIMEOUT (R491): 1 ms without every report; those that have not applied the write are removed by a membership
commit, after which the command is DONE. -/
def execReplicatedApplyTimeout (seq : Nat) (s : State) : Res := s.on fun d => d.onGroup fun d =>
  match d.tbl.repl.find? (·.seq == seq) with
  | none => d
  | some x => if d.isLeader then (d.reach x.due).membership x.left else d

/-- REPLICATED_AGING_REPORT (R495): member `m` reports entry `ix` of table `n` idle; `div` are the members with TIME_DIVERGED. The leader
deletes the entry once every other current member has reported it within one AGE_PERIOD_MS. -/
def execReplicatedAgingReport (m : Fin 5) (n : Fin 1024) (ix : Nat) (div : BitVec 4) (s : State) : Res := s.on fun d => d.onIsland 22 fun d =>
  if !d.isLeader || !inMask (d.get F.GRP_STATUS_CURRENT) m.val || d.tScope n.val != 1 then d
  else
    let win := d.get F.TABLE_AGE_CFG_PERIOD_MS n.val * 1000000
    let l := d.tbl.idleRep.filter fun r => decide (d.mono ≤ r.2.2.2 + win) && !(r.1 == m.val && r.2.1 == n.val && r.2.2.1 == ix)
    let l := l ++ [(m.val, n.val, ix, d.mono)]
    let d : Dev := { d with tbl := { d.tbl with idleRep := l } }
    let need := (ofMask (d.get F.GRP_STATUS_CURRENT)).filter fun k => !inMask div.toNat k
    if need.all fun k => l.any fun r => r.1 == k && r.2.1 == n.val && r.2.2.1 == ix then
      let d : Dev := { d with tbl := { d.tbl with idleRep := l.filter fun r => !(r.2.1 == n.val && r.2.2.1 == ix) } }
      match d.entry n.val ix with
      | some _ => d.replWrite none (.deleteH n.val (d.handle n.val ix))
      | none => d
    else d

end Sys2Proof.Machine
end

