-- ==== Sys2Proof/Machine/Mesh.lean ====
section
/-!
DEFINITION. The mesh of Silkway (01): the routers of each island (Table 01-2), the home pair of a source and a destination island and
the route between them (R19), and the hold of R25 on the pairs whose route a failed router cuts.
-/
namespace Sys2Proof.Machine

/-- The routers that an island is attached to (Table 01-2), in rising order; router ID = 6 × y + x. -/
def routersOf : Nat → List Nat
  | 0 => [1] | 1 => [2] | 2 => [3] | 3 => [4] | 4 => [6] | 5 => [11] | 6 => [12] | 7 => [17]
  | 8 => [18] | 9 => [23] | 10 => [24] | 11 => [29] | 12 => [31] | 13 => [32] | 14 => [33] | 15 => [34]
  | 16 => [0] | 17 => [5] | 18 => [30] | 19 => [35]
  | 20 => [20, 21]
  | 21 => [7, 10, 13, 16, 19, 22]
  | 22 => [8, 9, 25, 28]
  | 23 => [14, 26]
  | 24 => [15]
  | 25 => [27]
  | _ => []

/-- The hops from router `a` to router `b`. -/
def routerHops (a b : Nat) : Nat := (a % 6 - b % 6) + (b % 6 - a % 6) + (a / 6 - b / 6) + (b / 6 - a / 6)

/-- The router of a list in rising order that is closest to `q`; ties go to the lowest ID (R19). -/
def nearestRouter (rs : List Nat) (q : Nat) : Nat :=
  (rs.foldl (fun (a : Option Nat) r => match a with
    | none => some r
    | some b => if routerHops r q < routerHops b q then some r else some b) none).getD 0

/-- The home pair of a source and a destination island (R19). -/
def homePair (src dst : Nat) : Nat × Nat :=
  let s := nearestRouter (routersOf src) ((routersOf dst).headD 0)
  (s, nearestRouter (routersOf dst) s)

/-- Router `r` lies on the XY route from router `a` to router `b`: along X in the row of `a`, then along Y in the column of `b`. -/
def onXY (r a b : Nat) : Bool :=
  let between (x p q : Nat) : Bool := decide (min p q ≤ x) && decide (x ≤ max p q)
  (r / 6 == a / 6 && between (r % 6) (a % 6) (b % 6)) || (r % 6 == b % 6 && between (r / 6) (a / 6) (b / 6))

/-- The route of a pair of islands passes router `r` (R19); traffic inside one island enters no router (R26). -/
def onRoute (r src dst : Nat) : Bool :=
  src != dst && onXY r (homePair src dst).1 (homePair src dst).2

/-- The instant before which a message that island `src` sent to island `dst` at `sent` does not leave (R25): the end of the hold of
every failed router that its pair is affected by and that had failed by then; 0 where none holds it. -/
def Dev.heldTill (d : Dev) (src dst sent : Nat) : Nat :=
  d.sys.swyHold.foldl (fun t h => if onRoute h.1 src dst && decide (h.2 ≤ sent + 2000) then max t h.2 else t) 0

end Sys2Proof.Machine
end

