-- ==== Sys2Proof/Machine/Events.lean ====
section
/-!
DEFINITION. Events and Interrupts (20): the EVT block delivers raises, and vectors send their messages.
-/
namespace Sys2Proof.Machine

/-- The island that raises an event ID: that of Table 20-1, else the one whose block owns the source (Table 20-3). -/
def evtIsland (id : Nat) : Nat :=
  if 0x560 ≤ id then 25 else if 0x80 ≤ id then (id - 0x80) / 48
  else if id = 0x023 ∨ id = 0x025 then 22 else if id = 0x024 ∨ id = 0x026 ∨ id = 0x027 then 23 else 20

/-- An instance whose raises are delivered: CREATED or ENABLED (R450). -/
def Dev.raises (d : Dev) (inst : Nat) : Bool := let s := d.get F.INST_STATE_STATE inst; s == 2 || s == 3

/-- The bit of an ID in POD.SUPV_EVT of pod `p`, and that supervisor's wake latch (R453). -/
def Dev.toSupervisor (d : Dev) (id p : Nat) : Dev :=
  if !d.isUp p then d.count .SWY_DROP_ABSENT
  else
    let i := p * 48 + id / 32
    let v := d.get F.POD_SUPV_EVT_EVT i
    let d := d.put F.POD_SUPV_EVT_EVT i (setBits v (id % 32) 1 1)
    let th := p * 128 + (d.pod p).sup
    d.setTh th { d.th th with wake := true }

/-- A device-scoped raise is delivered under its route (R449, R451, R453), in the order of R453. -/
def Dev.deliverDev (d : Dev) (e : EvtMsg) : Dev :=
  let v := d.get F.EVT_RAISED_BITS (e.id / 32)
  let d := d.put F.EVT_RAISED_BITS (e.id / 32) (setBits v (e.id % 32) 1 1)
  let pods := if d.flag F.EVT_ROUTE_EN_SUPV e.id then (List.range 16).filter fun p => bit (d.get F.EVT_ROUTE_SUPV_MASK e.id) p else []
  let d := pods.foldl (fun d p => d.toSupervisor e.id p) d
  let d := if d.flag F.EVT_ROUTE_EN_STEWARD e.id ∧ d.isUp 24 then d.emit (.rsp Requester.steward.code [e.id, e.info16, e.info32])
    else d
  let pf := d.get F.EVT_ROUTE_PF e.id
  let d := if d.flag F.EVT_ROUTE_EN_EQ e.id then d.eqEntry pf (d.get F.EVT_ROUTE_EQ e.id) e.id e.info16 e.info32 e.dtb else d
  if d.flag F.EVT_ROUTE_EN_MSIX e.id then d.pendVec pf (d.get F.EVT_ROUTE_VECTOR e.id) else d

/-- An instance-scoped raise is delivered under the instance's own route (R450). -/
def Dev.deliverInst (d : Dev) (e : EvtMsg) : Dev :=
  if !d.raises e.inst then d
  else
    let i := e.inst * 64 + e.id
    let d := if d.flag F.EVT_IROUTE_EN_EQ i then d.eqEntry e.inst (d.get F.EVT_IROUTE_EQ i) e.id e.info16 e.info32 e.dtb else d
    if d.flag F.EVT_IROUTE_EN_MSIX i then d.pendVec e.inst (d.get F.EVT_IROUTE_VECTOR i) else d

/-- EVENT_RAISE (R22, R453): the `k`-th EVT message in flight reaches the EVT block, those of one island in the order they were
sent. -/
def execEventRaise (k : Nat) (s : State) : Res := s.on fun d =>
  d.onIsland 20 fun d =>
    match d.evq[k]? with
    | none => d
    | some e =>
      if (d.evq.take k).any fun x => evtIsland x.id == evtIsland e.id then d
      else
        let d : Dev := { d.reach (d.heldTill (evtIsland e.id) 20 e.sent) with evq := d.evq.eraseIdx k }
        if e.id < 0x40 then d.deliverInst e else if e.id < 0x570 then d.deliverDev e else d

/-- INTERVAL_US of a vector, in ns. -/
def Dev.vecInterval (d : Dev) (inst v : Nat) : Nat :=
  1000 * (if inst < 4 then d.get F.EVT_VEC_MOD_INTERVAL_US (inst * 2048 + v) else d.get F.EVT_VF_VEC_MOD_INTERVAL_US (inst * 64 + v))

/-- A vector may send its message but for its interval (R423, R455). -/
def Dev.vecReady (d : Dev) (inst v : Nat) : Bool :=
  let x := d.vec inst v
  let f := d.fn inst
  x.pend && !x.mask && f.msixEn && !f.fmask && d.mayIssue inst && !d.frozen inst

/-- MSIX_MESSAGE (R455, R456): once the interval has passed, the vector hands its message over on the channel of its instance, behind
every entry that the channel holds; its PBA bit clears and L is set. -/
def execMsixMessage (f : Fin 2052) (v : Fin 2048) (s : State) : Res := s.on fun d =>
  d.onIsland 20 fun d =>
    let n := f.val
    let x := d.vec n v.val
    if !d.vecReady n v.val then d
    else
      let d := match x.last with | some t => d.reach (t + d.vecInterval n v.val) | none => d
      (d.setVec n v.val { x with pend := false, last := some d.mono }).hostWrite n 0xB x.addr (toLe 4 x.data)

/-- ALERT_N is asserted (R451). -/
def Dev.alertN (d : Dev) : Bool :=
  (List.range 1536).any fun id => d.flag F.EVT_ROUTE_EN_ALERT id && bit (d.get F.EVT_RAISED_BITS (id / 32)) (id % 32)

/-- A route asks for FAULT_N (R451). -/
def Dev.routeFaultN (d : Dev) : Bool :=
  (List.range 1536).any fun id => d.flag F.EVT_ROUTE_EN_FAULT id && bit (d.get F.EVT_RAISED_BITS (id / 32)) (id % 32)

end Sys2Proof.Machine
end

