-- ==== Sys2Proof/Machine/Ports.lean ====
section
/-!
DEFINITION. Network ports as commands (09, 11): scheduling and sending, prefetch, flow control, group modes, port states and
degraded width.
-/
namespace Sys2Proof.Machine

/-! ### Scheduling and sending -/

/-- SCHEDULER_PICK (R274, R282): one pick of a root. -/
def execSchedulerPick (r : Fin 37) (s : State) : Res := s.on fun d => d.pick r.val

/-- The tags of the two-step captures of an edit list. -/
def captureTags (l : List EditCmd) : List Nat := (l.filter (·.cmd == eTS_CAPTURE)).map (·.w1)

/-- A copy has left whole (R36, R225, R229, R230, R235, R318): padding, stamps and FCS, its counters, the two-step capture, and
the context that it leaves. -/
def Dev.copySent (d : Dev) (p st c ts : Nat) : Dev :=
  match d.item st, d.copy st c with
  | some x, some k =>
    let t := ts - d.get F.NET_TS_CORR_TX_PS p * 256 / 1000
    let jobs := (buildCopy x x.data k.edits).2.1
    let b := jobs.foldl (fun b j => j.stamp t b) k.bytes
    let b := b ++ List.replicate (60 - b.length) 0
    let d := d.emit (.frame p (b ++ toLe 4 (fcsOf b)))
    let i := p * 8 + d.get F.TM_Q_CFG_CLASS k.q
    let d := (d.count .NET_TX_FRAMES i).count .NET_TX_BYTES i b.length
    let d := d.countQ .TM_Q_TX_BYTES k.q k.len
    let d := if k.sa.isSome then (d.count .CRYPTO_TX_PROT_PKTS p).count .CRYPTO_TX_PROT_OCTETS p b.length else d
    let d := (captureTags k.edits).foldl (fun d tag => d.captureTs p t tag) d
    let d := match d.net.conn.get p with
      | some (q, y) => { d with hst := { d.hst with conns := d.hst.conns.set q y } }
      | none => d
    let d : Dev := { d with net := { d.net with sending := d.net.sending.set p none, conn := d.net.conn.set p none } }
    let d := if c = 0 then d.outcome st 0 0 else d
    d.endCopy st c
  | _, _ => d

/-- A copy whose data has an uncorrectable error ends with an inverted FCS (R226): ERROR_DISCARD with the subcode. -/
def Dev.copyBad (d : Dev) (p st c sub : Nat) : Dev :=
  let d := (d.emit (.frameCut p)).count .NET_TX_ABORT p
  let d : Dev := { d with net := { d.net with sending := d.net.sending.set p none, conn := d.net.conn.set p none } }
  d.loseCopy st c 2 sub

/-- COPY_SENT (R36, R226): the last byte of the copy in transmission on a port; `ts` is its transmit instant in 1/256 ns, and `ue` says
that its data had an uncorrectable error, 1 in HBM, 2 in on-chip SRAM. -/
def execCopySent (p : Fin 32) (ts : Nat) (ue : Fin 3) (s : State) : Res := s.on fun d =>
  d.onIsland (16 + p.val / 8) fun d =>
    match d.net.sending.get p.val with
    | some (st, c) => if ue.val = 0 then d.copySent p.val st c ts else d.copyBad p.val st c ue.val
    | none => d

/-- PREFETCH (R263): the first copy of a queue's HBM part moves on-chip, into cells of the unspill reserve. -/
def execPrefetch (q : BitVec 17) (s : State) : Res := s.on fun d =>
  d.onIsland 21 fun d =>
    let x := d.q5 q.toNat
    match x.deep with
    | [] => d
    | (st, c) :: rest =>
      match d.copy st c with
      | none => d
      | some k =>
        let n := cellsOf k.len
        if 32768 ≤ x.onBytes ∨ 16384 < d.buf.unspill + n then d
        else
          let d := d.setQ5 q.toNat { x with onchip := x.onchip ++ [(st, c)], deep := rest, onBytes := x.onBytes + k.len,
                                            deepBytes := x.deepBytes - k.len }
          let d : Dev := { d with buf := { d.buf with unspill := d.buf.unspill + n } }
          (d.setCopy st c fun k => { k with st := .onchip, un := n }).count .BUF_UNSPILL_BYTES 0 k.len

/-- The ENABLE field of a node. -/
def enableFld (lv : Nat) : Fld := match lv with
  | 2 => F.TM_NODE2_ENABLE | 3 => F.TM_NODE3_ENABLE | 4 => F.TM_NODE4_ENABLE | _ => F.TM_Q_CFG_ENABLE

/-- A node's ENABLE goes from 0 to 1 (R276, R279). -/
def Dev.enableNode (d : Dev) (lv n : Nat) : Dev :=
  let d := (d.put (enableFld lv) n 1).startNode lv n
  if lv = 5 then d.setQ5 n { d.q5 n with avg := 0 } else d

/-- SHAPER_ENABLE (R276): level 2 to 5, node `n`. -/
def execShaperEnable (lv : Fin 4) (n : BitVec 17) (s : State) : Res := s.on fun d =>
  d.onIsland 21 fun d =>
    let l := lv.val + 2
    let cap := match l with | 2 => 512 | 3 => 4096 | 4 => 16384 | _ => 131072
    if n.toNat < cap ∧ ¬ d.enabledOf l n.toNat then d.enableNode l n.toNat else d

/-! ### Flow control (R222 to R224) -/

/-- PAUSE_FRAME_RECEIVED (R222): opcode, class-enable vector and quanta of a MAC Control frame. -/
def execPauseFrameReceived (p : Fin 32) (op : BitVec 16) (vec : BitVec 8) (qs : List (BitVec 16)) (s : State) : Res :=
  s.on fun d => d.onIsland (16 + p.val / 8) fun d =>
    if d.portUp p.val then d.pauseReceived p.val op.toNat vec.toNat (qs.map (·.toNat)) else d

/-- PAUSE_EXPIRY (R222): class 8 is the whole port. -/
def execPauseExpiry (p : Fin 32) (c : Fin 9) (s : State) : Res := s.on fun d =>
  d.onIsland (16 + p.val / 8) fun d =>
    match d.net.pause.get (pauseKey p.val c.val) with
    | some t => (d.reach t).unpause p.val c.val
    | none => d

/-- The port sends flow control (R223). -/
def Dev.sendsFc (d : Dev) (p : Nat) : Bool := d.portUp p && !d.halted && d.flag F.NET_PORT_CFG_FC_TX_EN p

/-- PAUSE_FRAME_SEND (R223): the classes whose XOFF has risen or ended since the partner was last told. -/
def execPauseFrameSend (p : Fin 32) (s : State) : Res := s.on fun d =>
  d.onIsland (16 + p.val / 8) fun d =>
    if d.sendsFc p.val then
      let x := d.net.ports.get p.val
      let cur := d.portXoff p.val
      let rise := Nat.land cur (0x1FF - x.told)
      let fall := Nat.land x.told (0x1FF - cur)
      let d := if rise = 0 then d else d.sendPause p.val rise (d.get F.NET_PORT_FC_PAUSE_QUANTA p.val)
      let d := if fall = 0 then d else d.sendPause p.val fall 0
      if rise = 0 ∧ fall = 0 then d
      else { d with net := { d.net with ports := d.net.ports.set p.val { x with told := cur, toldAt := d.mono } } }
    else d

/-- PAUSE_REPEAT (R223): every PAUSE_QUANTA × 256 bit times while XOFF holds. -/
def execPauseRepeat (p : Fin 32) (s : State) : Res := s.on fun d =>
  d.onIsland (16 + p.val / 8) fun d =>
    let x := d.net.ports.get p.val
    let cur := Nat.land x.told (d.portXoff p.val)
    if d.sendsFc p.val && cur != 0 then
      let q := d.get F.NET_PORT_FC_PAUSE_QUANTA p.val
      let d := (d.reach (x.toldAt + d.bitTimes p.val (q * 256))).sendPause p.val cur q
      { d with net := { d.net with ports := d.net.ports.set p.val { x with toldAt := d.mono } } }
    else d

/-- PFC_STORM (R224): a class (8: the port) paused without interruption for STORM_MS. -/
def execPfcStorm (p : Fin 32) (c : Fin 9) (s : State) : Res := s.on fun d =>
  d.onIsland (16 + p.val / 8) fun d =>
    let k := pauseKey p.val c.val
    let ms := d.get F.NET_PORT_FC_STORM_MS p.val * 1000000
    match d.net.pause.get k, d.net.since.get k with
    | some e, some t =>
      if ms = 0 ∨ e < t + ms then d
      else
        let d := (d.reach (t + ms)).unpause p.val c.val
        let d : Dev := { d with net := { d.net with ignore := d.net.ignore.set k (some (d.mono + ms)) } }
        (d.count .NET_PFC_STORM p.val).raiseLocal (16 + p.val / 8) 1 p.val c.val
    | _, _ => d

/-- PFC_STORM_END (R224): STORM_MS after a storm, received pause is honoured again. -/
def execPfcStormEnd (p : Fin 32) (c : Fin 9) (s : State) : Res := s.on fun d =>
  d.onIsland (16 + p.val / 8) fun d =>
    let k := pauseKey p.val c.val
    match d.net.ignore.get k with
    | some t => let d := d.reach t; { d with net := { d.net with ignore := d.net.ignore.set k none } }
    | none => d

/-! ### Modes and states (R212, R213, R232 to R234) -/

/-- The write of GROUP_CFG: a change of MODE takes every port of the group out of service and begins it anew. -/
def Dev.groupCfgWrite (d : Dev) (n v be : Nat) : Dev :=
  let old := d.get F.NET_GROUP_CFG_MODE n
  let d := d.writeFields .NET_GROUP_CFG n v be []
  if d.get F.NET_GROUP_CFG_MODE n = old then d
  else
    let d := (List.range 8).foldl (fun d i => d.portBegin (n * 8 + i)) d
    (List.range 8).foldl (fun d k =>
      d.laneState n k (if d.get F.NET_PORT_STATUS_STATE (d.portOfLane n k) = 3 then 1 else 0)) d

/-- GROUP_MODE_WRITE (R212). -/
def execGroupModeWrite (n : Fin 4) (v : BitVec 32) (s : State) : Res := s.on fun d =>
  d.onIsland (16 + n.val) fun d => d.byWrite .NET_GROUP_CFG n.val fun d => d.groupCfgWrite n.val v.toNat 15

/-- The lanes of a mask are READY. -/
def Dev.lanesReady (d : Dev) (n mask : Nat) : Bool := (List.range 8).all fun k => !bit mask k || d.laneStage n k == 4

/-- PORT_UP (R213, R232, R233): the PCS of a TRAINING or DOWN port is aligned and no fault is present. -/
def execPortUp (p : Fin 32) (s : State) : Res := s.on fun d =>
  d.onIsland (16 + p.val / 8) fun d =>
    let st := d.get F.NET_PORT_STATUS_STATE p.val
    let x := d.net.ports.get p.val
    let w := d.portLanes p.val
    let full := st = 2 || x.full
    let mask := if full then laneMask (p.val % 8) w else x.lanes
    if (st = 2 ∨ st = 3) ∧ w ≠ 0 ∧ d.lanesReady (p.val / 8) mask then
      let d := (d.put F.NET_PORT_STATUS_LOCAL_FAULT p.val 0).put F.NET_PORT_STATUS_REMOTE_FAULT p.val 0
      let d : Dev := { d with net := { d.net with ports := d.net.ports.set p.val { x with train := none, lanes := mask } } }
      if full then d.portState p.val 4 w else d.portState p.val 5 (w / 2)
    else d

/-- A lane of an UP or DEGRADED port fails (R232): degraded training on the other half, or DOWN. -/
def Dev.portLosesLane (d : Dev) (n k : Nat) : Dev :=
  let p := d.portOfLane n k
  let w := d.portLanes p
  let st := d.get F.NET_PORT_STATUS_STATE p
  let x := d.net.ports.get p
  if (st = 4 ∨ st = 5) ∧ bit x.lanes k then
    if st = 4 ∧ d.flag F.NET_PORT_CFG_DEGRADE_EN p ∧ 1 < w ∧ d.get F.NET_GROUP_CFG_MODE n ≠ 5 then
      let h := w / 2
      let a := p % 8
      d.startTraining p (if k < a + h then a + h else a) h false true
    else (d.put F.NET_PORT_STATUS_LOCAL_FAULT p 1).portState p 2 0
  else d

/-- LANE_FAULT_DEGRADE (R232). -/
def execLaneFaultDegrade (n : Fin 4) (k : Fin 8) (s : State) : Res := s.on fun d =>
  d.onIsland (16 + n.val) fun d => d.portLosesLane n.val k.val

/-- REMOTE_FAULT (R213): the Reconciliation Sublayer of an UP or DEGRADED port begins to see remote or local fault. -/
def execRemoteFault (p : Fin 32) (far : Bool) (s : State) : Res := s.on fun d =>
  d.onIsland (16 + p.val / 8) fun d =>
    let st := d.get F.NET_PORT_STATUS_STATE p.val
    if st = 4 ∨ st = 5 then (d.put (if far then F.NET_PORT_STATUS_REMOTE_FAULT else F.NET_PORT_STATUS_LOCAL_FAULT) p.val 1).portState p.val 2 0
    else d

/-- DEGRADE_TIMEOUT (R232, R233): degraded training that fails leaves the port DOWN; a failed RESTORE trains degraded again. -/
def execDegradeTimeout (p : Fin 32) (s : State) : Res := s.on fun d =>
  d.onIsland (16 + p.val / 8) fun d =>
    let x := d.net.ports.get p.val
    match x.train with
    | none => d
    | some t =>
      if d.get F.NET_PORT_STATUS_STATE p.val ≠ 3 then d
      else
        let d := d.reach (t + d.get F.NET_GROUP_CFG_DEGRADE_TMO (p.val / 8) * 1000000)
        if x.full then
          let a := ((List.range 8).find? fun k => bit x.half k).getD (p.val % 8)
          d.startTraining p.val a (d.portLanes p.val / 2) false true
        else
          let d : Dev := { d with net := { d.net with ports := d.net.ports.set p.val { x with train := none } } }
          d.portState p.val 2 0

/-- RESTORE is written 1 (R233, Table 09-4): a DEGRADED port trains all its lanes, and the bit clears. -/
def Dev.restorePort (d : Dev) (p : Nat) : Dev :=
  let d := d.put F.NET_PORT_CFG_RESTORE p 1
  if d.get F.NET_PORT_STATUS_STATE p = 5 then
    (d.startTraining p (p % 8) (d.portLanes p) true true).put F.NET_PORT_CFG_RESTORE p 0
  else d

/-- RESTORE. -/
def execRestore (p : Fin 32) (s : State) : Res := s.on fun d =>
  d.onIsland (16 + p.val / 8) fun d => d.restorePort p.val

/-- MODULE_INSERTION (R234): the steward has read the module's Applications; `found` says that one matches the port's mode. -/
def execModuleInsertion (p : Fin 32) (found : Bool) (s : State) : Res := s.on fun d =>
  d.onIsland (16 + p.val / 8) fun d =>
    if d.portLanes p.val = 0 ∨ ¬ d.flag F.NET_PORT_CFG_ENABLE p.val then d
    else if found then d.startTraining p.val (p.val % 8) (d.portLanes p.val) true false
    else (d.portState p.val 2 0).raiseLocal (16 + p.val / 8) 4 p.val

end Sys2Proof.Machine
end

