-- ==== Sys2Proof/Machine/Lanes.lean ====
section
/-!
DEFINITION. Serial lanes (10): bring-up stages (R240 to R243), history (R242), configuration (R237), tests and scans (R255 to
R258); and what a lane's change means for its port or link.
-/
namespace Sys2Proof.Machine

/-! ### Links beside their lanes -/

/-- A link takes a state (Table 10-9). -/
def Dev.linkState (d : Dev) (l v : Nat) : Dev :=
  let old := d.get F.NET_EL_STATUS_STATE (l + 1)
  let d := d.setLink l { d.link l with since := d.mono }
  if old = v then d
  else
    let d := (d.put F.NET_EL_STATUS_STATE (l + 1) v).put F.NET_EL_STATUS_CHANGE (l + 1) 1
    d.raiseLocal (17 + l) 6 l (d.rd .NET_EL_STATUS (l + 1))

/-- The link sends TRAIN rows of a TSTATE (Table 10-7). -/
def Dev.sendTrain (d : Dev) (l tstate : Nat) : Dev := d.emit (.erruic l 1 [tstate])

/-- A link below ACTIVE follows its lanes (R253): SIGNAL_WAIT and ADAPT until all four have left each. -/
def Dev.linkFollow (d : Dev) (l : Nat) : Dev :=
  let st := d.get F.NET_EL_STATUS_STATE (l + 1)
  let s := (List.range 4).map fun j => d.laneStage (l + 1) (8 + j)
  if st = 0 ∨ st = 8 then d
  else if s.any (· == 5) then d.linkState l 9
  else if s.any (· < 2) then d.linkState l 1
  else if s.any (· == 2) then d.linkState l 2
  else if s.any (· == 3) then d.linkState l 3
  else if st < 4 ∨ st = 9 then d.linkState l 4
  else d

/-- What R251 hands over: each unacknowledged or waiting message leaves on another path, or waits for this link. -/
def Dev.handOver (d : Dev) (l : Nat) : Dev :=
  let x := d.link l
  let ms := x.unacked ++ x.wait
  let d := d.setLink l { x with unacked := [], wait := [] }
  ms.foldl (fun d m =>
    match d.pathTo m.dst with
    | some (k, r) => d.elSend k { m with rel := r.isSome }
    | none => d.setLink l { d.link l with wait := (d.link l).wait ++ [m] }) d

/-- An ACTIVE link goes down (R251, R254): it counts EL_DOWN and takes state `v`. -/
def Dev.linkDown (d : Dev) (l v : Nat) : Dev :=
  if d.linkActive l then
    ((((d.count .NET_EL_DOWN (l + 1)).fault 2 6 (17 + l) l).linkState l v).handOver l)
  else d.linkState l v

/-- The port or link of a lane leaves service with it. -/
def Dev.laneLeaves (d : Dev) (n k : Nat) : Dev :=
  if k < 8 then d.portLosesLane n k
  else if d.linkActive (n - 1) then (d.linkDown (n - 1) 1).linkFollow (n - 1) else d.linkFollow (n - 1)

/-! ### History (R242) -/

/-- The signalling of a lane: 0 106.25 Gb/s PAM4, 1 53.125, 2 25.78125, 3 10.3125 Gb/s NRZ (Tables 09-1, 09-2, R236). -/
def Dev.signalling (d : Dev) (n k : Nat) : Nat :=
  if 8 ≤ k then 1
  else match d.get F.NET_GROUP_CFG_MODE n with
    | 5 => 2
    | 6 => d.get F.NET_PORT_CFG_LANE_MODE (n * 8 + k)
    | _ => 0

/-- MAP_ID of the configuration in force. -/
def Dev.mapId (d : Dev) : Nat :=
  crc32c (((List.range 4).map fun n => d.get F.NET_GROUP_CFG_MODE n)
    ++ ((List.range 32).map fun p => d.get F.NET_PORT_CFG_LANE_MODE p)
    ++ ((List.range 3).map fun l => d.get F.NET_EL_CFG_ENABLE (l + 1))
    ++ [d.get F.GRP_STATUS_ID])

/-- The lane's history matches (R242). -/
def Dev.histMatches (d : Dev) (n k : Nat) : Bool :=
  match d.net.hist.get (laneIx n k) with
  | none => false
  | some h => d.flag F.NET_LANE_CFG_HIST_EN (laneIx n k) && h.mapId == d.mapId
      && h.instar == d.get F.STM_FW_STATUS_RUN_INSTAR && h.rate == d.signalling n k

/-- A lane enters ADAPT, from its history where `hist` allows it and it matches. A forced polarity applies (R243). -/
def Dev.startAdapt (d : Dev) (n k : Nat) (hist : Bool) : Dev :=
  let i := laneIx n k
  let d := (d.laneState n k 2).put F.NET_LANE_STATUS_CDR_LOCK i 0
  let d := d.put F.NET_LANE_STATUS_HIST_USED i (b2n (hist && d.histMatches n k))
  match d.get F.NET_LANE_CFG_RX_POL i with
  | 1 => d.put F.NET_LANE_STATUS_RX_INV i 0
  | 2 => d.put F.NET_LANE_STATUS_RX_INV i 1
  | _ => d

/-- The bound of ADAPT in ns (Table 10-5). -/
def Dev.adaptBound (d : Dev) (n k : Nat) (hist : Bool) : Nat :=
  match d.signalling n k with
  | 0 => if hist then 25000000 else 250000000
  | 1 => if hist then 10000000 else 80000000
  | _ => if hist then 5000000 else 40000000

/-- The SyncE outputs that follow a lane are squelched (R231). -/
def Dev.squelchLane (d : Dev) (n k : Nat) : Dev :=
  (List.range 2).foldl (fun d o =>
    if k < 8 ∧ d.flag F.NET_SYNCE_CFG_ENABLE o ∧ d.get F.NET_SYNCE_CFG_LANE o = n * 8 + k ∧ ¬ d.net.squelch.contains o then
      let d : Dev := { d with net := { d.net with squelch := d.net.squelch ++ [o] } }
      (d.emit (.pin o 0)).raiseLocal 16 3 o (n * 8 + k)
    else d) d

/-- The SyncE outputs that follow a lane run again. -/
def Dev.unsquelch (d : Dev) (n k : Nat) : Dev :=
  { d with net := { d.net with squelch := d.net.squelch.filter fun o => d.get F.NET_SYNCE_CFG_LANE o ≠ n * 8 + k ∨ 8 ≤ k } }

/-! ### Bring-up -/

/-- `f` on an existing lane of an island that is up. -/
def Dev.onLane (d : Dev) (n k : Nat) (f : Dev → Dev) : Dev := if hasLane n k then d.onIsland (16 + n) f else d

/-- SIGNAL_DETECT (R240). -/
def execSignalDetect (n : Fin 4) (k : Fin 12) (s : State) : Res := s.on fun d =>
  d.onLane n.val k.val fun d =>
    if d.laneStage n.val k.val = 1 then
      let d := (d.put F.NET_LANE_STATUS_SIGNAL (laneIx n.val k.val) 1).startAdapt n.val k.val true
      if 8 ≤ k.val then d.linkFollow (n.val - 1) else d
    else d

/-- LOSS_OF_SIGNAL (R240, R231, R254). -/
def execLossOfSignal (n : Fin 4) (k : Fin 12) (s : State) : Res := s.on fun d =>
  d.onLane n.val k.val fun d =>
    let i := laneIx n.val k.val
    if 2 ≤ d.laneStage n.val k.val then
      let d := if d.flag F.NET_LANE_STATUS_CDR_LOCK i then d.count .NET_CDR_LOSS i else d
      let d := (d.put F.NET_LANE_STATUS_SIGNAL i 0).put F.NET_LANE_STATUS_CDR_LOCK i 0
      let d := ((d.laneState n.val k.val 1).count .NET_LOS_CNT i).fault 2 3 (16 + n.val) k.val
      (d.squelchLane n.val k.val).laneLeaves n.val k.val
    else d

/-- ADAPT_COMPLETE (R241): CDR lock, and LOCK. -/
def execAdaptComplete (n : Fin 4) (k : Fin 12) (s : State) : Res := s.on fun d =>
  d.onLane n.val k.val fun d =>
    if d.laneStage n.val k.val = 2 then
      let d := (d.put F.NET_LANE_STATUS_CDR_LOCK (laneIx n.val k.val) 1).laneState n.val k.val 3
      let d := d.unsquelch n.val k.val
      if 8 ≤ k.val then d.linkFollow (n.val - 1) else d
    else d

/-- HIST_REJECT (R241): adaptation from history has not converged in its bound. -/
def execHistReject (n : Fin 4) (k : Fin 12) (s : State) : Res := s.on fun d =>
  d.onLane n.val k.val fun d =>
    let i := laneIx n.val k.val
    if d.laneStage n.val k.val = 2 ∧ d.flag F.NET_LANE_STATUS_HIST_USED i then
      let d := d.reach ((d.lane n.val k.val).since + d.adaptBound n.val k.val true)
      (d.count .NET_HIST_REJECT i).startAdapt n.val k.val false
    else d

/-- POLARITY_ALTERNATE (R243): an unlocked network lane under RX_POL AUTO. -/
def execPolarityAlternate (n : Fin 4) (k : Fin 12) (s : State) : Res := s.on fun d =>
  d.onLane n.val k.val fun d =>
    let i := laneIx n.val k.val
    if k.val < 8 ∧ d.laneStage n.val k.val = 3 ∧ d.get F.NET_LANE_CFG_RX_POL i = 0 then
      d.put F.NET_LANE_STATUS_RX_INV i (1 - d.get F.NET_LANE_STATUS_RX_INV i)
    else d

/-- PCS_LOCK (R243). -/
def execPcsLock (n : Fin 4) (k : Fin 12) (s : State) : Res := s.on fun d =>
  d.onLane n.val k.val fun d =>
    if k.val < 8 ∧ d.laneStage n.val k.val = 3 then d.laneState n.val k.val 4 else d

/-- LOCK_FAIL (R243): 50 ms in LOCK. -/
def execLockFail (n : Fin 4) (k : Fin 12) (s : State) : Res := s.on fun d =>
  d.onLane n.val k.val fun d =>
    if d.laneStage n.val k.val = 3 then
      let d := d.reach ((d.lane n.val k.val).since + 50000000)
      let d := (d.count .NET_LOCK_FAIL (laneIx n.val k.val)).startAdapt n.val k.val false
      if 8 ≤ k.val then d.linkFollow (n.val - 1) else d
    else d

/-- HISTORY_SAVE (R242): READY for 1 s, and every 60 s after; the coefficients are the microcode's. -/
def execHistorySave (n : Fin 4) (k : Fin 12) (coeff : List Nat) (s : State) : Res := s.on fun d =>
  d.onLane n.val k.val fun d =>
    if d.laneStage n.val k.val = 4 then
      let x := d.lane n.val k.val
      let d := d.reach (match x.saved with | some t => t + 60000000000 | none => x.since + 1000000000)
      let h : Hist := { mapId := d.mapId, instar := d.get F.STM_FW_STATUS_RUN_INSTAR, rate := d.signalling n.val k.val,
                        dtb := d.now, coeff := slice coeff 0 48 }
      let d : Dev := { d with net := { d.net with hist := d.net.hist.set (laneIx n.val k.val) (some h) } }
      d.setLane n.val k.val { x with saved := some d.mono }
    else d

/-! ### Configuration and tests -/

/-- A change of LOOPBACK takes the port or link out of service (R258): FAR_PMA leaves a port DOWN, the other values train
it. -/
def Dev.loopbackChanged (d : Dev) (n k : Nat) : Dev :=
  if 8 ≤ k then
    let d := if d.linkActive (n - 1) then d.linkDown (n - 1) 1 else d
    d.linkFollow (n - 1)
  else
    let p := d.portOfLane n k
    if d.get F.NET_PORT_STATUS_STATE p < 2 then d
    else if d.get F.NET_LANE_CFG_LOOPBACK (laneIx n k) = 2 then d.portState p 2 0
    else d.portBegin p

/-- The write of LANE_CFG (R237): an invalid LOOPBACK leaves the field; a change on a READY lane returns it to ADAPT. -/
def Dev.laneCfgWrite (d : Dev) (n k v be : Nat) : Dev :=
  let i := laneIx n k
  let old := d.rd .NET_LANE_CFG i
  let lb := bits v 3 3
  let first := if k < 8 then d.portLanes (n * 8 + k) != 0 else k == 8
  let bad := lb == 3 && !first && bit be 0
  let v := if bad then setBits v 3 3 (bits old 3 3) else v
  let d := d.writeFields .NET_LANE_CFG i v be []
  let d := if bad then d.ignored .NET_LANE_CFG i cBAD_ENUM else d
  let now := d.rd .NET_LANE_CFG i
  let lbc := bits old 3 3 != bits now 3 3
  let chg := bits old 0 2 != bits now 0 2 || bits old 7 3 != bits now 7 3 || lbc
  let d := if chg && d.laneStage n k == 4 then
      let d := d.startAdapt n k true
      if lbc then d else d.laneLeaves n k
    else d
  if lbc then d.loopbackChanged n k else d

/-- LANE_CFG_WRITE (R237). NET0 ignores the indices 8 to 11. -/
def execLaneCfgWrite (n : Fin 4) (k : Fin 12) (v : BitVec 32) (s : State) : Res := s.on fun d =>
  d.onLane n.val k.val fun d => d.byWrite .NET_LANE_CFG (laneIx n.val k.val) fun d => d.laneCfgWrite n.val k.val v.toNat 15

/-- The write of LANE_PRBS (R255): an enable puts the lane in TEST and its port or link leaves service; with both clear it
returns to ADAPT. -/
def Dev.prbsWrite (d : Dev) (n k v be : Nat) : Dev :=
  let i := laneIx n k
  let d := d.writeFields .NET_LANE_PRBS i v be []
  let on := d.flag F.NET_LANE_PRBS_TX_EN i || d.flag F.NET_LANE_PRBS_RX_EN i
  let st := d.laneStage n k
  if on ∧ st ≠ 5 then
    let d := d.laneState n k 5
    if k < 8 then
      let p := d.portOfLane n k
      if 3 ≤ d.get F.NET_PORT_STATUS_STATE p then d.portState p 2 0 else d
    else
      let d := if d.linkActive (n - 1) then d.linkDown (n - 1) 9 else d
      d.linkFollow (n - 1)
  else if ¬ on ∧ st = 5 then
    let d := (d.put F.NET_LANE_PRBS_LOCKED i 0).startAdapt n k true
    if 8 ≤ k then d.linkFollow (n - 1) else d
  else d

/-- PRBS_ENABLE (R255). -/
def execPrbsEnable (n : Fin 4) (k : Fin 12) (v : BitVec 32) (s : State) : Res := s.on fun d =>
  d.onLane n.val k.val fun d => d.byWrite .NET_LANE_PRBS (laneIx n.val k.val) fun d => d.prbsWrite n.val k.val v.toNat 15

/-- PRBS_DISABLE (R255): both enables are cleared. -/
def execPrbsDisable (n : Fin 4) (k : Fin 12) (s : State) : Res := s.on fun d =>
  d.onLane n.val k.val fun d => d.byWrite .NET_LANE_PRBS (laneIx n.val k.val) fun d =>
    d.prbsWrite n.val k.val (d.get F.NET_LANE_PRBS_PAT (laneIx n.val k.val)) 15

/-- MARGIN_REFRESH (R256): the margins as the background adaptation estimates them; 0 on a lane that is not READY. -/
def execMarginRefresh (n : Fin 4) (k : Fin 12) (hl hr vt vb : BitVec 8) (s : State) : Res := s.on fun d =>
  d.onLane n.val k.val fun d =>
    let v := hl.toNat + hr.toNat * 2 ^ 8 + vt.toNat * 2 ^ 16 + vb.toNat * 2 ^ 24
    d.wr .NET_LANE_MARGIN (laneIx n.val k.val) (if d.laneStage n.val k.val = 4 then v else 0)

/-- The rate of a lane in bits per 1,000 ns of the scan's dwell (Table 09-2, R236). -/
def Dev.laneBits (d : Dev) (n k : Nat) : Nat :=
  match d.signalling n k with | 0 => 106250 | 1 => 53125 | 2 => 25781 | _ => 10312

/-- EYE_SCAN (R257): 3 BAD_FIELD, 1 NOT_READY, or the scan begins. -/
def execEyeScan (n : Fin 4) (lane : BitVec 4) (eye : BitVec 2) (h : BitVec 7) (v : BitVec 8) (dwell : BitVec 5) (s : State) :
    Res := s.on fun d =>
  d.submit (.eye n) fun d =>
    let k := lane.toNat
    let nrz := d.signalling n.val k != 0
    let hs := signed 7 h.toNat
    let bad := decide (12 ≤ k) || !hasLane n.val k || eye.toNat == 3 || (nrz && eye.toNat != 1) || decide (hs < -32)
      || decide (31 < hs) || v.toNat == 128 || decide (dwell.toNat < 20)
    if bad then d.winDone (.eye n) [(0x20, 3)]
    else if d.laneStage n.val k ≠ 4 then d.winDone (.eye n) [(0x20, 1)]
    else
      let e := d.mono + ceilDiv (2 ^ dwell.toNat * 1000) (d.laneBits n.val k) + 10000
      let d := d.setWin (.eye n) { (d.win (.eye n)).take with cmd := dwell.toNat }
      { d with net := { d.net with scan := d.net.scan.set n.val (some (k, e, false)) } }

/-- EYE_SCAN_COMPLETE (R257): the errors counted; an aborted scan reports what it had compared. -/
def execEyeScanComplete (n : Fin 4) (err cmp : BitVec 64) (s : State) : Res := s.on fun d =>
  d.onIsland (16 + n.val) fun d =>
    match d.net.scan.get n.val with
    | none => d
    | some (_, e, left) =>
      let d : Dev := { d with net := { d.net with scan := d.net.scan.set n.val none } }
      let full := 2 ^ (d.win (.eye n)).cmd
      if left then d.winDone (.eye n) [(0x20, 2), (0x28, err.toNat), (0x30, cmp.toNat)]
      else (d.reach e).winDone (.eye n) [(0x20, 0), (0x28, err.toNat), (0x30, full)]

end Sys2Proof.Machine
end

