-- ==== Sys2Proof/Machine/Links.lean ====
section
/-!
DEFINITION. Erruic links as commands (10): bring-up and qualification (R252, R253), messages, credits, acknowledgements and
replay (R246 to R250), and the end of a link (R254).
-/
namespace Sys2Proof.Machine

/-- `f` where the island of link `l` is up. -/
def Dev.onLink (d : Dev) (l : Nat) (f : Dev → Dev) : Dev := d.onIsland (17 + l) f

/-- The state of a link. -/
def Dev.elState (d : Dev) (l : Nat) : Nat := d.get F.NET_EL_STATUS_STATE (l + 1)

/-- The four lanes of a link take a stage. -/
def Dev.linkLanes (d : Dev) (l v : Nat) : Dev := (List.range 4).foldl (fun d j => d.laneState (l + 1) (8 + j) v) d

/-- The write of EL_CFG (R252): ENABLE set brings the link up, ENABLE cleared takes it out of service. -/
def Dev.elCfgWrite (d : Dev) (l v be : Nat) : Dev :=
  let old := d.flag F.NET_EL_CFG_ENABLE (l + 1)
  let d := d.writeFields .NET_EL_CFG (l + 1) v be []
  let new := d.flag F.NET_EL_CFG_ENABLE (l + 1)
  if !old && new then ((d.linkLanes l 1).linkState l 1).sendTrain l 0
  else if old && !new then
    let d := if d.linkActive l then d.linkDown l 0 else d.linkState l 0
    d.linkLanes l 0
  else d

/-- EL_ENABLE (R252). -/
def execElEnable (l : Fin 3) (v : BitVec 32) (s : State) : Res := s.on fun d =>
  d.onLink l.val fun d => d.byWrite .NET_EL_CFG (l.val + 1) fun d => d.elCfgWrite l.val v.toNat 15

/-- BLOCK_LOCK (R253 stage LOCK): a lane has block lock; `inv` says that it found its data inverted, which AUTO corrects. -/
def execBlockLock (l : Fin 3) (j : Fin 4) (inv : Bool) (s : State) : Res := s.on fun d =>
  d.onLink l.val fun d =>
    let n := l.val + 1
    let k := 8 + j.val
    if d.laneStage n k = 3 then
      let d := if d.get F.NET_LANE_CFG_RX_POL (laneIx n k) = 0 then d.put F.NET_LANE_STATUS_RX_INV (laneIx n k) (b2n inv) else d
      (d.laneState n k 4).linkFollow l.val
    else d

/-- The lane that receives logical lane `j`. -/
def laneOfLogical (ls : List Nat) (j : Nat) : Nat := (ls.findIdx? (· == j)).getD 0

/-- LINK_MAP (R253 stage MAP): the LANE fields received on the four lanes, MEMBER and LINK. Two equal lane numbers, or this
device's own member ID outside NEAR_PCS, leave the link in MAP. -/
def execLinkMap (l : Fin 3) (l0 l1 l2 l3 member link : Fin 4) (s : State) : Res := s.on fun d =>
  d.onLink l.val fun d =>
    let n := l.val + 1
    if d.elState l.val ≠ 4 then d
    else
      let ls := [l0.val, l1.val, l2.val, l3.val]
      let d := (List.range 4).foldl (fun d j => d.put F.NET_LANE_STATUS_LOGICAL (laneIx n (8 + j)) (ls.getD j 0)) d
      let self := member.val + 1 == d.get F.GRP_STATUS_ID
      let d := d.put F.NET_EL_STATUS_SELF_PEER n (b2n self)
      let perm := (List.range 4).all fun j => ls.contains j
      if perm && (!self || d.get F.NET_LANE_CFG_LOOPBACK (laneIx n 8) == 3) then
        let map := (List.range 4).foldl (fun a j => a + laneOfLogical ls j * 2 ^ (2 * j)) 0
        let d := (d.put F.NET_EL_STATUS_LANE_MAP n map).put F.NET_EL_STATUS_PEER_MEMBER n member.val
        ((d.put F.NET_EL_STATUS_PEER_LINK n link.val).linkState l.val 5).sendTrain l.val 1
      else
        ((d.count .NET_EL_MAP_ERR n).fault 2 8 (16 + n) l.val).setLink l.val { d.link l.val with since := d.mono }

/-- MAP_RETRY (R253): a link stuck in MAP retries from LOCK after 1 ms. -/
def execMapRetry (l : Fin 3) (s : State) : Res := s.on fun d =>
  d.onLink l.val fun d =>
    if d.elState l.val = 4 then
      let d := d.reach ((d.link l.val).since + 1000000)
      (d.linkLanes l.val 3).linkState l.val 3
    else d

/-- LINK_DESKEW (R253 stage DESKEW): the largest skew found, in blocks. -/
def execLinkDeskew (l : Fin 3) (skew : Nat) (s : State) : Res := s.on fun d =>
  d.onLink l.val fun d =>
    let n := l.val + 1
    if d.elState l.val ≠ 5 then d
    else if skew ≤ 63 then
      (((d.put F.NET_EL_STATUS_SKEW_MAX n skew).linkState l.val 6).sendTrain l.val 2).setLink l.val
        { d.link l.val with qual := false, sentPass := false, since := d.mono }
    else
      let d := ((d.count .NET_EL_MAP_ERR n).fault 2 8 (16 + n) l.val).put F.NET_EL_STATUS_SKEW_MAX n 63
      (d.linkLanes l.val 3).linkState l.val 3

/-- QUAL_COUNTDOWN (R252, R253 stage QUAL): READY_QUAL has been sent and received for 1,024 rows: the countdown and the PRBS31
window where this bring-up is qualified, QUAL_PASS at once where it is not. -/
def execQualCountdown (l : Fin 3) (s : State) : Res := s.on fun d =>
  d.onLink l.val fun d =>
    let n := l.val + 1
    let x := d.link l.val
    if d.elState l.val ≠ 6 ∨ x.qual ∨ x.sentPass then d
    else if d.get F.NET_EL_CFG_QUAL_LOG2 n ≠ 0 ∧ (¬ x.trained ∨ d.flag F.NET_EL_CFG_QUAL_RETRAIN n) then
      (d.setLink l.val { x with qual := true, since := d.mono }).sendTrain l.val 3
    else (d.setLink l.val { x with sentPass := true }).sendTrain l.val 4

/-- A qualification fails (R253): the lanes adapt again from presets; the third failure in a row leaves the link FAILED. -/
def Dev.qualFail (d : Dev) (l : Nat) : Dev :=
  let d := d.count .NET_EL_QUAL_FAIL (l + 1)
  let x := d.link l
  let d := d.setLink l { x with qual := false, sentPass := false, fails := x.fails + 1 }
  if 3 ≤ x.fails + 1 then (d.linkState l 8).fault 2 7 (17 + l) l
  else ((List.range 4).foldl (fun d j => d.startAdapt (l + 1) (8 + j) false) d).linkState l 2

/-- QUAL_WINDOW_END (R253): the errors of each lane over 2^QUAL_LOG2 bits. -/
def execQualWindowEnd (l : Fin 3) (e0 e1 e2 e3 : Nat) (s : State) : Res := s.on fun d =>
  d.onLink l.val fun d =>
    let n := l.val + 1
    let x := d.link l.val
    if d.elState l.val ≠ 6 ∨ ¬ x.qual then d
    else
      let d := d.reach (x.since + ceilDiv (2 ^ d.get F.NET_EL_CFG_QUAL_LOG2 n * 1000) 53125)
      if [e0, e1, e2, e3].all fun e => decide (e ≤ d.get F.NET_EL_CFG_QUAL_ERR_MAX n) then
        (d.setLink l.val { x with qual := false, sentPass := true }).sendTrain l.val 4
      else (d.sendTrain l.val 5).qualFail l.val

/-- The CREDIT block of a link (Table 10-7): the credits released since ACTIVE plus 64, modulo 256. -/
def Link.creditBlock (x : Link) : List Nat :=
  ctlBlock ([0x96] ++ (List.range 5).map fun c => (x.rel.get c + 64) % 256)

/-- The link sends its CREDIT block. -/
def Dev.sendCredit (d : Dev) (l : Nat) : Dev :=
  d.emit (.erruic l 2 (d.link l).creditBlock)

/-- LINK_ACTIVE (R247, R253 stage ACTIVE): QUAL_PASS sent and received. Sequences and credits start anew. -/
def execLinkActive (l : Fin 3) (s : State) : Res := s.on fun d =>
  d.onLink l.val fun d =>
    let x := d.link l.val
    if d.elState l.val = 6 ∧ x.sentPass then
      let y : Link := { trained := true, since := d.mono, wait := x.wait, ackAt := d.mono }
      (((d.setLink l.val y).linkState l.val 7).sendTrain l.val 6).sendCredit l.val
    else d

/-- QUAL_FAIL (R253): the partner reports QUAL_FAIL. -/
def execQualFail (l : Fin 3) (s : State) : Res := s.on fun d =>
  d.onLink l.val fun d => if d.elState l.val = 6 then d.qualFail l.val else d

/-- FAILED_RETRY (R253): 1 s after the link failed. -/
def execFailedRetry (l : Fin 3) (s : State) : Res := s.on fun d =>
  d.onLink l.val fun d =>
    if d.elState l.val = 8 then
      let x := d.link l.val
      let d := (d.reach (x.since + 1000000000)).setLink l.val { x with fails := 0 }
      ((d.linkLanes l.val 1).linkState l.val 1).sendTrain l.val 0
    else d

/-! ### Messages (R246 to R249) -/

/-- ACKN (Table 10-7). -/
def acknBlock (nak : Bool) (seq : Nat) : List Nat := ctlBlock (toLe 4 (0xA5 + b2n nak * 2 ^ 8 + seq % 4096 * 2 ^ 9) ++ [0, 0])

/-- A message is discarded (R248): the first time NAK names the expected LSEQ. -/
def Dev.elNak (d : Dev) (l : Nat) : Dev :=
  let x := d.link l
  if x.naked then d else (d.setLink l { x with naked := true }).emit (.erruic l 2 (acknBlock true x.rxSeq))

/-- An acknowledgement up to `seq` (R248, R249): the messages up to it leave the replay buffer. -/
def Dev.elAck (d : Dev) (l seq : Nat) : Dev :=
  let x := d.link l
  match x.unacked with
  | [] => d
  | m :: _ =>
    let n := (seq + 1 + 4096 - m.lseq) % 4096
    if n = 0 ∨ x.unacked.length < n then d
    else (d.setLink l { x with unacked := x.unacked.drop n, replays := 0, ackAt := d.mono }).elPump l

/-- A replay, or the link's end at the fourth of one LSEQ (R249, R254). -/
def Dev.replayOrDown (d : Dev) (l s : Nat) : Dev :=
  if 4 ≤ (d.link l).replays + 1 then ((d.count .NET_EL_REPLAY (l + 1)).linkDown l 1).linkFollow l else d.elReplay l s

/-- An accepted message passes on: a relayed one into the relay queue of its next link (R479, R481), any other to its
consumer; its credits are released. -/
def Dev.elDeliver (d : Dev) (l : Nat) (m : ElMsg) : Dev :=
  let x := d.link l
  let d := d.setLink l { x with rxSeq := (x.rxSeq + 1) % 4096, naked := false, ackDue := true,
                                rel := x.rel.set m.cls ((x.rel.get m.cls + m.credits) % 256) }
  let d := (d.count .NET_EL_RX_MSG (l + 1)).count .NET_EL_RX_BYTES (l + 1) m.data.length
  -- A member out of group service relays nothing (R494).
  if m.rel && m.dst != d.get F.GRP_STATUS_ID && d.get F.GRP_STATUS_STATE == 3 then
    let k := (d.linkTo m.dst).getD 0
    { d with grp := { d.grp with relay := d.grp.relay ++ [(k, { m with rel := false })] } }
  else d

/-- ERRUIC_MESSAGE_RECEIVE (R246, R248): the bytes of a message from SOM to EOM as they arrived, whether a block had an invalid
sync header, and whether a block that may not stand in a message did. What a delivered message asks for has rows of its
own (chapter 22). -/
def execErruicMessageReceive (l : Fin 3) (b : List Nat) (badSync badBlock : Bool) (s : State) : Res := s.on fun d =>
  d.onLink l.val fun d =>
    if !d.linkActive l.val || d.halted then d
    else
      let n := b.length
      let w0 := leNat (slice b 0 4)
      let w1 := leNat (slice b 4 4)
      let e := leNat (slice b (n - 8) 4)
      let len := bits w0 11 10
      let m : ElMsg := { cls := bits w0 8 3, src := bits w1 12 2 + 1, dst := bits w1 14 2 + 1, rel := bit w1 16,
                         data := slice b 8 len, lseq := bits w1 0 12 }
      let i := l.val + 1
      if badSync || leNat (slice b (n - 4) 4) != crc32c (b.take (n - 4)) then (d.count .NET_EL_CRC_ERR i).elNak l.val
      else if badBlock || decide (n ≠ 16 + ceilDiv len 8 * 8) || decide (512 < len) || decide (5 ≤ m.cls) then
        (d.count .NET_EL_BAD_BTYPE i).elNak l.val
      else
        let d := if bit e 20 then d.elAck l.val (bits e 8 12) else d
        let x := d.link l.val
        let ahead := (m.lseq + 4096 - x.rxSeq) % 4096
        if ahead = 0 then d.elDeliver l.val m
        else if 2048 ≤ ahead then
          (d.count .NET_EL_DUP i).setLink l.val { x with ackDue := true }
        else d.elNak l.val

/-- CREDIT_BLOCK_RECEIVE (R246, R247): the block's eight bytes. -/
def execCreditBlockReceive (l : Fin 3) (b : List Nat) (s : State) : Res := s.on fun d =>
  d.onLink l.val fun d =>
    if !d.linkActive l.val then d
    else if leNat (slice b 6 2) ≠ chk16 (slice b 0 6) then d.count .NET_EL_CHK_ERR (l.val + 1)
    else
      let x := d.link l.val
      let cum := (List.range 5).foldl (fun t c => t.set c (b.getD (c + 1) 0 % 256)) x.cum
      (d.setLink l.val { x with cum := cum }).elPump l.val

/-- ACKN_RECEIVE (R246, R248, R249): an ACK releases, a NAK releases what precedes its SEQ and starts a replay. -/
def execAcknReceive (l : Fin 3) (b : List Nat) (s : State) : Res := s.on fun d =>
  d.onLink l.val fun d =>
    if !d.linkActive l.val then d
    else if leNat (slice b 6 2) ≠ chk16 (slice b 0 6) then d.count .NET_EL_CHK_ERR (l.val + 1)
    else
      let w := leNat (slice b 0 4)
      let seq := bits w 9 12
      if bit w 8 then
        let d := d.elAck l.val ((seq + 4095) % 4096)
        if (d.link l.val).unacked.isEmpty then d else d.replayOrDown l.val seq
      else d.elAck l.val seq

/-- CREDIT_SEND (R247): credits have been released, or 10 us have passed. -/
def execCreditSend (l : Fin 3) (s : State) : Res := s.on fun d =>
  d.onLink l.val fun d => if d.linkActive l.val then d.sendCredit l.val else d

/-- ACKN_SEND (R248): an acknowledgement is pending. -/
def execAcknSend (l : Fin 3) (s : State) : Res := s.on fun d =>
  d.onLink l.val fun d =>
    let x := d.link l.val
    match x.ackSeq with
    | some a =>
      if d.linkActive l.val then (d.setLink l.val { x with ackDue := false }).emit (.erruic l.val 2 (acknBlock false a)) else d
    | none => d

/-- REPLAY_TIMEOUT (R249): the oldest unacknowledged message has waited REPLAY_TMO. -/
def execReplayTimeout (l : Fin 3) (s : State) : Res := s.on fun d =>
  d.onLink l.val fun d =>
    let x := d.link l.val
    match x.unacked with
    | [] => d
    | m :: _ =>
      if d.linkActive l.val then
        (d.reach (x.ackAt + d.get F.NET_EL_CFG_REPLAY_TMO (l.val + 1) * 1000)).replayOrDown l.val m.lseq
      else d

/-- ERRUIC_LINK_DOWN (R254): sync errors, missing ALIGN rows or signal loss. -/
def execErruicLinkDown (l : Fin 3) (s : State) : Res := s.on fun d =>
  d.onLink l.val fun d =>
    if d.linkActive l.val then ((d.linkDown l.val 1).linkLanes l.val 1) else d

end Sys2Proof.Machine
end

