-- ==== Sys2Proof/Machine/CryptoCmds.lean ====
section
/-!
DEFINITION. MACsec and IPsec Offload (12): one meaning per command.
-/
namespace Sys2Proof.Machine

/-- SA_CREATE (R291, R292): the context becomes valid, its key slot gains a reference and the pods' directories take it.
`ue`: an uncorrectable error in the SA store. -/
def execSaCreate (w : Fin 5) (sa : BitVec 16) (img : List Nat) (ue : Bool) (s : State) : Res := s.window (.cw w) (.saCreate w sa img ue) fun d =>
  d.submit (.cw w) fun d =>
    let n := sa.toNat
    let a := SA.ofBytes img
    let k := d.cry.keys.get a.keySlot
    if ue then d.cwDone w cwMEM_ERR
    else if !d.cwReachInst w a.owner || !d.ownsSa a.owner n || !cwReachKey w k then d.cwDone w cwNOT_OWNER
    else if SA.badImage img then d.cwDone w cwBAD_FIELD
    else if (d.sa n).valid || (d.cry.retiring.get n).isSome then d.cwDone w cwSA_EXISTS
    else if k.key.isEmpty then d.cwDone w cwKEY_EMPTY
    else
      let create (d : Dev) (a : SA) : Dev :=
        let d := d.setSa n a
        let d : Dev := { d with cry := { d.cry with keys := d.cry.keys.set a.keySlot { k with refs := k.refs + 1 } } }
        (if a.inbound then d else d.writeDir n (if a.esp then 2 else 1)).cwDone w cwOK
      if a.inbound && decide (32 < a.win) then
        match d.freeWide with
        | none => d.cwDone w cwNO_WINDOW
        | some i => create { d with cry := { d.cry with wideUsed := d.cry.wideUsed ++ [i] } } { a with wide := some i, bitmap := 0 }
      else create d a

/-- SA_DESTROY (R293): the SA retires and the window stays BUSY until the retirement ends. -/
def execSaDestroy (w : Fin 5) (sa : BitVec 16) (ue : Bool) (s : State) : Res := s.window (.cw w) (.saDestroy w sa ue) fun d =>
  d.submit (.cw w) fun d =>
    let n := sa.toNat
    if ue then d.cwDone w cwMEM_ERR
    else if !(d.sa n).valid then d.cwDone w cwNO_SA
    else if !d.cwReachInst w (d.sa n).owner then d.cwDone w cwNOT_OWNER
    else (d.retireSa n (some w.val)).winBusy (.cw w)

/-- SA_RETIRE_COMPLETE (R293): LIFE_MS and 1 ms after the destroy. -/
def execSaRetireComplete (sa : BitVec 16) (s : State) : Res := s.on fun d =>
  match d.cry.retiring.get sa.toNat with
  | none => d
  | some r =>
    let d := (d.reach r.1).freeSa sa.toNat
    match r.2 with
    | some w => d.cwDone (Fin.ofNat 5 w) cwOK
    | none => d

/-- SA_READ (R291): the context and the wide-window bitmap. -/
def execSaRead (w : Fin 5) (sa : BitVec 16) (ue : Bool) (s : State) : Res := s.window (.cw w) (.saRead w sa ue) fun d =>
  d.submit (.cw w) fun d =>
    let a := d.sa sa.toNat
    if ue then d.cwDone w cwMEM_ERR
    else if !a.valid then d.cwDone w cwNO_SA
    else if !d.cwReachInst w a.owner then d.cwDone w cwNOT_OWNER
    else d.cwDone w cwOK (a.bytes ++ (if a.wide.isSome then toLe 128 a.bitmap else List.replicate 128 0))

/-- KEY_LOAD_WRAPPED (R290): the slot is loaded with the plaintext that the KEK unwraps. -/
def execKeyLoadWrapped (w : Fin 5) (slot : BitVec 15) (kek : Fin 64) (wrap : List Nat) (ue : Bool) (s : State) : Res :=
  s.window (.cw w) (.keyLoadWrapped w slot kek wrap ue) fun d => d.submit (.cw w) fun d =>
    let k := d.cry.keys.get slot.toNat
    let e := d.cry.keks.get kek.val
    if ue then d.cwDone w cwMEM_ERR
    else if !cwReachKey w k || (!e.key.isEmpty && w.val != 4 && e.owner != w.val) then d.cwDone w cwNOT_OWNER
    else if 0 < k.refs then d.cwDone w cwKEY_IN_USE
    else if e.key.isEmpty then d.cwDone w cwKEK_EMPTY
    else match Config.kwUnwrap e.key (slice wrap 0 56) with
      | none => d.cwDone w cwUNWRAP_FAIL
      | some p =>
        if (slice p 44 4).any (· != 0) then d.cwDone w cwBAD_FIELD
        else
          let x : KeySlot := { key := slice p 0 48, owner := if w.val = 4 then e.owner else w.val }
          ({ d with cry := { d.cry with keys := d.cry.keys.set slot.toNat x } } : Dev).cwDone w cwOK

/-- KEY_ZERO (R291): the slot is set EMPTY, unless it is referenced. -/
def execKeyZero (w : Fin 5) (slot : BitVec 15) (ue : Bool) (s : State) : Res := s.window (.cw w) (.keyZero w slot ue) fun d =>
  d.submit (.cw w) fun d =>
    let k := d.cry.keys.get slot.toNat
    if ue then d.cwDone w cwMEM_ERR
    else if !cwReachKey w k then d.cwDone w cwNOT_OWNER
    else if 0 < k.refs then d.cwDone w cwKEY_IN_USE
    else (d.zeroKey slot.toNat).cwDone w cwOK

/-- KEY_INFO (R289): KCV, state, owner and reference count. -/
def execKeyInfo (w : Fin 5) (slot : BitVec 15) (ue : Bool) (s : State) : Res := s.window (.cw w) (.keyInfo w slot ue) fun d =>
  d.submit (.cw w) fun d =>
    let k := d.cry.keys.get slot.toNat
    if ue then d.cwDone w cwMEM_ERR
    else if !cwReachKey w k then d.cwDone w cwNOT_OWNER
    else if k.key.isEmpty then d.cwDone w cwOK
    else d.cwDone w cwOK (toLe 4 (kcvOf k.key) ++ [1] ++ toLe 2 k.owner ++ [0] ++ toLe 4 k.refs)

/-- CRYPTO_VERDICT (R297 to R302): a VERDICT or SAQRY request of a ticket reaches CRYPTO. ABSENT while island 23 is in
reset; MEM_ERR for an uncorrectable error. `resp.bytes` holds the 32 result bytes, then the bytes for PLAIN_DST. -/
def execCryptoVerdict (th : Fin 2048) (tk : Fin 8) (ue : Bool) (s : State) : Res := s.on fun d =>
  let t := d.th th.val
  let k := t.tk tk
  if k.st = 1 ∧ k.resp.isNone then
    let done (d : Dev) (r : TkResp) : Dev := d.setTh th.val ((d.th th.val).setTk tk { k with resp := some r })
    match k.req with
    | .verdict req _ =>
      if !d.isUp 23 then done d { status := 6 }
      else if ue then done d { status := 5 }
      else
        match t.stamp with
        | some st =>
          let r := d.verdict st (d.itemOf t).data req
          done (r.1.count .CRYPTO_VERDICT_CNT r.2.vst)
            { status := 0, aux := 32 + r.2.plain.length, bytes := r.2.res ++ r.2.plain }
        | none => d
    | .saqry req _ =>
      if !d.isUp 23 then done d { status := 6 }
      else if ue then done d { status := 5 }
      else done d { status := 0, aux := 32, bytes := d.saqry (bits (leNat (slice req 0 4)) 0 16) }
    | _ => d
  else d

end Sys2Proof.Machine
end

