-- ==== Sys2Proof/Machine/Place.lean ====
section
/-!
DEFINITION. NVMe/TCP placement (13): what NVME_PLACE does to a delivered copy (R319 to R322), and the commands of a context.
The fields of a C2HData PDU (CCCID, DATAO, DATAL) lie where NVMe/TCP puts them, which the manual takes for granted
(PRESUMED).
-/
namespace Sys2Proof.Machine

/-- Fields of a C2HData header. -/
def Pdu.cid (p : Pdu) : Nat := leNat (slice p.head 8 2)
def Pdu.datao (p : Pdu) : Nat := leNat (slice p.head 12 4)
def Pdu.datal (p : Pdu) : Nat := leNat (slice p.head 16 4)

/-- What placement has done to a segment so far: the state of the stream, the bytes that stay, the bytes placed (address and
byte), and the trailer's fields. -/
structure PlaceRun where
  pdu    : Pdu
  keep   : List Nat := []
  puts   : List (Nat × Nat) := []
  herr   : Bool := false
  derr   : Bool := false
  dok    : Bool := false
  miss   : Nat := 0
  cidMiss : Bool := false
  hostErr : Bool := false
  last   : Nat := 0
  ended  : Nat := 0
  /-- The header digest failed: the rest of the segment is not parsed. -/
  stop   : Bool := false
  /-- CIDs whose last data has been placed. -/
  drop_  : List Nat := []
deriving DecidableEq, Repr, Inhabited

/-- The host address of the current data byte, where the PDU is placed (R320). -/
def placeAddr (cids : List CidEntry) (p : Pdu) : Option Nat :=
  if p.type ≠ 7 then none
  else match (cids.find? (·.cid == p.cid)).bind (·.buf) with
    | some (a, n) => if p.datao + p.datal ≤ n then some (a + p.datao + (p.pos - p.pdo)) else none
    | none => none

/-- One byte of the payload. -/
def placeByte (cids : List CidEntry) (hd dd : Bool) (r : PlaceRun) (b : Nat) : PlaceRun :=
  if r.stop then { r with keep := r.keep ++ [b] }
  else
    let p := r.pdu
    let kept := { r with keep := r.keep ++ [b], pdu := p.next hd dd b }
    match p.kind hd dd with
    | .header =>
      -- The whole header is in: an unplaced PDU is noted.
      let q := { p with head := p.head ++ [b], pos := p.pos + 1 }
      if 8 ≤ q.head.length ∧ q.hlen = q.pos ∧ placeAddr cids q = none then
        let e := cids.find? (·.cid == q.cid)
        { kept with miss := r.miss + 1, cidMiss := r.cidMiss || q.type == 7,
                    hostErr := r.hostErr || (q.type == 7 && (match e with | some e => e.err | none => false)) }
      else kept
    | .hdgst i =>
      if b % 256 = digestByte p.hcrc i then kept else { kept with herr := true, stop := true }
    | .data =>
      let fin := p.pos + 1 == p.dataEnd dd
      let r' := { r with pdu := p.next hd dd b, ended := r.ended + b2n fin }
      match placeAddr cids p with
      | some a =>
        let done := fin && (match (cids.find? (·.cid == p.cid)).bind (·.buf) with | some (_, n) => p.datao + p.datal == n | none => false)
        { r' with puts := r.puts ++ [(a, b)], last := p.cid, drop_ := if done then r.drop_ ++ [p.cid] else r.drop_ }
      | none => { r' with keep := r.keep ++ [b] }
    | .ddgst i =>
      let bad := p.bad || b % 256 != digestByte p.crc i
      let n := p.next hd dd b
      let n := if i = 3 then n else { n with bad := bad }
      let k := { kept with pdu := n }
      if i = 3 then (if bad then { k with derr := true } else { k with dok := true }) else k
    | .other => kept

/-- Consecutive placed bytes as runs. -/
def runsOf : List (Nat × Nat) → List (Nat × List Nat)
  | [] => []
  | (a, b) :: t =>
    match runsOf t with
    | (c, l) :: u => if c = a + 1 then (a, b :: l) :: u else (a, [b]) :: (c, l) :: u
    | [] => [(a, [b])]

/-- The CIDs of the C2HData headers that a payload completes (R319). -/
def cidsOf (hd dd : Bool) : List Nat → Pdu → List Nat
  | [], _ => []
  | b :: t, p =>
    let q := { p with head := p.head ++ [b], pos := p.pos + 1 }
    let hit := p.kind hd dd == .header && decide (8 ≤ q.head.length) && q.hlen == q.pos && q.type == 7
    let rest := cidsOf hd dd t (p.next hd dd b)
    if hit then q.cid :: rest else rest

/-- The placement trailer (Table 13-8). -/
def trailer (flags placed last ended seq : Nat) : List Nat :=
  toLe 4 flags ++ toLe 4 placed ++ toLe 2 (last % 2 ^ 16) ++ toLe 2 (ended % 2 ^ 16) ++ toLe 4 seq

/-- Where a segment is parsed from: the payload offset, and the stream state; none where the segment is not parsed
(R320, R322). -/
def Dev.placeFrom (d : Dev) (c seq n : Nat) : Option (Nat × Pdu) :=
  let x := d.conn c
  if d.get F.NVME_CONN_RESYNC_RX_MODE c = 1 then (if x.rxNext = some seq then some (0, x.rx) else none)
  else if d.flag F.NVME_CONN_RESYNC_ARM c then
    let off := (d.get F.NVME_CONN_RESYNC_SEQ c + 2 ^ 32 - seq) % 2 ^ 32
    if off < n then some (off, {}) else none
  else none

/-- The CIDs whose entries a segment still needs, in order (R319). -/
def Dev.cidsNeeded (d : Dev) (b : List Nat) (a c : Nat) : List Nat :=
  if !d.flag F.NVME_CONN_CFG_VALID c || !d.flag F.NVME_CONN_CFG_RX_EN c then []
  else
    let o := tcpPayload b a
    let pl := b.drop o
    match d.placeFrom c (beNat (slice b (a + 4) 4)) pl.length with
    | none => []
    | some (off, p) =>
      let l := cidsOf (d.flag F.NVME_CONN_CFG_HDGST c) (d.flag F.NVME_CONN_CFG_DDGST c) (pl.drop off) p
      (l.filter fun k => !((d.conn c).cids.any (·.cid == k))).eraseDups

/-- NVME_PLACE on a delivered copy (R320 to R322): the copy with its trailer, and the placement writes. -/
def Dev.nvmePlace (d : Dev) (b : List Nat) (a c : Nat) : Dev × List Nat × List (Nat × List Nat) :=
  let inst := d.connOwner c
  let seq := beNat (slice b (a + 4) 4)
  let o := tcpPayload b a
  let pl := b.drop o
  if !d.flag F.NVME_CONN_CFG_VALID c || !d.flag F.NVME_CONN_CFG_RX_EN c then (d, b ++ trailer 16 0 0 0 seq, [])
  else
    match d.placeFrom c seq pl.length with
    | none =>
      let d := (d.count .NVME_FALLBACK_SEG inst).put F.NVME_CONN_RESYNC_RX_MODE c 2
      (d, b ++ trailer 8 0 0 0 seq, [])
    | some (off, p) =>
      let hd := d.flag F.NVME_CONN_CFG_HDGST c
      let dd := d.flag F.NVME_CONN_CFG_DDGST c
      let cids := (d.conn c).cids
      let r := (pl.drop off).foldl (placeByte cids hd dd) { pdu := p, keep := pl.take off }
      let d := d.put F.NVME_CONN_RESYNC_ARM c 0
      let d := d.put F.NVME_CONN_RESYNC_RX_MODE c (if r.stop then 2 else 1)
      let d := d.setConn c { d.conn c with
        rxNext := some ((seq + pl.length) % 2 ^ 32), rx := r.pdu,
        cids := (d.conn c).cids.filter fun e => !r.drop_.contains e.cid && !e.err }
      let d := if r.herr then d.count .NVME_HDGST_ERR inst else d
      let d := if r.derr then d.count .NVME_DDGST_ERR inst else d
      let d := if r.miss = 0 then d else d.count .NVME_CID_MISS inst r.miss
      let d := if r.puts.isEmpty then d else d.count .NVME_PLACED_BYTES inst r.puts.length
      let f := b2n r.herr + 2 * b2n r.derr + 4 * b2n (r.dok && !r.derr) + 32 * b2n r.cidMiss + 64 * b2n r.hostErr
      (d, b.take o ++ r.keep ++ trailer f r.puts.length r.last r.ended seq, runsOf r.puts)

/-- The write of CONN_CFG (Table 13-5, R322): VALID set clears all state and the context enters FALLBACK; VALID cleared turns it
OFF. -/
def Dev.connCfgWrite (d : Dev) (c v be : Nat) : Dev :=
  let old := d.flag F.NVME_CONN_CFG_VALID c
  let d := d.writeFields .NVME_CONN_CFG c v be []
  let new := d.flag F.NVME_CONN_CFG_VALID c
  if !old && new then ((d.setConn c {}).wr .NVME_CONN_RESYNC c 0).put F.NVME_CONN_RESYNC_RX_MODE c 2
  else if old && !new then d.put F.NVME_CONN_RESYNC_RX_MODE c 0
  else d

/-- CONN_CFG_WRITE (R317, R322). -/
def execConnCfgWrite (c : BitVec 14) (v : BitVec 64) (s : State) : Res := s.on fun d =>
  d.onIsland 20 fun d => d.byWrite .NVME_CONN_CFG c.toNat fun d => d.connCfgWrite c.toNat v.toNat 255

/-- The write of CONN_RESYNC (R322): SEQ, and ARM set by writing 1. -/
def Dev.resyncWrite (d : Dev) (c v be : Nat) : Dev := d.writeFields .NVME_CONN_RESYNC c v be []

/-- RESYNC_ARM (R322). -/
def execResyncArm (c : BitVec 14) (seq : BitVec 32) (s : State) : Res := s.on fun d =>
  d.onIsland 20 fun d => d.byWrite .NVME_CONN_RESYNC c.toNat fun d => d.resyncWrite c.toNat (seq.toNat + 2 ^ 32) 255

/-- CID_FETCH_COMPLETE (R319): the read of a CID's entry has its answer; its data comes from the completion. -/
def Dev.cidFetched (d : Dev) (c cid : Nat) (data : Option (List Nat)) : Dev :=
  let x := d.conn c
  let e : CidEntry := match data with
    | none => { cid := cid, err := true }
    | some b =>
      let w3 := leNat (slice b 12 4)
      if bit w3 16 && w3 % 2 ^ 16 == cid then { cid := cid, buf := some (leNat (slice b 0 8), leNat (slice b 8 4)) }
      else { cid := cid }
  d.setConn c { x with asked := x.asked.filter (· != cid), cids := (x.cids.filter (·.cid != cid)) ++ [e] }

end Sys2Proof.Machine
end

