-- ==== Sys2Proof/Machine/Dma.lean ====
section
/-!
DEFINITION. The DMA engine (16): which operations run (R390, R391), dirty marks (R419, R420), the issue of bursts (R381,
R382), what follows an operation (R384), reads and their completions (R333, R334, R341, R379), flushes (R386, R387).
-/
namespace Sys2Proof.Machine

/-- Migration state of an instance. -/
def Dev.mig (d : Dev) (inst : Nat) : Mig := d.hst.migs.get inst

/-- Store it. -/
def Dev.setMig (d : Dev) (inst : Nat) (x : Mig) : Dev := { d with hst := { d.hst with migs := d.hst.migs.set inst x } }

/-- A write operation of the instance that joined earlier is still on another channel (R377). -/
def Dev.olderElsewhere (d : Dev) (c : Nat) (o : DmaOp) : Bool :=
  d.hst.chans.cells.any fun x => x.1 != c && x.2.ops.any fun p => p.inst == o.inst && !p.read && decide (p.id < o.id)

/-- An operation may be issued on channel `c` now: its instance may issue, is not frozen, and does not wait for another channel
(R377). -/
def Dev.opRuns (d : Dev) (c : Nat) (o : DmaOp) : Bool :=
  o.gen != d.gen o.inst || (d.mayIssue o.inst && !d.frozen o.inst && !d.olderElsewhere c o)

/-- The current operation of a channel. -/
def Dev.curOp (d : Dev) (c : Nat) : Option DmaOp := (d.chan c).ops.find? (d.opRuns c)

/-- A channel with no operation left is IDLE (Table 16-3). -/
def Dev.chanIdle (d : Dev) (c : Nat) : Dev :=
  if d.get F.DMA_CHAN_STATE_STATE c = 2 ∧ (d.chan c).ops.isEmpty then d.put F.DMA_CHAN_STATE_STATE c 1 else d

/-- Remove an operation from a channel. -/
def Dev.rmOp (d : Dev) (c id : Nat) : Dev :=
  let x := d.chan c
  let held := x.ops.filterMap fun o => match o.fin with | .range st => if o.id = id then some st else none | _ => none
  held.foldl (fun d st => d.tidy st) ((d.setChan c { x with ops := x.ops.filter (·.id != id) }).chanIdle c)

/-- Current operations whose generation is stale are removed (R390): counted where they had not started. -/
def Dev.dropStale : Nat → Nat → Dev → Dev
  | 0, _, d => d
  | n + 1, c, d =>
    match d.curOp c with
    | some o =>
      if o.gen = d.gen o.inst then d
      else
        let d := d.rmOp c o.id
        Dev.dropStale n c (if o.done = 0 then d.count .DMA_STALE_DROP c else d)
    | none => d

/-! ### Dirty tracking (R419 to R421) -/

/-- One page of a tracked write is marked. -/
def Dev.markPage (d : Dev) (inst c page : Nat) : Dev :=
  let m := d.mig inst
  let b := m.base / 4096
  if page < b ∨ b + 2 ^ m.lg ≤ page then d.put F.MIG_STATE_OVERFLOW inst 1
  else if m.marks.contains (page - b) then d
  else
    let marks := m.marks ++ [page - b]
    let w := (page - b) / 64
    let v := (marks.filter fun i => i / 64 == w).foldl (fun a i => a + 2 ^ (i % 64)) 0
    let bank := if d.get F.MIG_STATE_BANK inst = 0 then m.bank0 else m.bank1
    (d.setMig inst { m with marks := marks }).emit (.hostWrite inst c (bank + w * 8) (toLe 8 v))

/-- The pages of a write operation are marked ahead of its data, while tracking is on. -/
def Dev.markOp (d : Dev) (c : Nat) (o : DmaOp) : Dev :=
  if d.flag F.MIG_STATE_TRACKING o.inst ∧ 6 ≤ o.src ∧ o.src ≤ 8 ∧ o.len ≠ 0 then
    let a := o.addr / 4096
    let n := (o.addr + o.len - 1) / 4096 - a + 1
    (List.range n).foldl (fun d i => d.markPage o.inst c (a + i)) d
  else d

/-! ### Tags and reads (R333) -/

/-- Tags in use. -/
def Dev.tags (d : Dev) : List Nat := d.hst.reads.filterMap (·.tag)

/-- Reads outstanding at a port. -/
def Dev.readsAt (d : Dev) (port : Nat) : Nat := (d.hst.reads.filter fun r => r.tag.isSome && r.port == port).length

/-- The most reads that may be outstanding at a port for a function (R333). -/
def Dev.tagLimit (d : Dev) (inst port : Nat) : Nat :=
  let f := d.fn inst
  if f.tag14 && d.flag F.HOST_PORT_STATUS_FLIT port then 16384 - d.readsAt (1 - port)
  else if f.tag10 then 768 else 256

/-- A read request can be issued: a tag is free and the channel is below its 512 outstanding reads. -/
def Dev.readReady (d : Dev) (c inst : Nat) : Bool :=
  let port := d.hostPortOf inst
  decide (d.readsAt port < d.tagLimit inst port) && decide ((d.hst.reads.filter fun r => r.chan == c && r.tag.isSome).length < 512)

/-- The lowest free tag. -/
def freeTag (l : List Nat) : Nat := ((List.range (l.length + 1)).find? fun t => !l.contains t).getD 0

/-- A read request leaves. -/
def Dev.issueRead (d : Dev) (c : Nat) (o : DmaOp) (off n : Nat) : Dev :=
  let tag := freeTag d.tags
  let r : Rd := { op := o.id, chan := c, inst := o.inst, gen := o.gen, port := d.hostPortOf o.inst, tag := some tag, off := off,
                  len := n, due := d.mono + (d.fn o.inst).cplTo, addr := o.addr + off }
  ({ d with hst := { d.hst with reads := d.hst.reads ++ [r] } } : Dev).emit (.hostRead o.inst c tag (o.addr + off) n)

/-! ### After an operation (R384) -/

/-- An RQ delivery's data has been written: its buffers are DONE and recording goes on (R365). -/
def Dev.rqWritten (d : Dev) (q first k : Nat) : Dev :=
  let x := d.q q
  let last := idxAdd first (k - 1)
  let d := d.setQ q { x with pend := x.pend.map fun p => if p.kind = 3 ∧ p.index = last then { p with out := some (0, 0) } else p }
  d.recordQ q

/-- The copy that a completion entry reports is DONE (R36). -/
def Dev.entryDone (d : Dev) (item : Option (Nat × Nat)) : Dev :=
  match item with
  | some (st, c) =>
    let d := if c = 0 then d.outcome st 0 0 else d
    d.endCopy st c
  | none => d

/-- A ledger's header has been written (R374). -/
def Dev.ledgerWritten (d : Dev) (pf seq : Nat) : Dev :=
  (d.put F.QE_LEDGER_SEQ_SEQ pf seq).put F.QE_LEDGER_STATUS_UNACKED pf 1

/-- A write operation is DONE. -/
def Dev.opDone (d : Dev) (o : DmaOp) : Dev :=
  match o.fin with
  | .rqData q first k _ _ => d.rqWritten q first k
  | .entry _ _ item => d.entryDone item
  | .ledger pf seq => if seq = 0 then d else d.ledgerWritten pf seq
  | _ => d

/-! ### Bursts (R381, R382) -/

/-- The bytes of the next burst of an operation (R381). -/
def Dev.burstLen (d : Dev) (c : Nat) (o : DmaOp) : Nat :=
  let b := 256 * 2 ^ d.get F.DMA_CHAN_CFG_BURST_CODE c
  let a := o.addr + o.done
  let n := min (o.len - o.done) (b - a % b)
  if o.read then min (min n (d.fn o.inst).mrrs) (4096 - a % 4096) else n

/-- The channel's next burst is ready. -/
def Dev.burstReady (d : Dev) (c : Nat) : Bool :=
  d.get F.DMA_CHAN_STATE_STATE c == 2 &&
    (match d.curOp c with | some o => !o.read || d.readReady c o.inst | none => false)

/-- An RTC channel whose current operation has started holds the port. -/
def Dev.rtcHolds (d : Dev) (c : Nat) : Bool :=
  d.flag F.DMA_CHAN_CFG_MODE c && d.get F.DMA_CHAN_STATE_STATE c == 2 &&
    (match d.curOp c with | some o => o.done != 0 | none => false)

/-- The channel that a group's issue port grants (R382). -/
def Dev.grantOf (d : Dev) (g : Nat) : Option Nat :=
  let cs := (List.range 8).map (8 * g + ·)
  let prio (c : Nat) : Nat := d.get F.DMA_CHAN_CFG_PRIO c
  let blocked (c : Nat) : Bool := cs.any fun h => h != c && d.rtcHolds h && decide (prio c ≤ prio h)
  let ok := cs.filter fun c => d.burstReady c && !blocked c
  let top := (ok.map prio).foldl max 0
  let l := ok.filter fun c => prio c == top
  match d.hst.lastGrant.get g with
  | some k => (match l.find? fun c => decide (k < c) with | some c => some c | none => l.head?)
  | none => l.head?

/-- The translations of the pages of a request enter the ATS translation cache of the port, which holds 16,384 (R335); a function
with ATS disabled issues only untranslated requests. -/
def Dev.atsUse (d : Dev) (inst addr n : Nat) : Dev :=
  if (d.fn inst).ats ∧ n ≠ 0 then
    let a := addr / 4096
    let l := (List.range ((addr + n - 1) / 4096 - a + 1)).map fun i => (inst, a + i)
    let port := d.hostPortOf inst
    let c := (d.hst.atc.get port).filter (!l.contains ·) ++ l
    { d with hst := { d.hst with atc := d.hst.atc.set port (c.drop (c.length - 16384)) } }
  else d

/-- One burst of a channel's current operation. -/
def Dev.issueBurst (d : Dev) (c : Nat) (o : DmaOp) : Dev :=
  let n := d.burstLen c o
  let d := d.atsUse o.inst (o.addr + o.done) n
  let o' := { o with done := o.done + n }
  let fin := o.len ≤ o'.done
  let x := d.chan c
  if o.read then
    let d := d.issueRead c o o.done n
    if fin then
      let d : Dev := { d with hst := { d.hst with rdOps := d.hst.rdOps ++ [o'] } }
      d.rmOp c o.id
    else d.setChan c { x with ops := x.ops.replace o o' }
  else
    let d := if o.done = 0 then d.markOp c o else d
    let d := if n = 0 then d else d.emit (.hostWrite o.inst c (o.addr + o.done) ((o.bytes.drop o.done).take n))
    let d := d.count .DMA_CHAN_WR_BYTES c n
    if fin then (d.rmOp c o.id).opDone o'
    else d.setChan c { x with ops := x.ops.replace o o' }

/-- The operations of one delivery: up to the one that carries its end. -/
def deliveryOps : List DmaOp → List DmaOp
  | [] => []
  | o :: t => match o.fin with | .rqData .. => [o] | _ => o :: deliveryOps t

/-- The data that the current write operation of a channel carries has an uncorrectable error (subcode 1 HBM_UE, 2 SRAM_UE): a delivery
stops, its buffers recorded with ERROR_DISCARD and BYTES 0; a DMA_WRITE of kind RANGE writes nothing further. Other sources carry no
item data. -/
def Dev.burstError (d : Dev) (c : Nat) (o : DmaOp) (sub : Nat) : Dev :=
  match o.fin with
  | .range _ => (d.rmOp c o.id).count .DMA_WR_DATA_ERR
  | _ =>
    let l := deliveryOps ((d.chan c).ops.dropWhile (·.id != o.id))
    match o.src, l.getLast?.map (fun (x : DmaOp) => x.fin) with
    | 6, some (.rqData q first k st cp) =>
      let d := l.foldl (fun d x => d.rmOp c x.id) d
      let d := d.loseCopy st cp 2 sub
      let x := d.q q
      let last := idxAdd first (k - 1)
      let d := d.setQ q { x with pend := x.pend.map fun p => if p.kind = 3 ∧ p.index = last then
        { p with out := some (2, sub), item := none, words := (p.words.headD 0 / 2 ^ 17 * 2 ^ 17) :: p.words.drop 1 } else p }
      d.recordQ q
    | _, _ => d.issueBurst c o

/-- The next burst of an operation, or its error. -/
def Dev.burstOr (d : Dev) (c : Nat) (o : DmaOp) (ue : Nat) : Dev := if ue = 0 ∨ o.read then d.issueBurst c o else d.burstError c o ue

/-- A grant of a group's issue port (R382, R390); `ue`: the data of the burst has an uncorrectable error. -/
def Dev.grant (d : Dev) (g : Nat) (ue : Nat) : Dev :=
  let d := (List.range 8).foldl (fun d k => Dev.dropStale (d.chan (8 * g + k)).ops.length (8 * g + k) d) d
  match d.grantOf g with
  | none => d
  | some c =>
    match d.curOp c with
    | none => d
    | some o => ({ d with hst := { d.hst with lastGrant := d.hst.lastGrant.set g (some c) } } : Dev).burstOr c o ue

/-! ### Completions (R334, R341, R379) -/

/-- The answer of a read request is in: its data, or none where it failed. Its tag is free. -/
def Dev.answerRead (d : Dev) (r : Rd) (data : Option (List Nat)) : Dev :=
  let drop := r.void || r.gen != d.gen r.inst
  let l := d.hst.reads
  if drop then { d with hst := { d.hst with reads := l.erase r } }
  else
    let r' := { r with tag := none, arrived := true, data := data.map fun b => slice b 0 r.len }
    let d : Dev := { d with hst := { d.hst with reads := l.replace r r' } }
    match data with
    | some _ => d.count .DMA_CHAN_RD_BYTES r.chan r.len
    | none => (d.count .DMA_RD_ERR r.chan).fault 15 2 20 r.chan

/-- Every request of an operation has been answered. -/
def Dev.opAnswered (d : Dev) (o : DmaOp) : Bool := (d.hst.reads.filter fun r => r.op == o.id && !r.void).all (·.arrived)

/-- The data of an answered operation; none where a request of it failed. -/
def Dev.opData (d : Dev) (o : DmaOp) : Option (List Nat) :=
  let rs := sortBy (·.off) (d.hst.reads.filter fun r => r.op == o.id && !r.void)
  if rs.all (·.data.isSome) then some (rs.flatMap fun r => r.data.getD []) else none

/-- An answered read operation is taken, its data with it. -/
def Dev.takeOp (d : Dev) (o : DmaOp) : Dev :=
  { d with hst := { d.hst with rdOps := d.hst.rdOps.filter (·.id != o.id), reads := d.hst.reads.filter (·.op != o.id) } }

/-- The first answered read operation of a kind whose data may be used (R337): its instance may issue, at the current
generation. -/
def Dev.answeredOp (d : Dev) (f : DmaOp → Bool) : Option DmaOp :=
  d.hst.rdOps.find? fun o => f o && d.opAnswered o && (d.mayIssue o.inst || o.src == 0xC) && o.gen == d.gen o.inst

/-- The reads that are outstanding for which `f` holds are abandoned as by a timeout (R338). -/
def Dev.abandon (d : Dev) (f : Rd → Bool) : Dev :=
  let rs := d.hst.reads.map fun (r : Rd) => if f r then { r with tag := none, arrived := true, data := none } else r
  { d with hst := { d.hst with reads := rs } }

/-- The operations whose reads `f` names return to the head of their channels, to be read again (R343, R392). -/
def Dev.reissue (d : Dev) (f : Rd → Bool) : Dev :=
  let rs := d.hst.reads.filter fun r => f r && !r.arrived
  let ids := (rs.map (·.op)).eraseDups
  ids.foldl (fun d id =>
    let c := ((rs.find? (·.op == id)).map (·.chan)).getD 0
    let back := d.hst.rdOps.filter (·.id == id)
    let d : Dev := { d with hst := { d.hst with rdOps := d.hst.rdOps.filter (·.id != id), reads := d.hst.reads.filter (·.op != id) } }
    let x := d.chan c
    let clear (o : DmaOp) : DmaOp := if o.id = id then { o with done := 0 } else o
    let d := d.setChan c { x with ops := back.map clear ++ x.ops.map clear }
    if d.get F.DMA_CHAN_STATE_STATE c = 1 ∧ ¬ (d.chan c).ops.isEmpty then d.put F.DMA_CHAN_STATE_STATE c 2 else d) d

/-! ### Flushes (R386, R387) -/

/-- The flush read of a channel is issued, where none is pending and its owner may issue. -/
def Dev.issueFlush (d : Dev) (c : Nat) : Dev :=
  let x := d.chan c
  let pf := d.get F.DMA_CHAN_CFG_OWNER_PF c
  if x.flushes = 0 ∨ d.flag F.DMA_CHAN_STATE_FLUSH_PENDING c ∨ ¬ d.mayIssue pf ∨ ¬ d.readReady c pf then d
  else
    let o : DmaOp := { id := d.hst.nextOp, inst := pf, gen := d.gen pf, src := 0xC, read := true,
                       addr := d.rd .DMA_CHAN_STATUS_ADDR c, fin := .flush c }
    let d : Dev := { d with hst := { d.hst with nextOp := d.hst.nextOp + 1, rdOps := d.hst.rdOps ++ [o] } }
    let d := (d.setChan c { x with flushes := x.flushes - 1 }).put F.DMA_CHAN_STATE_FLUSH_PENDING c 1
    let d := if x.flushes = 1 then d.put F.DMA_CHAN_CTL_FLUSH c 0 else d
    d.issueRead c o 0 0

/-- FLUSH is set on a channel: refused without a status address (R386). -/
def Dev.flushSet (d : Dev) (c : Nat) : Dev :=
  if d.rd .DMA_CHAN_STATUS_ADDR c = 0 then d.ignored .DMA_CHAN_CTL c cBAD_ENUM
  else
    let x := d.chan c
    ((d.setChan c { x with flushes := x.flushes + 1 }).put F.DMA_CHAN_CTL_FLUSH c 1).issueFlush c

/-- The flush read has its answer. -/
def Dev.flushDone (d : Dev) (o : DmaOp) (c : Nat) : Dev :=
  let ok := (d.opData o).isSome
  let d := (d.takeOp o).put F.DMA_CHAN_STATE_FLUSH_PENDING c 0
  let d := if ok then d else (d.count .DMA_FLUSH_FAIL_CNT c).fault 15 3 20 c
  let d := d.statusRecord c (if ok then 1 else 2) c (!ok) 0 none
  (d.raiseLocal 20 6 c (d.get F.DMA_CHAN_STATE_SEQ c)).issueFlush c

/-! ### Abort and failure (R388, R389, R392) -/

/-- ABORT is set (R388): on an IDLE or ACTIVE channel it enters STOPPING. -/
def Dev.abortSet (d : Dev) (c : Nat) : Dev :=
  let st := d.get F.DMA_CHAN_STATE_STATE c
  if st = 1 ∨ st = 2 then ((d.put F.DMA_CHAN_CTL_ABORT c 1).put F.DMA_CHAN_STATE_STATE c 3).count .DMA_ABORT_CNT c
  else d.put F.DMA_CHAN_CTL_ABORT c 0

/-- The channel is STOPPED: the residue of its current operation, ABORT_DONE and the event. -/
def Dev.chanStopped (d : Dev) (c : Nat) : Dev :=
  let x := d.chan c
  let d := (d.put F.DMA_CHAN_STATE_STATE c 4).put F.DMA_CHAN_CTL_ABORT c 0
  let got (o : DmaOp) : Nat := if o.read then
      (d.hst.reads.filter fun r => r.op == o.id && r.arrived && r.data.isSome).foldl (fun a r => a + r.len) 0
    else o.done
  let res := match x.ops with | o :: _ => o.len - got o | [] => 0
  let d := d.statusRecord c 3 c false res x.ops.head?
  let d : Dev := match x.ops with
    | o :: t =>
      let d := d.setChan c { x with ops := { o with done := 0 } :: t }
      let rs := (d.hst.reads.filter fun (r : Rd) => r.op != o.id || !r.arrived).map fun (r : Rd) =>
        if r.op = o.id then { r with void := true } else r
      { d with hst := { d.hst with reads := rs } }
    | [] => d
  d.raiseLocal 20 7 c (d.get F.DMA_CHAN_STATE_SEQ c)

/-- RESUME is set (R389). -/
def Dev.resumeSet (d : Dev) (c : Nat) : Dev :=
  if d.get F.DMA_CHAN_STATE_STATE c = 4 then
    let x := d.chan c
    d.put F.DMA_CHAN_STATE_STATE c (if x.ops.isEmpty then 1 else 2)
  else d

/-- The instance's channel changes (R377). -/
def Dev.moveInst (d : Dev) (inst new : Nat) : Dev :=
  if d.chanOf inst = new then d else (d.put F.DMA_INST_CHAN_CHAN inst new).put F.DMA_INST_CHAN_MOVING inst 1

/-- The write of INST_CHAN (R376): a channel that is not ENABLE 1, or not of the instance's PF, is refused. -/
def Dev.instChanWrite (d : Dev) (inst new : Nat) : Dev :=
  if 64 ≤ new ∨ ¬ d.flag F.DMA_CHAN_CFG_ENABLE new ∨ d.get F.DMA_CHAN_CFG_OWNER_PF new ≠ d.pfOf inst then
    d.ignored .DMA_INST_CHAN inst cBAD_ENUM
  else d.moveInst inst new

/-- No write operation of the instance is left on a channel other than its own (R377). -/
def Dev.moveOver (d : Dev) (inst : Nat) : Bool :=
  d.hst.chans.cells.all fun x => x.1 == d.chanOf inst || x.2.ops.all fun o => o.inst != inst || o.read

/-- The next healthy channel of the group of `c` (R392). -/
def Dev.nextChan (d : Dev) (c : Nat) : Option Nat :=
  (((List.range 7).map fun k => c / 8 * 8 + (c + 1 + k) % 8).find? fun k =>
    let s := d.get F.DMA_CHAN_STATE_STATE k; s != 0 && s != 5)

/-- A channel is FAILED and its operations move to another of its group (R392). -/
def Dev.chanFailed (d : Dev) (c : Nat) : Dev :=
  let d := (d.put F.DMA_CHAN_STATE_STATE c 5).put F.DMA_CHAN_STATE_FLUSH_PENDING c 0
  match d.nextChan c with
  | none => d.fault 15 4 20 (c / 8)
  | some n =>
    let d := d.reissue fun r => r.chan == c
    let moved := (d.chan c).ops.map fun o => { o with done := 0 }
    let d := d.setChan c {}
    let x := d.chan n
    let d := d.setChan n { x with ops := x.ops ++ moved }
    let d := if d.get F.DMA_CHAN_STATE_STATE n = 1 ∧ ¬ moved.isEmpty then d.put F.DMA_CHAN_STATE_STATE n 2 else d
    let d := d.hst.live.foldl (fun d i => if d.chanOf i = c then d.moveInst i n else d) d
    d.statusRecord n 4 c false 0 none

/-- A channel fails (R392). -/
def Dev.chanFails (d : Dev) (c : Nat) : Dev := (d.fault 15 1 20 c).chanFailed c

end Sys2Proof.Machine
end

