-- ==== Sys2Proof/Machine/Queues.lean ====
section
/-!
DEFINITION. Queues of the queue engine (15): enabling and disabling (R349, R350, R366), errors and resume (R356, R357),
doorbells (R351 to R353, R372), the checks of a descriptor (R354, R355), the submission buckets (R412) and the head
write-back (R361).
-/
namespace Sys2Proof.Machine

/-- An instance is ENABLED (Table 17-1). -/
def Dev.instEnabled (d : Dev) (inst : Nat) : Bool := d.get F.INST_STATE_STATE inst == 3

/-- STATE of a queue (Table 15-2): 0 DISABLED, 1 ACTIVE, 2 ERROR, 3 STOPPING. -/
def Dev.qState (d : Dev) (q : Nat) : Nat := d.get F.QE_QCTX_STATE_STATE q

/-- The indices of a queue. -/
def Dev.qPi (d : Dev) (q : Nat) : Nat := d.rd .QE_QCTX_PI q
def Dev.qCi (d : Dev) (q : Nat) : Nat := d.rd .QE_QCTX_CI q
def Dev.qDone (d : Dev) (q : Nat) : Nat := d.rd .QE_QCTX_DONE q

/-- The queue is an RQ. -/
def Dev.isRq (d : Dev) (q : Nat) : Bool := d.flag F.QE_QCTX_CFG_TYPE q

/-- The instance that owns a queue. -/
def Dev.qOwner (d : Dev) (q : Nat) : Nat := (d.rangeOwner 0 q).getD 0

/-- The elements of a register that differ from its reset value, in ascending order. -/
def Dev.listedOf (d : Dev) (r : Reg) : List Nat :=
  d.regs.filterMap fun c => if c.1 % 512 = r.ctorIdx then some (c.1 / 512) else none

/-- The queues that are not DISABLED. -/
def Dev.liveQs (d : Dev) : List Nat := (d.listedOf .QE_QCTX_STATE).filter fun q => d.qState q != 0

/-- Read operations are withdrawn: those not issued leave their channels, and the data of those issued is discarded. -/
def Dev.cancelReads (d : Dev) (f : DmaOp → Bool) : Dev :=
  let h := d.hst
  let ops := h.rdOps.filter f ++ h.chans.cells.flatMap fun c => c.2.ops.filter fun o => o.read && f o
  let ids := ops.map (·.id)
  let chans := h.chans.mapListed fun _ (c : Chan) => { c with ops := c.ops.filter fun o => !ids.contains o.id }
  let reads := (h.reads.filter fun (r : Rd) => !ids.contains r.op || r.tag.isSome).map fun (r : Rd) =>
    if ids.contains r.op then { r with void := true } else r
  let h := { h with rdOps := h.rdOps.filter fun o => !ids.contains o.id, chans := chans, reads := reads }
  (List.range 64).foldl (fun d c => d.chanIdle c) { d with hst := h }

/-- The operation reads descriptors, or a list, for queue `q`. -/
def DmaOp.fetches (o : DmaOp) (q : Nat) : Bool :=
  match o.fin with | .desc k _ _ => k == q | .list k _ => k == q | _ => false

/-- Descriptors read but not accepted are discarded, and the fetch pointer returns to CI (R356, R350). -/
def Dev.dropFetched (d : Dev) (q : Nat) : Dev :=
  let d := d.cancelReads fun o => o.fetches q
  d.setQ q { d.q q with fetch := d.qCi q, descs := [] }

/-! ### Errors (R356, R357) -/

/-- A queue enters ERROR at its CI; one already in ERROR keeps its code and index. -/
def Dev.queueError (d : Dev) (q code : Nat) : Dev :=
  if d.qState q ≠ 1 then d
  else
    let inst := d.qOwner q
    let ci := d.qCi q
    let d := ((d.put F.QE_QCTX_STATE_STATE q 2).put F.QE_QCTX_STATE_ERR_CODE q code).put F.QE_QCTX_STATE_ERR_INDEX q ci
    let d := (d.dropFetched q).raiseInst 0x001 inst q ci
    (d.count .QE_Q_ERROR_CNT inst).fault 9 1 20 inst q

/-- The first descriptor that waits has failed a check. -/
def Dev.headError (d : Dev) (q : Nat) : Dev :=
  match (d.q q).descs with
  | x :: _ => if x.err = 0 then d else d.queueError q x.err
  | [] => d

/-- CI advances; the head write-back falls due where it is on (R361). -/
def Dev.setCi (d : Dev) (q ci : Nat) : Dev :=
  let d := d.wr .QE_QCTX_CI q ci
  if d.rd .QE_QCTX_HWB q = 0 then d else d.setQ q { d.q q with hwbDue := true }

/-- RESUME of a queue at an index (R357): the indices it passes over are skipped. -/
def Dev.resumeQueue (d : Dev) (q idx : Nat) : Dev :=
  if d.qState q ≠ 2 then d
  else
    let e := d.get F.QE_QCTX_STATE_ERR_INDEX q
    let k := idxSub idx e
    if idxSub (d.qPi q) e < k then d.ignored .QE_QCTX_CTL q cBAD_ENUM
    else
      let x := d.q q
      let skip := (List.range k).map fun i => ({ index := idxAdd e i, kind := 2 } : Pend)
      let d := d.setQ q { x with fetch := idx, pend := x.pend ++ skip }
      let d := ((d.setCi q idx).put F.QE_QCTX_STATE_STATE q 1).put F.QE_QCTX_STATE_ERR_CODE q 0
      d.recordQ q

/-! ### Enable and disable (R349, R350, R366, R398) -/

/-- An instance may use a slot for its queues: the slot is bound, to the instance where it is a TENANT slot. -/
def Dev.slotOk (d : Dev) (slot inst : Nat) : Bool :=
  let v := d.get F.BUF_SLOT_STATE_ACTIVE slot
  v != 0 && (match d.slots.get (slot * 256 + v) with | some x => !x.tenant || x.inst == inst | none => false)

/-- The conditions of R349 and R398. -/
def Dev.mayEnableQ (d : Dev) (q : Nat) : Bool :=
  let inst := d.qOwner q
  let lg := d.get F.QE_QCTX_CFG_LOG2_SIZE q
  let c := d.get F.QE_QCTX_CFG_CQ q
  d.instEnabled inst && decide (6 ≤ lg) && decide (lg ≤ 16) && d.rd .QE_QCTX_BASE q % 4096 == 0
    && d.ownsRange inst 1 c && d.flag F.QE_CQCTX_CFG_ENABLE c
    && (d.isRq q || d.slotOk (d.get F.QE_QCTX_CFG_SLOT q) inst)

/-- A write of ENABLE 1: only a DISABLED queue takes it. -/
def Dev.enableQueue (d : Dev) (q : Nat) : Dev :=
  if d.qState q ≠ 0 then d
  else if !d.mayEnableQ q then (d.put F.QE_QCTX_CTL_ENABLE q 0).ignored .QE_QCTX_CTL q cBAD_ENUM
  else
    let d := ((d.wr .QE_QCTX_PI q 0).wr .QE_QCTX_CI q 0).wr .QE_QCTX_DONE q 0
    let d := (d.put F.QE_QCTX_CTL_ENABLE q 1).put F.QE_QCTX_STATE_STATE q 1
    d.setQ q { hwbDue := d.rd .QE_QCTX_HWB q != 0 }

/-- The accepted buffers of an RQ that no delivery has taken are QUEUE_DISABLED (R366). -/
def Dev.dropBuffers (d : Dev) (q : Nat) : Dev :=
  let x := d.q q
  let d := d.setQ q { x with pend := x.pend.map fun p =>
    if p.kind = 3 ∧ ¬ p.taken then { p with out := some (1, 5), words := [2 ^ 17, 0, 0, 0] } else p }
  d.recordQ q

/-- A write of ENABLE 0 (R350). -/
def Dev.disableQueue (d : Dev) (q : Nat) : Dev :=
  let d := d.put F.QE_QCTX_CTL_ENABLE q 0
  if d.qState q = 1 ∨ d.qState q = 2 then
    let d := (d.put F.QE_QCTX_STATE_STATE q 3).dropFetched q
    if d.isRq q then d.dropBuffers q else d
  else d

/-- A STOPPING queue whose journal is empty becomes DISABLED. -/
def Dev.stopQueue (d : Dev) (q : Nat) : Dev :=
  if d.qState q = 3 ∧ d.qDone q = d.qCi q then d.wr .QE_QCTX_STATE q 0 else d

/-! ### Completion and event queues (R367) -/

/-- A queue that is not DISABLED names CQ `c`. -/
def Dev.cqNamed (d : Dev) (c : Nat) : Bool := d.liveQs.any fun q => d.get F.QE_QCTX_CFG_CQ q == c

/-- ENABLE of a CQ is written. -/
def Dev.setCq (d : Dev) (c : Nat) (on : Bool) : Dev :=
  let was := d.flag F.QE_CQCTX_CFG_ENABLE c
  if on then (if was then d else (d.put F.QE_CQCTX_CFG_ENABLE c 1).wr .QE_CQCTX_STATE c 0)
  else if was && d.cqNamed c then d.ignored .QE_CQCTX_CFG c cLOCKED
  else d.put F.QE_CQCTX_CFG_ENABLE c 0

/-- ENABLE of an EQ is written. -/
def Dev.setEq (d : Dev) (e : Nat) (on : Bool) : Dev :=
  if on then (if d.flag F.QE_EQCTX_CFG_ENABLE e then d else (d.put F.QE_EQCTX_CFG_ENABLE e 1).wr .QE_EQCTX_STATE e 0)
  else d.put F.QE_EQCTX_CFG_ENABLE e 0

/-! ### Doorbells (R351 to R353, R372) -/

/-- The check that a doorbell fails (Table 15-5); none where it passes. -/
def Dev.dbCheck (d : Dev) (inst v : Nat) (whole : Bool) : Option Nat :=
  let q := bits v 0 16
  let ty := bits v 16 2
  let idx := bits v 32 32
  let off := if ty = 0 then d.qState q == 0 || d.qState q == 3
    else if ty = 1 then !d.flag F.QE_CQCTX_CFG_ENABLE q else !d.flag F.QE_EQCTX_CFG_ENABLE q
  let out (rci wpi : Nat) : Bool := decide (idxSub wpi rci < idxSub idx rci)
  if !whole then some 1
  else if ty = 3 ∨ bit v 19 ∨ (bit v 18 ∧ ty = 0) then some 2
  else if bits v 20 12 ≠ d.gen inst then some 3
  else if !d.ownsRange inst ty q then some 4
  else if off then some 5
  else if ty = 0 then (if 2 ^ 31 ≤ idxSub idx (d.qPi q) then some 6 else none)
  else if ty = 1 then
    (if out (d.get F.QE_CQCTX_STATE_RCI q) (d.get F.QE_CQCTX_STATE_WPI q) then some 7 else none)
  else if out (d.get F.QE_EQCTX_STATE_RCI q) (d.get F.QE_EQCTX_STATE_WPI q) then some 7 else none

/-- A doorbell is rejected (R352). -/
def Dev.dbReject (d : Dev) (inst q cause : Nat) : Dev :=
  let d := (d.count .QE_DB_REJECT inst).put F.QE_DB_LAST_REJECT_CAUSE inst cause
  ((d.put F.QE_DB_LAST_REJECT_QUEUE inst q).raiseInst 0x002 inst q cause).fault 9 2 20 inst cause

/-- A TYPE 0 doorbell that passes (R353). -/
def Dev.dbPi (d : Dev) (q idx : Nat) : Dev :=
  if idx = d.qPi q then d
  else if 2 ^ d.get F.QE_QCTX_CFG_LOG2_SIZE q < idxSub idx (d.qCi q) then d.queueError q 9
  else d.wr .QE_QCTX_PI q idx

/-- A TYPE 1 doorbell that passes (R371, R372): the entries that wait for room follow. -/
def Dev.dbCq (d : Dev) (inst c idx : Nat) (arm : Bool) : Dev :=
  let waits := d.hst.cqFull.contains c
  let d := d.put F.QE_CQCTX_STATE_RCI c idx
  let d := if !arm then d
    else
      let d := d.put F.QE_CQCTX_FLAGS_ARMED c 1
      if !waits && d.get F.QE_CQCTX_STATE_WPI c != idx then d.cqNotice inst c else d
  (d.liveQs.filter fun q => d.get F.QE_QCTX_CFG_CQ q == c).foldl (fun d q => d.recordQ q) d

/-- A TYPE 2 doorbell that passes (R372). -/
def Dev.dbEq (d : Dev) (inst e idx : Nat) (arm : Bool) : Dev :=
  let d := d.put F.QE_EQCTX_STATE_RCI e idx
  if !arm then d
  else if d.get F.QE_EQCTX_STATE_WPI e ≠ idx then (d.put F.QE_EQCTX_FLAGS_ARMED e 0).pendVec inst (d.get F.QE_EQCTX_CFG_VECTOR e)
  else d.put F.QE_EQCTX_FLAGS_ARMED e 1

/-- A write to a doorbell page. During an FLR, and where the function does not exist, it is discarded (R329, R339). -/
def Dev.doorbell (d : Dev) (inst v : Nat) (whole : Bool) : Dev :=
  if (d.fn inst).flr ∨ d.get F.INST_STATE_STATE inst = 0 then d
  else
    let q := bits v 0 16
    match d.dbCheck inst v whole with
    | some cause => d.dbReject inst q cause
    | none =>
      let idx := bits v 32 32
      if bits v 16 2 = 0 then d.dbPi q idx
      else if bits v 16 2 = 1 then d.dbCq inst q idx (bit v 18)
      else d.dbEq inst q idx (bit v 18)

/-! ### Descriptors (R354, R355) -/

/-- Word `i` of bytes. -/
def word32 (b : List Nat) (i : Nat) : Nat := leNat (slice b (4 * i) 4)

/-- Every byte is 0. -/
def allZero (l : List Nat) : Bool := l.all (· % 256 == 0)

/-- A segment (16 bytes): address and LEN, and whether its reserved bits are 0. -/
def segOf (b : List Nat) (off : Nat) : Nat × Nat := (leNat (slice b off 8), leNat (slice b (off + 8) 4) % 2 ^ 14)
def segClean (b : List Nat) (off : Nat) : Bool := leNat (slice b (off + 8) 4) < 2 ^ 14 && allZero (slice b (off + 12) 4)

/-- The segments at `off`. -/
def segsOf (b : List Nat) (off n : Nat) : List (Nat × Nat) := (List.range n).map fun i => segOf b (off + 16 * i)

/-- The lengths of segments are in range and make `total` (Table 15-8, BAD_LENGTH). -/
def segsLenOk (l : List (Nat × Nat)) (total : Nat) : Bool :=
  l.all (fun s => s.2 != 0) && (l.map (·.2)).foldl (· + ·) 0 == total

/-- The error code of a descriptor of 64 bytes (Table 15-8); 0 where it passes. -/
def checkDesc (rq : Bool) (b : List Nat) : Nat :=
  let w0 := word32 b 0
  let w1 := word32 b 1
  let op := w0 % 256
  let total := bits w0 16 14
  let n := w1 % 128
  let hdr := bits w0 9 7 == 0 && bits w0 30 2 == 0 && decide (w1 < 128) && word32 b 3 == 0 && !(rq && bit w0 8)
  let rest := match op with
    | 1 => (List.range 3).all fun i => if i < n then segClean b (16 + 16 * i) else allZero (slice b (16 + 16 * i) 16)
    | 2 => allZero (b.drop (16 + total))
    | 3 => allZero (slice b 24 40)
    | 4 => total == 0 && allZero (slice b 16 48)
    | _ => total == 0 && decide (word32 b 6 < 2 ^ 17) && allZero (slice b 28 36)
  let cnt := match op with | 1 => decide (1 ≤ n) && decide (n ≤ 3) | 3 => decide (1 ≤ n) && decide (n ≤ 64) | _ => n == 0
  let len := match op with
    | 1 => total != 0 && segsLenOk (segsOf b 16 n) total
    | 2 => decide (1 ≤ total) && decide (total ≤ 48)
    | 3 => total != 0
    | 4 => true
    | _ => decide (64 ≤ word32 b 6 % 2 ^ 17) && decide (word32 b 6 % 2 ^ 17 ≤ 65536)
  if ¬ (op = 1 ∨ op = 2 ∨ op = 3 ∨ op = 4 ∨ op = 16) then 2
  else if rq ≠ (op == 16) then 3
  else if !(hdr && rest) then 4
  else if !cnt then 5
  else if !len then 6
  else if op = 3 ∧ leNat (slice b 16 8) % 16 ≠ 0 then 7
  else 0

/-- The error code of a SEND_LIST whose list has been read. -/
def checkList (total : Nat) (l : List Nat) (n : Nat) : Nat :=
  if !(List.range n).all (fun i => segClean l (16 * i)) then 4
  else if !segsLenOk (segsOf l 0 n) total then 6 else 0

/-! ### Submission buckets (R412, R413) -/

/-- The bursts: descriptors in units of 10^-6, bytes in units of 1/8000. -/
def Dev.descCap (d : Dev) (inst : Nat) : Int := (d.get F.INST_SUB_CFG_DESC_BURST inst * 1000000 : Nat)
def Dev.byteCap (d : Dev) (inst : Nat) : Int := (d.get F.INST_SUB_CFG_BYTE_BURST inst * 65536 * 8000 : Nat)

/-- A bucket brought up to now. -/
def bucketAt (now : Nat) (cap : Int) (rate : Nat) : Option Bucket → Int
  | some b => min cap (b.tokens + (rate * (now - b.at_) : Nat))
  | none => cap

/-- The buckets of an instance. -/
def Dev.descTokens (d : Dev) (inst : Nat) : Int :=
  bucketAt d.mono (d.descCap inst) (d.get F.INST_SUB_CFG_DESC_RATE inst) (d.hst.insts.get inst).descTok
def Dev.byteTokens (d : Dev) (inst : Nat) : Int :=
  bucketAt d.mono (d.byteCap inst) (d.get F.INST_SUB_CFG_BYTE_RATE inst) (d.hst.insts.get inst).byteTok

/-- What an instance holds beside its registers. -/
def Dev.instX (d : Dev) (inst : Nat) : InstX := d.hst.insts.get inst
def Dev.setInstX (d : Dev) (inst : Nat) (x : InstX) : Dev :=
  { d with hst := { d.hst with insts := d.hst.insts.set inst x } }

/-- Both buckets stand at given values now. -/
def Dev.setBuckets (d : Dev) (inst : Nat) (a b : Int) : Dev :=
  d.setInstX inst { d.instX inst with descTok := some ⟨a, d.mono⟩, byteTok := some ⟨b, d.mono⟩ }

/-- Both buckets are set (R413). -/
def Dev.startBuckets (d : Dev) (inst : Nat) : Dev :=
  if d.flag F.INST_SUB_CFG_COLD inst then d.setBuckets inst 0 0 else d.setBuckets inst (d.descCap inst) (d.byteCap inst)

/-- The buckets let an SQ of the instance be visited. -/
def Dev.bucketsOk (d : Dev) (inst : Nat) : Bool :=
  (d.get F.INST_SUB_CFG_DESC_RATE inst == 0 || decide (0 ≤ d.descTokens inst)) &&
    (d.get F.INST_SUB_CFG_BYTE_RATE inst == 0 || decide (0 ≤ d.byteTokens inst))

/-- A visit of `n` descriptors, or an acceptance of bytes, is debited where the bucket has a rate. -/
def Dev.debitDescs (d : Dev) (inst n : Nat) : Dev :=
  if d.get F.INST_SUB_CFG_DESC_RATE inst = 0 then d
  else d.setBuckets inst (d.descTokens inst - (n * 1000000 : Nat)) (d.byteTokens inst)
def Dev.debitBytes (d : Dev) (inst n : Nat) : Dev :=
  if d.get F.INST_SUB_CFG_BYTE_RATE inst = 0 then d
  else d.setBuckets inst (d.descTokens inst) (d.byteTokens inst - (n * 8000 : Nat))

/-! ### Head write-back (R361) -/

/-- The head write-back of a queue is written, at most once per microsecond. -/
def Dev.headWriteBack (d : Dev) (q : Nat) : Dev :=
  let x := d.q q
  if !x.hwbDue || d.rd .QE_QCTX_HWB q == 0 || d.qState q == 0 then d
  else
    let d := match x.hwbAt with | some t => d.reach (t + 1000) | none => d
    let inst := d.qOwner q
    let d := d.hostWrite inst 7 (d.rd .QE_QCTX_HWB q) (toLe 8 (d.qCi q + d.gen inst * 2 ^ 32)) (.hwb q)
    d.setQ q { d.q q with hwbDue := false, hwbAt := some d.mono }

end Sys2Proof.Machine
end

