-- ==== Sys2Proof/Machine/Fetch.lean ====
section
/-!
DEFINITION. Slices, fetch, acceptance and payload of host items (15): R358 to R364, R268, R412.
-/
namespace Sys2Proof.Machine

/-- The slice that serves an instance (R362): the healthy one from `inst` mod 4 on. -/
def Dev.sliceOf (d : Dev) (inst : Nat) : Option Nat :=
  ((List.range 4).map fun k => (inst + k) % 4).find? fun n => !bit (d.get F.FCOL_PART_ISO_SLICE) n

/-- The queue engine may fetch for an instance (R337, R362, R422). -/
def Dev.fetches (d : Dev) (inst : Nat) : Bool :=
  !d.halted && d.instEnabled inst && d.mayIssue inst && d.get F.MIG_STATE_MSTATE inst == 0

/-- Descriptors of a queue that have been produced and not read. -/
def Dev.unread (d : Dev) (q : Nat) : Nat := idxSub (d.qPi q) (d.q q).fetch

/-- A read of `n` descriptors from the fetch pointer (R358). -/
def Dev.readDescs (d : Dev) (q n : Nat) : Dev :=
  let inst := d.qOwner q
  let size := 2 ^ d.get F.QE_QCTX_CFG_LOG2_SIZE q
  let f := (d.q q).fetch
  let a := d.rd .QE_QCTX_BASE q
  let n1 := min n (size - f % size)
  let d := d.hostRead inst 1 (a + f % size * 64) (n1 * 64) (.desc q f n1)
  let d := if n1 < n then d.hostRead inst 1 a ((n - n1) * 64) (.desc q (idxAdd f n1) (n - n1)) else d
  (d.setQ q { d.q q with fetch := idxAdd f n }).count .QE_DESC_FETCHED inst n

/-- The accepted buffers of an RQ that no delivery has taken. -/
def Dev.heldBufs (d : Dev) (q : Nat) : List Pend := (d.q q).pend.filter fun p => p.kind == 3 && !p.taken && p.out.isNone

/-- How many descriptors an RQ reads now (R364). -/
def Dev.rqWants (d : Dev) (q : Nat) : Nat :=
  let h := (d.heldBufs q).length
  if h < 16 then min (d.unread q) (32 - h - idxSub (d.q q).fetch (d.qCi q)) else 0

/-- The operations of the queue engine are below their limit (Table 01-10). -/
def Dev.opRoom (d : Dev) : Bool :=
  decide ((d.hst.chans.cells.foldl (fun a c => a + c.2.ops.length) d.hst.rdOps.length) < 32768)

/-- The RQ that a slice refills first. -/
def Dev.rqToFill (d : Dev) (sl : Nat) : Option Nat :=
  d.liveQs.find? fun q =>
    d.isRq q && d.qState q == 1 && d.sliceOf (d.qOwner q) == some sl && d.fetches (d.qOwner q) && d.rqWants q != 0

/-- An SQ is eligible (R362, R412). -/
def Dev.sqEligible (d : Dev) (q : Nat) : Bool :=
  !d.isRq q && d.qState q == 1 && d.unread q != 0 && d.fetches (d.qOwner q) && d.bucketsOk (d.qOwner q)

/-- The next of a list in ascending order after `last`, with wrap. -/
def nextAfter (l : List Nat) (last : Option Nat) : Option Nat :=
  match last with
  | some k => (match l.find? fun x => decide (k < x) with | some x => some x | none => l.head?)
  | none => l.head?

/-- A queue round of an instance (R363, level 4): none of its eligible queues has credit, and all its queues reload. -/
def Dev.queueRound (d : Dev) (inst : Nat) (qs : List Nat) : Dev :=
  if qs.any fun q => (d.q q).credit != 0 then d
  else (d.liveQs.filter fun q => d.qOwner q == inst).foldl (fun d q =>
    d.setQ q { d.q q with credit := d.get F.QE_QCTX_ARB_WEIGHT q }) d

/-- The visit of an instance (R363, levels 2 and 3). -/
def Dev.visitInst (d : Dev) (inst : Nat) (qs : List Nat) : Dev :=
  let x := d.instX inst
  match nextAfter (qs.filter fun q => (d.q q).credit != 0) x.lastQ with
  | none => d
  | some q =>
    let n := min (min (d.get F.QE_QCTX_ARB_BURST q) (d.q q).credit) (min x.credit (d.unread q))
    let d := d.setQ q { d.q q with credit := (d.q q).credit - n }
    let d := d.setInstX inst { x with credit := x.credit - n, lastQ := some q }
    (d.debitDescs inst n).readDescs q n

/-- A visit of a slice to its SQs (R363, levels 1 and 5): the rounds that are due begin before it (Table 15-14). -/
def Dev.visitSq (d : Dev) (sl : Nat) : Dev :=
  let qs := d.liveQs.filter fun q => d.sliceOf (d.qOwner q) == some sl && d.sqEligible q
  let is := sortBy id (qs.map d.qOwner).eraseDups
  let d := is.foldl (fun d i => d.queueRound i (qs.filter fun q => d.qOwner q == i)) d
  let d := if is.any fun i => (d.instX i).credit != 0 then d
    else (d.hst.live.filter fun i => d.sliceOf i == some sl).foldl (fun d i =>
      d.setInstX i { d.instX i with credit := d.get F.QE_INST_ARB_WEIGHT i }) d
  match nextAfter (is.filter fun i => (d.instX i).credit != 0) (d.hst.lastInst.get sl) with
  | none => d
  | some i =>
    let d : Dev := { d with hst := { d.hst with lastInst := d.hst.lastInst.set sl (some i) } }
    d.visitInst i (qs.filter fun q => d.qOwner q == i)

/-- A visit of a slice: RQs first. -/
def Dev.visit (d : Dev) (sl : Nat) : Dev :=
  if bit (d.get F.FCOL_PART_ISO_SLICE) sl || !d.opRoom then d
  else match d.rqToFill sl with
    | some q => d.readDescs q (d.rqWants q)
    | none => if d.liveQs.any fun q => d.sliceOf (d.qOwner q) == some sl && d.sqEligible q then d.visitSq sl else d

/-! ### Descriptors read (R355) -/

/-- One descriptor is checked, in index order; nothing is checked behind one that failed. -/
def Dev.takeDesc (d : Dev) (q : Nat) (b : List Nat) : Dev :=
  let x := d.q q
  if x.descs.any fun e => e.err != 0 then d
  else
    let idx := idxAdd (d.qCi q) x.descs.length
    let e := checkDesc (d.isRq q) b
    let n := word32 b 1 % 128
    let lst := word32 b 0 % 256 == 3 && e == 0
    let segs := if word32 b 0 % 256 = 1 then segsOf b 16 n else []
    let d := d.setQ q { x with descs := x.descs ++ [{ index := idx, bytes := b, segs := segs, list := lst, err := e }] }
    if lst then d.hostRead (d.qOwner q) 2 (leNat (slice b 16 8)) (16 * n) (.list q idx) else d

/-- The read of the next descriptors in order has its answer. -/
def Dev.descsRead (d : Dev) (q : Nat) : Dev :=
  let next := idxAdd (d.qCi q) (d.q q).descs.length
  match d.answeredOp fun o => (match o.fin with | .desc k i _ => k == q && i == next | _ => false) with
  | none => d
  | some o =>
    let data := d.opData o
    let d := d.takeOp o
    let d := match data with
      | none =>
        let x := d.q q
        let e : Desc := { index := next, bytes := [], err := 1 }
        d.setQ q { x with descs := x.descs ++ [e] }
      | some b => (List.range (o.len / 64)).foldl (fun d i => d.takeDesc q (slice b (64 * i) 64)) d
    d.headError q

/-- The list of the first descriptor that waits for one has its answer. -/
def Dev.listRead (d : Dev) (q : Nat) : Dev :=
  match (d.q q).descs.find? (·.list) with
  | none => d
  | some e =>
    match d.answeredOp fun o => o.fin == .list q e.index with
    | none => d
    | some o =>
      let n := word32 e.bytes 1 % 128
      let e' : Desc := match d.opData o with
        | none => { e with list := false, err := 8 }
        | some l => { e with list := false, segs := segsOf l 0 n, err := checkList (bits (word32 e.bytes 0) 16 14) l n }
      let d := d.takeOp o
      (d.setQ q { d.q q with descs := (d.q q).descs.replace e e' }).headError q

/-! ### Acceptance (R42, R359, R360, R364) -/

/-- Host-pool cells that an instance's items hold. -/
def Dev.instCells (d : Dev) (inst : Nat) : Nat :=
  (d.itemList.filter fun x => x.tok.source == 4 && x.tok.inst == inst).foldl (fun a x => a + x.hostCells + x.plain.1) 0

/-- The host pool and the instance's quota hold `n` more cells (R268). -/
def Dev.hostRoom (d : Dev) (inst n : Nat) : Bool :=
  decide (d.buf.hostUse + n ≤ d.get F.BUF_POOL_CFG_HOST_CELLS) && decide (d.instCells inst + n ≤ d.rangeCount inst 7)

/-- The first descriptor leaves the list and CI advances. -/
def Dev.takeHead (d : Dev) (q : Nat) (p : Pend) : Dev :=
  let x := d.q q
  let d := d.setQ q { x with descs := x.descs.drop 1, pend := x.pend ++ [p] }
  d.setCi q (idxAdd p.index 1)

/-- An SQ item is accepted (R359): cells, stamp, token; its payload is loaded. -/
def Dev.acceptSend (d : Dev) (q : Nat) (e : Desc) : Dev :=
  let inst := d.qOwner q
  let w0 := word32 e.bytes 0
  let len := bits w0 16 14
  let n := cellsOf len
  let okey := 0x40000000 + q
  if !d.hostRoom inst n || !d.robRoom okey then d
  else
    let st := (d.nextStamp 4).1
    let d := d.takeHead q { index := e.index, kind := 0, stamp := st, tag := word32 e.bytes 2, signal := bit w0 8, len := len }
    let d : Dev := { d with buf := { d.buf with hostUse := d.buf.hostUse + n } }
    let tok : Token := { inst := inst, okey := okey, slot := d.get F.QE_QCTX_CFG_SLOT q, len := len, head := min 256 len, queue := q,
                         index := e.index % 2 ^ 16 }
    let inl := if w0 % 256 = 2 then slice e.bytes 16 len else []
    let d := d.accept 4 { tok := tok, data := inl, hostCells := n, pst := .loading }
    let d := d.debitBytes inst len
    (e.segs.mapIdx fun i g => (i, g)).foldl (fun d p => d.hostRead inst 3 p.2.1 p.2.2 (.payload st p.1)) d

/-- The next descriptor of a queue is accepted once what it needs is in hand. -/
def Dev.acceptDesc (d : Dev) (q : Nat) : Dev :=
  if d.qState q ≠ 1 ∨ d.accepts = false then d
  else match (d.q q).descs with
    | [] => d
    | e :: _ =>
      if e.err ≠ 0 ∨ e.list then d
      else
        let w0 := word32 e.bytes 0
        let op := w0 % 256
        let d := if op = 16 then
            d.takeHead q { index := e.index, kind := 3, tag := word32 e.bytes 2, len := word32 e.bytes 6 % 2 ^ 17,
                           addr := leNat (slice e.bytes 16 8) }
          else if op = 4 then
            let r := d.nextStamp 4
            let d := r.2.takeHead q { index := e.index, kind := 1, stamp := r.1, tag := word32 e.bytes 2, signal := bit w0 8 }
            (d.countAccept 4 0 (d.qOwner q)).recordQ q
          else d.acceptSend q e
        d.headError q

/-! ### Payload (R360) -/

/-- The operation loads payload of an item. -/
def DmaOp.loads (o : DmaOp) (st : Nat) : Bool := match o.fin with | .payload k _ => k == st | _ => false

/-- The payload load of an item is over: its token may be dispatched, or the item is disposed HOST_DATA. -/
def Dev.payloadLoaded (d : Dev) (st : Nat) : Dev :=
  match d.item st with
  | none => d.cancelReads fun o => o.loads st
  | some x =>
    if x.pst != .loading then d.cancelReads fun o => o.loads st
    else if d.hst.chans.cells.any fun c => c.2.ops.any fun o => o.loads st then d
    else
      let seg (o : DmaOp) : Nat := match o.fin with | .payload _ k => k | _ => 0
      let ops := sortBy seg (d.hst.rdOps.filter fun o => o.loads st)
      if !ops.all (fun o => d.opAnswered o && d.mayIssue o.inst) then d
      else
        let parts := ops.map d.opData
        let d := ops.foldl (fun d o => d.takeOp o) d
        if parts.any (·.isNone) then d.dispose st 2 4
        else
          let data := if ops.isEmpty then x.data else parts.flatMap fun p => p.getD []
          d.setItem st { x with data := data, pst := .waiting }

/-! ### A failed slice -/

/-- A slice is retired: what its instances have read and not accepted is read again by the next one (R362). -/
def Dev.sliceFails (d : Dev) (sl : Nat) : Dev :=
  if bit (d.get F.FCOL_PART_ISO_SLICE) sl then d
  else
    let qs := d.liveQs.filter fun q => d.sliceOf (d.qOwner q) == some sl
    let d := qs.foldl (fun d q => d.dropFetched q) d
    d.put F.FCOL_PART_ISO_SLICE 0 (d.get F.FCOL_PART_ISO_SLICE + 2 ^ sl)

end Sys2Proof.Machine
end

