-- ==== Sys2Proof/Machine/RqDeliver.lean ====
section
/-!
DEFINITION. The delivery of copies to receive queues (15, 13): R365, R319 to R321.
-/
namespace Sys2Proof.Machine

/-- The address of a CID's table entry (R319, Table 13-5). -/
def Dev.cidAddr (d : Dev) (c cid : Nat) : Nat :=
  d.get F.NVME_CONN_CFG_CID_BASE c * 4096 + cid % 2 ^ d.get F.NVME_CONN_CFG_CID_LOG2 c * 16

/-- The CID entries that a delivery still needs are read, each once. -/
def Dev.askCids (d : Dev) (c : Nat) (l : List Nat) : Dev :=
  (l.filter fun k => !(d.conn c).asked.contains k).foldl (fun d k =>
    let d := d.hostRead (d.connOwner c) 5 (d.cidAddr c k) 16 (.cid c k)
    let x := d.conn c
    d.setConn c { x with asked := x.asked ++ [k] }) d

/-- The buffers that `n` bytes fill, from the first one held; none where those held do not suffice. -/
def bufsFor : Nat → List Pend → Option (List Pend)
  | _, [] => none
  | n, p :: t => if n ≤ p.len then some [p] else (bufsFor (n - p.len) t).map fun l => p :: l

/-- A copy leaves the host root without having been delivered. -/
def Dev.rqLose (d : Dev) (r st c di sub : Nat) : Dev :=
  let d : Dev := { d with net := { d.net with sending := d.net.sending.set r none },
                          hst := { d.hst with rqWait := d.hst.rqWait.filter fun w => !(w.1 == st && w.2.1 == c) } }
  d.loseCopy st c di sub

/-- The buffers of a delivery are taken: the last one carries the words of its completion entry (Table 15-9). -/
def Dev.takeBufs (d : Dev) (q : Nat) (l : List Pend) (st c n : Nat) (t : Token) : Dev :=
  let x := d.q q
  let idx := l.map (·.index)
  let last := (idx.getLast?).getD 0
  let words := [n % 2 ^ 17 + l.length * 2 ^ 17, t.rxts % 2 ^ 32, t.port % 32 + t.source % 8 * 32 + t.prof % 16 * 256, t.okey % 2 ^ 32]
  d.setQ q { x with pend := x.pend.map fun p =>
    if p.kind = 3 ∧ idx.contains p.index then
      (if p.index = last then { p with taken := true, words := words, item := some (st, c) } else { p with taken := true, cover := true })
    else p }

/-- The data operations of a delivery, one per buffer (R380); the last tells that the data has been written. -/
def Dev.writeBufs (d : Dev) (inst q first k st c : Nat) : List Pend → List Nat → Dev
  | [], _ => d
  | [p], b => d.hostWrite inst 6 p.addr (b.take p.len) (.rqData q first k st c)
  | p :: t, b => Dev.writeBufs (d.hostWrite inst 6 p.addr (b.take p.len)) inst q first k st c t (b.drop p.len)

/-- The copy at the head of a host root is built and written (R365, R369): its bytes, its placement writes and its buffers. -/
def Dev.rqWrite (d : Dev) (r st c inst : Nat) (x : Item) (k : Copy) : Dev :=
  let q := k.dest
  let b := buildCopy x x.data k.edits
  let place := b.2.1.findSome? fun j => match j with | .nvme false _ a n => some (a, n) | _ => none
  let ask := match place with | some (a, n) => d.cidsNeeded b.1 a n | none => []
  if !ask.isEmpty then (match place with | some (_, n) => d.askCids n ask | none => d)
  else
    let o := match place with | some (a, n) => d.nvmePlace b.1 a n | none => (d, b.1, [])
    match bufsFor o.2.1.length ((d.heldBufs q).take 8) with
    | none =>
      if 8 ≤ (d.heldBufs q).length then d.rqLose r st c 1 4
      else if d.hst.rqWait.any fun w => w.1 == st && w.2.1 == c then d
      else { d with hst := { d.hst with rqWait := d.hst.rqWait ++ [(st, c, d.mono + 2000)] } }
    | some l =>
      let d := if b.2.2 = 0 then o.1 else o.1.count .HDRI_CSUM_SKIP 0 b.2.2
      let d := d.takeBufs q l st c o.2.1.length x.tok
      let d := o.2.2.foldl (fun d p => d.hostWrite inst 6 p.1 p.2) d
      let d := d.writeBufs inst q ((l.head?.map (·.index)).getD 0) l.length st c l o.2.1
      let d := d.count .TM_Q_TX_BYTES k.q k.len
      { d with net := { d.net with sending := d.net.sending.set r none },
               hst := { d.hst with rqWait := d.hst.rqWait.filter fun w => !(w.1 == st && w.2.1 == c) } }

/-- What the copy in a host root's delivery does now: QUEUE_DISABLED where its queue takes nothing more, else its write,
while its function may issue requests. -/
def Dev.rqDeliver (d : Dev) (r : Nat) : Dev :=
  match d.net.sending.get r with
  | none => d
  | some (st, c) =>
    match d.item st, d.copy st c with
    | some x, some k =>
      if k.st != .sending then { d with net := { d.net with sending := d.net.sending.set r none } }
      else match d.rangeOwner 0 k.dest with
        | none => d.rqLose r st c 1 5
        | some inst =>
          if d.qState k.dest = 0 ∨ d.qState k.dest = 3 ∨ ¬ d.isRq k.dest then d.rqLose r st c 1 5
          else if !d.mayIssue inst || d.frozen inst then d
          else d.rqWrite r st c inst x k
    | _, _ => { d with net := { d.net with sending := d.net.sending.set r none } }

/-- The wait of a delivery for buffers ends (R365). -/
def Dev.rqWaitOver (d : Dev) (r : Nat) : Dev :=
  match d.net.sending.get r with
  | none => d
  | some (st, c) =>
    match d.hst.rqWait.find? fun w => w.1 == st && w.2.1 == c with
    | none => d
    | some w => (d.reach w.2.2).rqLose r st c 1 4

end Sys2Proof.Machine
end

