-- ==== Sys2Proof/Machine/Reset.lean ====
section
/-!
DEFINITION. Reset points, ledgers, drains and removals of instances (02, 14, 15, 17): R58 to R63, R339 to R342, R373, R374,
R403 to R407.
-/
namespace Sys2Proof.Machine

/-! ### Ledgers (R60, R342, R373, R374) -/

/-- The code byte of an index in a ledger entry: DONE keeps DONE (R58), a skipped index is marked, all else is aborted. -/
def Pend.code (p : Pend) : Nat :=
  if p.kind = 2 then 0x80 else if p.kind = 0 ∧ p.out = some (0, 0) then 0 else 3

/-- The ledger entry of a queue (Table 15-12) as the reset point finds it. -/
def Dev.ledgerEntry (d : Dev) (inst q : Nat) : List Nat :=
  let codes := (d.q q).pend.map Pend.code
  let size := 2 ^ d.get F.QE_QCTX_CFG_LOG2_SIZE q
  let hd := toLe 4 (q + b2n (d.isRq q) * 2 ^ 16 + inst * 2 ^ 18) ++ toLe 4 (d.qCi q) ++ toLe 4 (d.qDone q) ++ toLe 4 (d.gen inst)
  hd ++ codes.take size ++ List.replicate (size - codes.length) 0

/-- The queues of an instance that are not DISABLED, in ascending order. -/
def Dev.instQs (d : Dev) (inst : Nat) : List Nat := d.liveQs.filter fun q => d.ownsRange inst 0 q

/-- The entries of a ledger of several instances. -/
def Dev.ledgerEntries (d : Dev) (insts : List Nat) : List (List Nat) :=
  (sortBy id insts).flatMap fun i => (d.instQs i).map (d.ledgerEntry i)

/-- The generation after a reset point (R404). -/
def nextGen (g : Nat) : Nat := if g = 4095 then 1 else g + 1

/-- The entries that fit in `room` bytes behind the header, and whether all do (R61, R342). -/
def fitEntries : Nat → List (List Nat) → List (List Nat) × Bool
  | _, [] => ([], true)
  | room, e :: t => if e.length ≤ room then (let r := fitEntries (room - e.length) t; (e :: r.1, r.2)) else ([], false)

/-- The bytes of the held-ledger area in use. -/
def Dev.heldBytes (d : Dev) : Nat :=
  (d.hst.ledgers.filter (·.held)).foldl (fun a l => a + 64 + (l.entries.map (·.length)).foldl (· + ·) 0) 0

/-- LEDGER_HELD of each port (Table 14-3). -/
def Dev.showHeld (d : Dev) : Dev :=
  (List.range 2).foldl (fun d h =>
    d.put F.HOST_PORT_STATUS_LEDGER_HELD h (b2n (d.hst.ledgers.any fun l => l.held && d.portOfPf l.pf == h))) d

/-- A ledger is due: it is written through its PF, or held (R342, R374). -/
def Dev.addLedger (d : Dev) (l : Ledger) : Dev :=
  if !l.held then { d with hst := { d.hst with ledgers := d.hst.ledgers ++ [l] } }
  else
    let r := fitEntries (2 ^ 20 - d.heldBytes - 64) l.entries
    let l := { l with entries := r.1, trunc := !r.2 }
    let d : Dev := { d with hst := { d.hst with ledgers := d.hst.ledgers ++ [l] } }
    (if r.2 then d else d.fault 9 7 20 l.pf).showHeld

/-- The ledger of a reset of `insts` (kind 1 INSTANCE_RESET of the first, 2 FUNCTION_RESET of a PF), before its reset
point. A further ledger of a PF that has one unacknowledged is held. -/
def Dev.resetLedger (d : Dev) (kind inst : Nat) (insts : List Nat) : Dev :=
  let pf := d.pfOf inst
  let g := d.gen inst
  let held := kind == 2 || d.flag F.QE_LEDGER_STATUS_UNACKED pf || d.hst.ledgers.any (·.pf == pf)
  d.addLedger { pf := pf, kind := kind, inst := inst, oldGen := g, newGen := nextGen g, dtb := d.now,
                entries := d.ledgerEntries insts, held := held }

/-- The next sequence of a PF (Table 15-11). -/
def Dev.nextLedgerSeq (d : Dev) (pf : Nat) : Nat := let n := d.hst.ledgerSeq.get pf; if n = 2 ^ 32 - 1 then 1 else n + 1

/-- Cut bytes into operations of at most 65,536 bytes (R380). -/
def cut64k (l : List Nat) : List (List Nat) :=
  (List.range (ceilDiv l.length 65536)).map fun i => (l.drop (65536 * i)).take 65536

/-- A ledger is written: entries first, the header with VALID last, all on the PF's channel (R60, Table 15-11). -/
def Dev.putLedger (d : Dev) (l : Ledger) : Dev :=
  let size := d.get F.QE_LEDGER_SIZE_SIZE l.pf
  let a := d.rd .QE_LEDGER_BASE l.pf
  let r := fitEntries (size - 64) l.entries
  let trunc := l.trunc || !r.2
  let seq := d.nextLedgerSeq l.pf
  let body := r.1.flatten
  let d : Dev := { d with hst := { d.hst with ledgerSeq := d.hst.ledgerSeq.set l.pf seq } }
  let d := ((cut64k body).mapIdx fun i b => (i, b)).foldl (fun d p => d.hostWrite l.pf 9 (a + 64 + 65536 * p.1) p.2) d
  let ws := [l.kind + b2n trunc * 16 + 2 ^ 31, l.inst + l.oldGen * 2 ^ 12, l.newGen, seq, l.dtb % 2 ^ 32, l.dtb / 2 ^ 32 % 2 ^ 32,
             r.1.length, l.frames % 2 ^ 32, l.frames / 2 ^ 32 % 2 ^ 32] ++ List.replicate 7 0
  let d := d.hostWrite l.pf 9 a (ws.flatMap (toLe 4)) (.ledger l.pf seq)
  if trunc then d.fault 9 3 20 l.pf else d

/-- A ledger of a PF is on its way to the host. -/
def Dev.ledgerBusy (d : Dev) (pf : Nat) : Bool :=
  d.hst.chans.cells.any fun c => c.2.ops.any fun o => match o.fin with | .ledger p _ => p == pf | _ => false

/-- A PF has registered a ledger region (R61). -/
def Dev.ledgerRegion (d : Dev) (pf : Nat) : Bool := decide (64 ≤ d.get F.QE_LEDGER_SIZE_SIZE pf)

/-- The first ledger of a PF is written, held ones once the region is registered and Bus Master Enable is 1 (R342). -/
def Dev.writeLedger (d : Dev) (pf : Nat) (held : Bool) : Dev :=
  match d.hst.ledgers.find? (·.pf == pf) with
  | none => d
  | some l =>
    if l.held != held || d.flag F.QE_LEDGER_STATUS_UNACKED pf || d.ledgerBusy pf || !d.ledgerRegion pf
      || (held && !(d.fn pf).bme) then d
    else
      let d : Dev := { d with hst := { d.hst with ledgers := d.hst.ledgers.erase l } }
      (d.putLedger l).showHeld

/-- A write of LEDGER_ACK (R374). -/
def Dev.ledgerAck (d : Dev) (pf v : Nat) : Dev :=
  if d.flag F.QE_LEDGER_STATUS_UNACKED pf ∧ v = d.rd .QE_LEDGER_SEQ pf then d.put F.QE_LEDGER_STATUS_UNACKED pf 0
  else d.ignored .QE_LEDGER_ACK pf cACK_MISMATCH

/-! ### The instance window's result (R399) -/

/-- A command of the instance window of a PF completes: status, failing kind, generation of the instance. -/
def Dev.iwDone (d : Dev) (pf status inst : Nat) (kind : Nat := 0) : Dev :=
  d.winDone (.iw (Fin.ofNat 4 pf)) [(0x020, status + kind % 16 * 2 ^ 8 + d.gen inst * 2 ^ 32)]

/-- A command of the migration window completes (R417): its result bytes from 0x200 on, and MIG_DONE. -/
def Dev.mwDone (d : Dev) (pf inst opc status : Nat) (more : List (Nat × Nat) := []) : Dev :=
  let d := d.winDone (.mw (Fin.ofNat 4 pf)) ((0x200, status) :: more)
  d.raiseInst 0x021 pf inst (status + opc * 256)

/-! ### The reset point (R58, R339, R403) -/

/-- The accepted items of an instance (R340): those from its queues, and those whose primary copy is bound for its
receive queues. -/
def Dev.instItems (d : Dev) (inst : Nat) : List Nat :=
  (d.itemList.filter fun x =>
    (x.tok.source == 4 && x.tok.inst == inst) ||
      (match x.copies with | k :: _ => k.dtype == 1 && d.ownsRange inst 0 k.dest | [] => false)).map (·.tok.stamp)

/-- R58 on a host item whose outcome is not recorded: DONE stands, any other is ABORTED_BY_RESET; it is recorded. -/
def Dev.abortHostItem (d : Dev) (st : Nat) : Dev :=
  match d.item st with
  | none => d
  | some x =>
    if x.recorded then d
    else
      let x' := if x.disp = some (0, 0) then x else { x with disp := none }
      ((d.setItem st x').abortItem st).recordItem st

/-- A queue at the reset point: its journal's outcomes are counted and its contexts forgotten. -/
def Dev.wipeQueue (d : Dev) (inst q : Nat) : Dev :=
  let pend := (d.q q).pend
  let d := (d.cancelReads fun o => o.fetches q).setQ q {}
  pend.foldl (fun d p =>
    if p.kind = 0 then d.abortHostItem p.stamp
    else if p.kind = 1 then d.countDisp 4 0 inst 3
    else match p.item with | some (st, c) => d.endCopy st c | none => d) d

/-- The registers of an instance's own view (R339, R403): queue, CQ, EQ and NVMe/TCP contexts, event routes and moderation,
the last doorbell reject, mailboxes and the migration state. -/
def Dev.resetViews (d : Dev) (inst : Nat) : Dev :=
  let qs := d.ownsRange inst 0
  let cqs := d.ownsRange inst 1
  let eqs := d.ownsRange inst 2
  let cs := d.ownsRange inst 5
  let h := d.hst
  let h := { h with
    conns := ⟨h.conns.cells.filter fun c => !cs c.1⟩,
    qs := ⟨h.qs.cells.filter fun c => !qs c.1⟩,
    cqFull := h.cqFull.filter fun c => !cqs c,
    vecs := ⟨h.vecs.cells.filter fun c => c.1 / 2048 != inst⟩,
    migs := h.migs.set inst {} }
  let d : Dev := { d with hst := h }
  d.resetRegs fun r k => match r with
    | .QE_QCTX_CFG | .QE_QCTX_ARB | .QE_QCTX_STATE | .QE_QCTX_CTL | .QE_QCTX_BASE | .QE_QCTX_HWB | .QE_QCTX_PI | .QE_QCTX_CI
    | .QE_QCTX_DONE => qs k
    | .QE_CQCTX_BASE | .QE_CQCTX_CFG | .QE_CQCTX_FLAGS | .QE_CQCTX_STATE => cqs k
    | .QE_EQCTX_BASE | .QE_EQCTX_CFG | .QE_EQCTX_FLAGS | .QE_EQCTX_STATE => eqs k
    | .NVME_CONN_CFG | .NVME_CONN_RESYNC => cs k
    | .EVT_IROUTE | .EVT_VF_VEC_MOD => k / 64 == inst
    | .EVT_VEC_MOD => k / 2048 == inst
    | .QE_DB_LAST_REJECT | .MIG_STATE => k == inst
    | _ => false

/-- Work of an instance that is tagged with a generation (Table 01-10): program tickets, operations, reads. -/
def Dev.inflight (d : Dev) (inst g : Nat) : Nat :=
  let tks := d.ths.cells.foldl (fun a c =>
    match c.2.stamp.bind d.item with
    | some x => if x.tok.inst = inst ∧ x.tok.gen = g then a + ((List.range 8).filter fun k => (c.2.tks.get k).st == 1).length else a
    | none => a) 0
  let own (o : DmaOp) : Bool := o.inst == inst && o.gen == g
  let ops := d.hst.chans.cells.foldl (fun a c => a + (c.2.ops.filter own).length) (d.hst.rdOps.filter own).length
  tks + ops + (d.hst.reads.filter fun r => r.tag.isSome && r.inst == inst && r.gen == g).length

/-- INFLIGHT of an instance: CUR and PREV (R396). -/
def Dev.inflightCur (d : Dev) (inst : Nat) : Nat := d.inflight inst (d.gen inst)
def Dev.inflightPrev (d : Dev) (inst : Nat) : Nat :=
  let g := (d.instX inst).pgen
  if g = 0 then 0 else d.inflight inst g

/-- An instance may reach a reset point: CREATED or ENABLED (R405). -/
def Dev.resettable (d : Dev) (inst : Nat) : Bool :=
  let st := d.get F.INST_STATE_STATE inst
  st == 2 || st == 3

/-- Migration work of an instance that has not left (R425): image writes and flush reads. -/
def DmaOp.migrates (o : DmaOp) (inst : Nat) : Bool :=
  match o.fin with | .image i | .migFlush i | .saveFlush i => i == inst | _ => false

/-- The migration work of an instance is dropped. -/
def Dev.dropMigOps (d : Dev) (inst : Nat) : Dev :=
  let d := d.cancelReads (·.migrates inst)
  let chans := d.hst.chans.mapListed fun _ (c : Chan) => { c with ops := c.ops.filter fun o => !o.migrates inst }
  { d with hst := { d.hst with chans := chans } }

/-- The reset point of an instance (R403). `next` is the state it enters: 4 DRAINING or 5 REMOVING. -/
def Dev.resetPoint (d : Dev) (inst next : Nat) : Dev :=
  if !d.resettable inst then d
  else
    let g := d.gen inst
    let old := d.get F.INST_STATE_STATE inst
    let sts := d.instItems inst
    let m := d.mig inst
    let d := d.put F.INST_STATE_GENERATION inst (nextGen g)
    let d := (d.instQs inst).foldl (fun d q => d.wipeQueue inst q) d
    let d := sts.foldl (fun d st => d.abortItem st) d
    let d := (((d.resetViews inst).mbxReset inst).resetSas inst).dropMigOps inst
    let x := d.instX inst
    let d := d.setInstX inst { x with drain := some (d.mono + 2000000), back := old, pgen := g, lastQ := none, credit := 0 }
    let d := (d.put F.INST_STATE_STATE inst next).put F.INST_STATE_HOLD inst 0
    match m.win with | some pf => d.mwDone pf inst m.opc 0x0C | none => d

/-- INSTANCE_RESET (R339, RESET): ledger and reset point. -/
def Dev.instanceReset (d : Dev) (inst next : Nat) : Dev :=
  if d.resettable inst then (d.resetLedger 1 inst [inst]).resetPoint inst next else d

/-- The instances of a PF: its own and its VFs'. -/
def Dev.pfInsts (d : Dev) (pf : Nat) : List Nat := pf :: (List.range (d.vfAllot pf)).map (d.firstVf pf + ·)

/-- An instance is removed once its drain ends: one in DRAINING turns to REMOVING (R405). -/
def Dev.toRemove (d : Dev) (inst : Nat) : Dev :=
  if d.get F.INST_STATE_STATE inst = 4 then d.put F.INST_STATE_STATE inst 5 else d.resetPoint inst 5

/-- A function that no longer exists and holds nothing is ABSENT (Table 17-3). -/
def Dev.fnExists (d : Dev) (inst : Nat) : Bool :=
  if inst < 4 then d.pfExists inst
  else let p := d.pfOf inst; (d.fn p).vfEn && decide (inst < d.firstVf p + (d.fn p).numVfs)

/-- VACANT instances whose functions have ceased to exist are ABSENT, and ABSENT ones whose functions exist are VACANT. -/
def Dev.showFns (d : Dev) (insts : List Nat) : Dev :=
  insts.foldl (fun d i =>
    let st := d.get F.INST_STATE_STATE i
    if st = 1 ∧ ¬ d.fnExists i then d.put F.INST_STATE_STATE i 0
    else if st = 0 ∧ d.fnExists i then d.put F.INST_STATE_STATE i 1 else d) d

/-- The registers of a PF that its FUNCTION_RESET resets: its rings, its ledger region and its moderation. -/
def Dev.resetPfRegs (d : Dev) (pf : Nat) : Dev :=
  d.resetRegs fun r k => match r with
    | .TABLE_NOTE_BASE | .TABLE_NOTE_CFG | .TABLE_NOTE_PI | .TABLE_NOTE_CI | .TABLE_BULK_BASE | .TABLE_BULK_CFG | .TABLE_BULK_PI
    | .TABLE_BULK_CI | .TABLE_BULK_STATUS | .CRYPTO_NOTE_BASE | .CRYPTO_NOTE_CFG | .CRYPTO_NOTE_PI | .CRYPTO_NOTE_CI
    | .QE_LEDGER_BASE | .QE_LEDGER_SIZE => k == pf
    | _ => false

/-- FUNCTION_RESET of a PF (R339, R344, R407): its VF instances and its own are removed, their resets recorded in one held
ledger, its registers reset and its key slots zeroized. Its configuration state is reset too. -/
def Dev.functionReset (d : Dev) (pf : Nat) : Dev :=
  let insts := d.pfInsts pf
  let d := d.resetLedger 2 pf (insts.filter d.resettable)
  let d := insts.foldl (fun d i => d.toRemove i) d
  let d := insts.foldl (fun d i => d.setFn i {}) d
  let d := ((d.resetPfRegs pf).put F.QE_LEDGER_STATUS_UNACKED pf 0).resetKeys pf
  d.showFns insts

/-! ### The end of a drain (R403, R406) -/

/-- The stragglers of a generation are retagged with generation 0. -/
def Dev.retag (d : Dev) (inst g : Nat) : Dev :=
  let op (o : DmaOp) : DmaOp := if o.inst = inst ∧ o.gen = g then { o with gen := 0 } else o
  let h := d.hst
  let h := { h with
    chans := h.chans.mapListed fun _ c => { c with ops := c.ops.map op },
    rdOps := h.rdOps.map op,
    reads := h.reads.map fun r => if r.inst = inst ∧ r.gen = g then { r with gen := 0 } else r }
  let items := d.items.mapListed fun _ x => x.map fun y =>
    if y.tok.inst = inst ∧ y.tok.gen = g then { y with tok := { y.tok with gen := 0 } } else y
  { d with hst := h, items := items }

/-- A removed instance frees what it holds (R406). -/
def Dev.freeInst (d : Dev) (inst : Nat) : Dev :=
  let pf := d.pfOf inst
  let d := (List.range 1024).foldl (fun d n =>
    if d.flag F.TABLE_DESC_CFG_VALID n && d.get F.TABLE_DESC_CFG_OWNER n == inst then d.put F.TABLE_DESC_CFG_OWNER n pf else d) d
  let d : Dev := { d with hst := { d.hst with live := d.hst.live.filter (· != inst), insts := d.hst.insts.set inst {} } }
  let d := d.resetRegs fun r k => match r with
    | .INST_RANGE => k / 16 == inst
    | .DMA_INST_CHAN | .TM_INST_NODE | .TM_RQ_QUEUE => k == inst
    | _ => false
  (d.unbindGone.put F.INST_STATE_STATE inst 1).raiseInst 0x020 pf inst 0

/-- The drain of an instance is over. -/
def Dev.endDrain (d : Dev) (inst : Nat) : Dev :=
  let st := d.get F.INST_STATE_STATE inst
  let x := d.instX inst
  let d := d.setFn inst { d.fn inst with flr := false }
  let d := if st = 5 then (d.freeInst inst).showFns [inst]
    else
      let nxt := if d.flag F.INST_STATE_HOLD inst then 2 else x.back
      let d := d.setInstX inst { x with drain := none, pgen := 0, window := none }
      ((d.put F.INST_STATE_STATE inst nxt).put F.INST_STATE_HOLD inst 0).startBuckets inst
  match x.window with
  | some (pf, _) => d.iwDone pf 0 inst
  | none => d

/-- The drain ends because nothing of the previous generation is left. -/
def Dev.drainOver (d : Dev) (inst : Nat) : Dev :=
  let st := d.get F.INST_STATE_STATE inst
  if (st = 4 ∨ st = 5) ∧ d.inflightPrev inst = 0 then d.endDrain inst else d

/-- The drain ends 2 ms after the reset point: what is left is retagged, and the forced end is counted for the PF. -/
def Dev.drainForced (d : Dev) (inst : Nat) : Dev :=
  let st := d.get F.INST_STATE_STATE inst
  match (d.instX inst).drain with
  | none => d
  | some t =>
    if (st = 4 ∨ st = 5) ∧ d.inflightPrev inst ≠ 0 then
      let d := ((d.reach t).retag inst (d.instX inst).pgen).count .INST_DRAIN_FORCED (d.pfOf inst)
      (d.fault 4 5 20 inst).endDrain inst
    else d

end Sys2Proof.Machine
end

