-- ==== Sys2Proof/Machine/Ngl.lean ====
section
/-!
DEFINITION. Nongoell (05): arithmetic, logic, bit fields, predicates, branches, and loads and stores.
-/
namespace Sys2Proof.Machine

/-- An R-format ALU instruction (R125): 64-bit, or with W = 1 on bits [31:0] with a zero-extended result. -/
def Dev.alu (d : Dev) (th : Fin 2048) (gd : Guard) (w : Bool) (rd ra rb : Fin 32)
    (f : Word → Word → Word) (f32 : BitVec 32 → BitVec 32 → BitVec 32) : Dev :=
  d.issue th.val 4 gd false fun d t =>
    let a := t.rg ra
    let b := t.rg rb
    .ok (t.wg rd (if w then (f32 (a.setWidth 32) (b.setWidth 32)).setWidth 64 else f a b)) d

/-- A one-operand instruction whose W = 1 form works on bits [31:0] (R125). -/
def Dev.alu1 (d : Dev) (th : Fin 2048) (gd : Guard) (w : Bool) (rd ra : Fin 32)
    (f : Word → Word) (f32 : BitVec 32 → BitVec 32) : Dev :=
  d.alu th gd w rd ra 0 (fun a _ => f a) (fun a _ => f32 a)

/-- An I-format arithmetic instruction (R125). -/
def Dev.aluI (d : Dev) (th : Fin 2048) (gd : Guard) (rd ra : Fin 32) (imm : ImmI) (illegal : Bool)
    (f : Word → Word) : Dev :=
  d.issue th.val imm.len gd illegal fun d t => .ok (t.wg rd (f (t.rg ra))) d

/-- SHI (R125). -/
def Dev.shi (d : Dev) (th : Fin 2048) (gd : Guard) (w : Bool) (rd ra : Fin 32) (amt : Fin 64)
    (f : Word → Nat → Word) (f32 : BitVec 32 → Nat → BitVec 32) : Dev :=
  d.issue th.val 4 gd (w && decide (32 ≤ amt.val)) fun d t =>
    let a := t.rg ra
    .ok (t.wg rd (if w then (f32 (a.setWidth 32) amt.val).setWidth 64 else f a amt.val)) d

/-- ADD (Table 05-5): ra + rb. -/
def execNgAdd (th : Fin 2048) (gd : Guard) (w : Bool) (rd ra rb : Fin 32) (s : State) : Res := s.on fun d =>
  d.alu th gd w rd ra rb (fun a b => a + b) (fun a b => a + b)

/-- SUB (Table 05-5): ra - rb. -/
def execNgSub (th : Fin 2048) (gd : Guard) (w : Bool) (rd ra rb : Fin 32) (s : State) : Res := s.on fun d =>
  d.alu th gd w rd ra rb (fun a b => a - b) (fun a b => a - b)

/-- AND (Table 05-5): ra & rb. -/
def execNgAnd (th : Fin 2048) (gd : Guard) (w : Bool) (rd ra rb : Fin 32) (s : State) : Res := s.on fun d =>
  d.alu th gd w rd ra rb (fun a b => a &&& b) (fun a b => a &&& b)

/-- OR (Table 05-5): ra | rb. -/
def execNgOr (th : Fin 2048) (gd : Guard) (w : Bool) (rd ra rb : Fin 32) (s : State) : Res := s.on fun d =>
  d.alu th gd w rd ra rb (fun a b => a ||| b) (fun a b => a ||| b)

/-- XOR (Table 05-5): ra ^ rb. -/
def execNgXor (th : Fin 2048) (gd : Guard) (w : Bool) (rd ra rb : Fin 32) (s : State) : Res := s.on fun d =>
  d.alu th gd w rd ra rb (fun a b => a ^^^ b) (fun a b => a ^^^ b)

/-- ANDN (Table 05-5): ra & ~rb. -/
def execNgAndn (th : Fin 2048) (gd : Guard) (w : Bool) (rd ra rb : Fin 32) (s : State) : Res := s.on fun d =>
  d.alu th gd w rd ra rb (fun a b => a &&& ~~~b) (fun a b => a &&& ~~~b)

/-- SHL (Table 05-5): ra shifted left by rb[5:0] (W: rb[4:0]). -/
def execNgShl (th : Fin 2048) (gd : Guard) (w : Bool) (rd ra rb : Fin 32) (s : State) : Res := s.on fun d =>
  d.alu th gd w rd ra rb (fun a b => a <<< (b.toNat % 64)) (fun a b => a <<< (b.toNat % 32))

/-- SHR (Table 05-5): logical right shift. -/
def execNgShr (th : Fin 2048) (gd : Guard) (w : Bool) (rd ra rb : Fin 32) (s : State) : Res := s.on fun d =>
  d.alu th gd w rd ra rb (fun a b => a >>> (b.toNat % 64)) (fun a b => a >>> (b.toNat % 32))

/-- SAR (Table 05-5): arithmetic right shift. -/
def execNgSar (th : Fin 2048) (gd : Guard) (w : Bool) (rd ra rb : Fin 32) (s : State) : Res := s.on fun d =>
  d.alu th gd w rd ra rb (fun a b => a.sshiftRight (b.toNat % 64)) (fun a b => a.sshiftRight (b.toNat % 32))

/-- ROL (Table 05-5): rotate left. -/
def execNgRol (th : Fin 2048) (gd : Guard) (w : Bool) (rd ra rb : Fin 32) (s : State) : Res := s.on fun d =>
  d.alu th gd w rd ra rb (fun a b => a.rotateLeft (b.toNat % 64)) (fun a b => a.rotateLeft (b.toNat % 32))

/-- MIN (Table 05-5): signed minimum. -/
def execNgMin (th : Fin 2048) (gd : Guard) (w : Bool) (rd ra rb : Fin 32) (s : State) : Res := s.on fun d =>
  d.alu th gd w rd ra rb (fun a b => if a.slt b then a else b) (fun a b => if a.slt b then a else b)

/-- MAX (Table 05-5): signed maximum. -/
def execNgMax (th : Fin 2048) (gd : Guard) (w : Bool) (rd ra rb : Fin 32) (s : State) : Res := s.on fun d =>
  d.alu th gd w rd ra rb (fun a b => if a.slt b then b else a) (fun a b => if a.slt b then b else a)

/-- MINU (Table 05-5): unsigned minimum. -/
def execNgMinu (th : Fin 2048) (gd : Guard) (w : Bool) (rd ra rb : Fin 32) (s : State) : Res := s.on fun d =>
  d.alu th gd w rd ra rb (fun a b => if a.ult b then a else b) (fun a b => if a.ult b then a else b)

/-- MAXU (Table 05-5): unsigned maximum. -/
def execNgMaxu (th : Fin 2048) (gd : Guard) (w : Bool) (rd ra rb : Fin 32) (s : State) : Res := s.on fun d =>
  d.alu th gd w rd ra rb (fun a b => if a.ult b then b else a) (fun a b => if a.ult b then b else a)

/-- MUL (Table 05-5): the low half of the product. -/
def execNgMul (th : Fin 2048) (gd : Guard) (w : Bool) (rd ra rb : Fin 32) (s : State) : Res := s.on fun d =>
  d.alu th gd w rd ra rb (fun a b => a * b) (fun a b => a * b)

/-- MULHU (Table 05-5): the high half of the unsigned product. -/
def execNgMulhu (th : Fin 2048) (gd : Guard) (w : Bool) (rd ra rb : Fin 32) (s : State) : Res := s.on fun d =>
  d.alu th gd w rd ra rb (fun a b => BitVec.ofNat 64 (a.toNat * b.toNat / 2 ^ 64)) (fun a b => BitVec.ofNat 32 (a.toNat * b.toNat / 2 ^ 32))

/-- DIVU (Table 05-5): unsigned quotient; all ones when rb = 0. -/
def execNgDivu (th : Fin 2048) (gd : Guard) (w : Bool) (rd ra rb : Fin 32) (s : State) : Res := s.on fun d =>
  d.alu th gd w rd ra rb (fun a b => if b = 0 then BitVec.allOnes 64 else a / b) (fun a b => if b = 0 then BitVec.allOnes 32 else a / b)

/-- REMU (Table 05-5): unsigned remainder; ra when rb = 0. -/
def execNgRemu (th : Fin 2048) (gd : Guard) (w : Bool) (rd ra rb : Fin 32) (s : State) : Res := s.on fun d =>
  d.alu th gd w rd ra rb (fun a b => if b = 0 then a else a % b) (fun a b => if b = 0 then a else a % b)

/-- ADDI (R125): ra combined with the immediate, sign-extended. -/
def execNgAddi (th : Fin 2048) (gd : Guard) (rd ra : Fin 32) (imm : ImmI) (s : State) : Res := s.on fun d =>
  d.aluI th gd rd ra imm false fun a => let b := imm.sext; a + b

/-- ANDI (R125): ra combined with the immediate, zero-extended. -/
def execNgAndi (th : Fin 2048) (gd : Guard) (rd ra : Fin 32) (imm : ImmI) (s : State) : Res := s.on fun d =>
  d.aluI th gd rd ra imm false fun a => let b := imm.zext; a &&& b

/-- ORI (R125): ra combined with the immediate, zero-extended. -/
def execNgOri (th : Fin 2048) (gd : Guard) (rd ra : Fin 32) (imm : ImmI) (s : State) : Res := s.on fun d =>
  d.aluI th gd rd ra imm false fun a => let b := imm.zext; a ||| b

/-- XORI (R125): ra combined with the immediate, zero-extended. -/
def execNgXori (th : Fin 2048) (gd : Guard) (rd ra : Fin 32) (imm : ImmI) (s : State) : Res := s.on fun d =>
  d.aluI th gd rd ra imm false fun a => let b := imm.zext; a ^^^ b

/-- MOVI (R125): the immediate, sign-extended. -/
def execNgMovi (th : Fin 2048) (gd : Guard) (rd : Fin 32) (imm : ImmI) (s : State) : Res := s.on fun d =>
  d.aluI th gd rd 0 imm false fun _ => imm.sext

/-- MOVHI (R125): imm[31:0] above the low half of ra; in the extended form bits [33:32] must be 0, or ILLEGAL. -/
def execNgMovhi (th : Fin 2048) (gd : Guard) (rd ra : Fin 32) (imm : ImmI) (s : State) : Res := s.on fun d =>
  d.aluI th gd rd ra imm (decide (2 ^ 32 ≤ imm.zext.toNat)) fun a =>
    (a &&& 0xFFFFFFFF#64) ||| (imm.zext <<< 32)

/-- SHI SHL (R125): by the amount; W = 1 works on 32 bits and requires amount bit 5 to be 0, or ILLEGAL. -/
def execNgShiShl (th : Fin 2048) (gd : Guard) (w : Bool) (rd ra : Fin 32) (amt : Fin 64) (s : State) : Res := s.on fun d =>
  d.shi th gd w rd ra amt (fun a n => a <<< n) (fun a n => a <<< n)

/-- SHI SHR (R125): by the amount; W = 1 works on 32 bits and requires amount bit 5 to be 0, or ILLEGAL. -/
def execNgShiShr (th : Fin 2048) (gd : Guard) (w : Bool) (rd ra : Fin 32) (amt : Fin 64) (s : State) : Res := s.on fun d =>
  d.shi th gd w rd ra amt (fun a n => a >>> n) (fun a n => a >>> n)

/-- SHI SAR (R125): by the amount; W = 1 works on 32 bits and requires amount bit 5 to be 0, or ILLEGAL. -/
def execNgShiSar (th : Fin 2048) (gd : Guard) (w : Bool) (rd ra : Fin 32) (amt : Fin 64) (s : State) : Res := s.on fun d =>
  d.shi th gd w rd ra amt (fun a n => a.sshiftRight n) (fun a n => a.sshiftRight n)

/-- SHI ROL (R125): by the amount; W = 1 works on 32 bits and requires amount bit 5 to be 0, or ILLEGAL. -/
def execNgShiRol (th : Fin 2048) (gd : Guard) (w : Bool) (rd ra : Fin 32) (amt : Fin 64) (s : State) : Res := s.on fun d =>
  d.shi th gd w rd ra amt (fun a n => a.rotateLeft n) (fun a n => a.rotateLeft n)

/-- PRD (Table 05-5): the predicate byte, bit 0 reading 1. -/
def execNgPrd (th : Fin 2048) (gd : Guard) (rd : Fin 32) (s : State) : Res := s.on fun d =>
  d.issue th.val 4 gd false fun d t => .ok (t.wg rd (BitVec.ofNat 64 (setBits (t.p % 256) 0 1 1))) d

/-- PWR (Table 05-5): p1 to p7 = ra[7:1]. -/
def execNgPwr (th : Fin 2048) (gd : Guard) (ra : Fin 32) (s : State) : Res := s.on fun d =>
  d.issue th.val 4 gd false fun d t => .ok { t with p := setBits ((t.rg ra).toNat % 256) 0 1 0 } d

/-! ### Compares and predicates -/

/-- The conditions of Table 05-7, on values of one width. -/
def cmpCond {n : Nat} (c : Fin 8) (a b : BitVec n) : Bool :=
  match c with
  | 0 => a == b
  | 1 => a != b
  | 2 => a.slt b
  | 3 => !a.slt b
  | 4 => a.ult b
  | 5 => !a.ult b
  | 6 => (a &&& b) != 0
  | 7 => (a &&& b) == 0

/-- A condition with its W bit (R126). -/
def cmpVal (w : Bool) (c : Fin 8) (a b : Word) : Bool :=
  if w then cmpCond c (a.setWidth 32) (b.setWidth 32) else cmpCond c a b

/-- The MODE of a compare (R126): 0 SET, 1 AND, 2 OR. -/
def cmpMode (m : Fin 3) (old c : Bool) : Bool :=
  match m with
  | 0 => c
  | 1 => old && c
  | 2 => old || c

/-- CMP (R126). -/
def execNgCmp (th : Fin 2048) (gd : Guard) (w : Bool) (mode : Fin 3) (cond pd : Fin 8) (ra rb : Fin 32)
    (s : State) : Res := s.on fun d =>
  d.issue th.val 4 gd false fun d t =>
    .ok (t.wp pd (cmpMode mode (t.rp pd) (cmpVal w cond (t.rg ra) (t.rg rb)))) d

/-- CMPI (R126). -/
def execNgCmpi (th : Fin 2048) (gd : Guard) (w : Bool) (mode : Fin 3) (cond pd : Fin 8) (ra : Fin 32) (imm : ImmC)
    (s : State) : Res := s.on fun d =>
  d.issue th.val imm.len gd false fun d t =>
    .ok (t.wp pd (cmpMode mode (t.rp pd) (cmpVal w cond (t.rg ra) imm.sext))) d

/-- PLOG (R127): 0 AND, 1 OR, 2 XOR, 3 ANDN. -/
def execNgPlog (th : Fin 2048) (gd : Guard) (pop : Fin 4) (pd pa pb : Fin 8) (s : State) : Res := s.on fun d =>
  d.issue th.val 4 gd false fun d t =>
    let a := t.rp pa
    let b := t.rp pb
    .ok (t.wp pd (match pop with | 0 => a && b | 1 => a || b | 2 => a != b | 3 => a && !b)) d

/-! ### Bit fields and bit operations -/

/-- POS + WIDTH passes bit 63 (R118, R125); `wm1` is WIDTH - 1. -/
def fieldBad (pos wm1 : Fin 64) : Bool := decide (64 < pos.val + wm1.val + 1)

/-- EXTU (R125). -/
def execNgExtu (th : Fin 2048) (gd : Guard) (rd ra : Fin 32) (pos wm1 : Fin 64) (s : State) : Res := s.on fun d =>
  d.issue th.val 4 gd (fieldBad pos wm1) fun d t =>
    .ok (t.wg rd (BitVec.ofNat 64 ((t.rg ra).toNat / 2 ^ pos.val % 2 ^ (wm1.val + 1)))) d

/-- EXTS (R125): as EXTU, then the top bit of the field is copied upward. -/
def execNgExts (th : Fin 2048) (gd : Guard) (rd ra : Fin 32) (pos wm1 : Fin 64) (s : State) : Res := s.on fun d =>
  d.issue th.val 4 gd (fieldBad pos wm1) fun d t =>
    .ok (t.wg rd (((t.rg ra) <<< (63 - pos.val - wm1.val)).sshiftRight (63 - wm1.val))) d

/-- INS (R125): also reads rd. -/
def execNgIns (th : Fin 2048) (gd : Guard) (rd ra : Fin 32) (pos wm1 : Fin 64) (s : State) : Res := s.on fun d =>
  d.issue th.val 4 gd (fieldBad pos wm1) fun d t =>
    .ok (t.wg rd (BitVec.ofNat 64 (setBits (t.rg rd).toNat pos.val (wm1.val + 1) (t.rg ra).toNat))) d

/-- BSWAP16 (Table 05-6). -/
def execNgBswap16 (th : Fin 2048) (gd : Guard) (w : Bool) (rd ra : Fin 32) (s : State) : Res := s.on fun d =>
  d.alu1 th gd w rd ra (fun a => BitVec.ofNat 64 (beNat (toLe 2 a.toNat))) (fun a => BitVec.ofNat 32 (beNat (toLe 2 a.toNat)))

/-- BSWAP32 (Table 05-6). -/
def execNgBswap32 (th : Fin 2048) (gd : Guard) (w : Bool) (rd ra : Fin 32) (s : State) : Res := s.on fun d =>
  d.alu1 th gd w rd ra (fun a => BitVec.ofNat 64 (beNat (toLe 4 a.toNat))) (fun a => BitVec.ofNat 32 (beNat (toLe 4 a.toNat)))

/-- BSWAP64 (Table 05-6); its W bit must be 0. -/
def execNgBswap64 (th : Fin 2048) (gd : Guard) (rd ra : Fin 32) (s : State) : Res := s.on fun d =>
  d.alu1 th gd false rd ra (fun a => BitVec.ofNat 64 (beNat (toLe 8 a.toNat))) (fun a => a)

/-- Leading zero bits of `v` in `n` bits. -/
def clzNat (n v : Nat) : Nat := ((List.range n).reverse.takeWhile fun i => !v.testBit i).length

/-- Trailing zero bits of `v` in `n` bits. -/
def ctzNat (n v : Nat) : Nat := ((List.range n).takeWhile fun i => !v.testBit i).length

/-- One bits of `v` in `n` bits. -/
def popcNat (n v : Nat) : Nat := ((List.range n).filter fun i => v.testBit i).length

/-- CLZ (Table 05-6): 64 (W: 32) for 0. -/
def execNgClz (th : Fin 2048) (gd : Guard) (w : Bool) (rd ra : Fin 32) (s : State) : Res := s.on fun d =>
  d.alu1 th gd w rd ra (fun a => BitVec.ofNat 64 (clzNat 64 a.toNat)) (fun a => BitVec.ofNat 32 (clzNat 32 a.toNat))

/-- CTZ (Table 05-6): 64 (W: 32) for 0. -/
def execNgCtz (th : Fin 2048) (gd : Guard) (w : Bool) (rd ra : Fin 32) (s : State) : Res := s.on fun d =>
  d.alu1 th gd w rd ra (fun a => BitVec.ofNat 64 (ctzNat 64 a.toNat)) (fun a => BitVec.ofNat 32 (ctzNat 32 a.toNat))

/-- POPC (Table 05-6). -/
def execNgPopc (th : Fin 2048) (gd : Guard) (w : Bool) (rd ra : Fin 32) (s : State) : Res := s.on fun d =>
  d.alu1 th gd w rd ra (fun a => BitVec.ofNat 64 (popcNat 64 a.toNat)) (fun a => BitVec.ofNat 32 (popcNat 32 a.toNat))

/-- A CRC32C update of ra[31:0] with the low `k` bytes of rb, least significant first (Table 05-6). -/
def Dev.crc (d : Dev) (th : Fin 2048) (gd : Guard) (rd ra rb : Fin 32) (k : Nat) : Dev :=
  d.alu th gd false rd ra rb (fun a b => BitVec.ofNat 64 (crcBytes (a.toNat % 2 ^ 32) (toLe k b.toNat))) (fun a _ => a)

/-- CRC32C.B (Table 05-6). -/
def execNgCrc32cB (th : Fin 2048) (gd : Guard) (rd ra rb : Fin 32) (s : State) : Res := s.on fun d =>
  d.crc th gd rd ra rb 1

/-- CRC32C.W (Table 05-6). -/
def execNgCrc32cW (th : Fin 2048) (gd : Guard) (rd ra rb : Fin 32) (s : State) : Res := s.on fun d =>
  d.crc th gd rd ra rb 4

/-- CRC32C.D (Table 05-6). -/
def execNgCrc32cD (th : Fin 2048) (gd : Guard) (rd ra rb : Fin 32) (s : State) : Res := s.on fun d =>
  d.crc th gd rd ra rb 8

/-- CSADD (Table 05-6): the 64-bit ones'-complement sum, with end-around carry. -/
def execNgCsadd (th : Fin 2048) (gd : Guard) (rd ra rb : Fin 32) (s : State) : Res := s.on fun d =>
  d.alu th gd false rd ra rb
    (fun a b => BitVec.ofNat 64 ((a.toNat + b.toNat) % 2 ^ 64 + (a.toNat + b.toNat) / 2 ^ 64)) (fun a _ => a)

/-- Ones'-complement addition of two 16-bit numbers. -/
def oc16 (a b : Nat) : Nat := (a + b) % 65536 + (a + b) / 65536

/-- A number folded to 16 bits by ones'-complement addition (Table 05-6). -/
def csfold (k v : Nat) : Nat := (List.range k).foldl (fun acc i => oc16 acc (v / 65536 ^ i % 65536)) 0

/-- CSFOLD (Table 05-6). -/
def execNgCsfold (th : Fin 2048) (gd : Guard) (w : Bool) (rd ra : Fin 32) (s : State) : Res := s.on fun d =>
  d.alu1 th gd w rd ra (fun a => BitVec.ofNat 64 (csfold 4 a.toNat)) (fun a => BitVec.ofNat 32 (csfold 2 a.toNat))

/-- SEL (R125): FN[2:0] the predicate, FN[3] its negation. -/
def execNgSel (th : Fin 2048) (gd : Guard) (n : Fin 8) (neg : Bool) (rd ra rb : Fin 32) (s : State) : Res := s.on fun d =>
  d.issue th.val 4 gd false fun d t => .ok (t.wg rd (if t.rp n != neg then t.rg ra else t.rg rb)) d

/-! ### Branches (R128) -/

/-- A taken branch: BRANCH where the target is outside 0 to CODE_SIZE - 4 or not a multiple of 4. -/
def branchTo (t : Thread) (target : Word) (d : Dev) : Iss :=
  if target.toNat % 4 = 0 ∧ target.toNat + 4 ≤ t.code then .ok { t with pc := target.toNat } d else .trap kBRANCH

/-- BR: target = PC + 4 × sext(OFF22). -/
def execNgBr (th : Fin 2048) (gd : Guard) (off : BitVec 22) (s : State) : Res := s.on fun d =>
  d.issue th.val 4 gd false fun d t => branchTo t (BitVec.ofNat 64 (t.pc - 4) + (off.signExtend 64 <<< 2)) d

/-- CALL: as BR, and g31 = PC + 4. -/
def execNgCall (th : Fin 2048) (gd : Guard) (off : BitVec 22) (s : State) : Res := s.on fun d =>
  d.issue th.val 4 gd false fun d t =>
    branchTo (t.wg 31 (BitVec.ofNat 64 t.pc)) (BitVec.ofNat 64 (t.pc - 4) + (off.signExtend 64 <<< 2)) d

/-- JR: target = ra + 4 × sext(IMM12), ra taken before rd = PC + 4 is written. -/
def execNgJr (th : Fin 2048) (gd : Guard) (rd ra : Fin 32) (imm : BitVec 12) (s : State) : Res := s.on fun d =>
  d.issue th.val 4 gd false fun d t =>
    branchTo (t.wg rd (BitVec.ofNat 64 t.pc)) (t.rg ra + (imm.signExtend 64 <<< 2)) d

/-! ### LOCAL and packet memory (R93, R94, R129, R130) -/

/-- The LOCAL region that holds `[a, a + n)`: `some true` private, `some false` shared (Table 04-2). -/
def localRegion (a n : Nat) : Option Bool :=
  if a + n ≤ 0x2000 then some true
  else if 0x100000 ≤ a ∧ a + n ≤ 0x200000 then some false
  else none

/-- One byte of LOCAL as thread `th` reads it. -/
def Dev.localByte (d : Dev) (th : Nat) (t : Thread) (a : Nat) : Nat :=
  if a < 0x2000 then t.loc.get a else d.shl.get (th / 128 * 2 ^ 20 + (a - 0x100000))

/-- `n` bytes of LOCAL from `a`. -/
def Dev.localBytes (d : Dev) (th : Nat) (t : Thread) (a n : Nat) : List Nat :=
  (List.range n).map fun i => d.localByte th t (a + i)

/-- Write bytes to private LOCAL from `a`. -/
def Thread.putLocal (t : Thread) (a : Nat) (l : List Nat) : Thread :=
  { t with loc := (l.foldl (fun (x : Nat × Tbl Nat) b => (x.1 + 1, x.2.set x.1 (b % 256))) (a, t.loc)).2 }

/-- LDL (R129). -/
def execNgLdl (th : Fin 2048) (gd : Guard) (sz : Fin 4) (sx : Bool) (rd ra : Fin 32) (off : ImmL) (s : State) : Res :=
  s.on fun d =>
  d.issue th.val off.len gd false fun d t =>
    let a := (t.rg ra + off.sext).toNat
    let n := 2 ^ sz.val
    match localRegion a n with
    | none => .trap kACCESS
    | some _ =>
      if a % n ≠ 0 then .trap kALIGN
      else
        let v := leNat (d.localBytes th.val t a n)
        .ok (t.wg rd (BitVec.ofNat 64 (if sx then unsigned 64 (signed (8 * n) v) else v))) d

/-- STL (R129): a store to the shared region raises ACCESS (R94). -/
def execNgStl (th : Fin 2048) (gd : Guard) (sz : Fin 4) (rs ra : Fin 32) (off : ImmL) (s : State) : Res :=
  s.on fun d =>
  d.issue th.val off.len gd false fun d t =>
    let a := (t.rg ra + off.sext).toNat
    let n := 2 ^ sz.val
    match localRegion a n with
    | some true => if a % n ≠ 0 then .trap kALIGN else .ok (t.putLocal a (toLe n (t.rg rs).toNat)) d
    | _ => .trap kACCESS

/-- LDP (R130): a load whose last byte lies at 0x200 or beyond raises ACCESS. -/
def execNgLdp (th : Fin 2048) (gd : Guard) (sz : Fin 4) (be : Bool) (rd ra : Fin 32) (off : Fin 512) (s : State) : Res :=
  s.on fun d =>
  d.issue th.val 4 gd false fun d t =>
    let a := (t.rg ra + BitVec.ofNat 64 off.val).toNat
    let n := 2 ^ sz.val
    if 0x200 < a + n then .trap kACCESS
    else
      let l := (List.range n).map fun i => (d.itemOf t).pktByte (a + i)
      .ok (t.wg rd (BitVec.ofNat 64 (if be then beNat l else leNat l))) d

end Sys2Proof.Machine
end

