-- ==== Sys2Proof/Machine/Ngl2.lean ====
section
/-!
DEFINITION. Nongoell (05): tickets, unit instructions, time, the edit list, staging, END, and the supervisor and handler
instructions.
-/
namespace Sys2Proof.Machine

/-- The first fault kind whose condition holds, the conditions in the order of R121. -/
def firstFault : List (Bool × Nat) → Option Nat
  | [] => none
  | (c, k) :: t => if c then some k else firstFault t

/-- An instruction that checks faults in the order of R121 and then completes. -/
def checked (l : List (Bool × Nat)) (r : Iss) : Iss :=
  match firstFault l with
  | some k => .trap k
  | none => r

/-- A destination of a ticket: wholly in private LOCAL (ACCESS otherwise) and 8-aligned (ALIGN otherwise) (R132). -/
def dstFaults (a n : Nat) : List (Bool × Nat) :=
  [(localRegion a n != some true, kACCESS), (a % 8 != 0, kALIGN)]

/-- A LOCAL range that an instruction copies at issue: wholly in one region, and 8-aligned where its rule asks (R139,
R173). -/
def srcFaults (a n : Nat) (aligned : Bool) : List (Bool × Nat) :=
  [((localRegion a n).isNone, kACCESS), (aligned && a % 8 != 0, kALIGN)]

/-- Order a list of conditions by the precedence of R121. -/
def byPrecedence (l : List (Bool × Nat)) : List (Bool × Nat) :=
  [kILLEGAL, kPRIVILEGE, kTICKET, kISOLATION, kACCESS, kALIGN, kBRANCH, kBAD_OPERAND, kEDIT_OVERFLOW, kDUP_DISCARD,
   kBAD_VERDICT, kEFFECT_OVERFLOW].flatMap fun k => l.filter fun c => c.2 == k

/-- Issue a ticketed instruction (R131): only on an IDLE ticket, which becomes PENDING with the request. -/
def Dev.ticketed (d : Dev) (th : Fin 2048) (gd : Guard) (tk : Fin 8)
    (f : Dev → Thread → List (Bool × Nat) × TkReq × Nat) : Dev :=
  d.issue th.val 4 gd false fun d t =>
    let r := f d t
    checked (byPrecedence (((t.tk tk).st != 0, kTICKET) :: r.1))
      (.ok (t.setTk tk { st := 1, req := r.2.1, dst := r.2.2 }) d)

/-- The map entry of a TREF for the thread's slot, as it is current at issue (R108). -/
def Dev.tref (d : Dev) (t : Thread) (n : Fin 64) : TRef := d.trefs.get ((t.slot * 256 + (d.itemOf t).tok.ver) * 64 + n.val)

/-- LK and LKS (Table 05-10, R173, R175). -/
def Dev.lookupInsn (d : Dev) (th : Fin 2048) (gd : Guard) (shadow : Bool) (tk : Fin 8) (tref : Fin 64)
    (ra rb : Fin 32) : Dev :=
  d.ticketed th gd tk fun d t =>
    let r := d.tref t tref
    let n := r.table.getD 0
    let kl := d.get F.TABLE_DESC_CFG_KEY_LEN n
    let a := (t.rg ra).toNat
    let dst := (t.rg rb).toNat
    ((r.table.isNone || !r.rd, kISOLATION) :: srcFaults a kl true
        ++ dstFaults dst (d.get F.TABLE_DESC_CFG_RESULT_LEN n),
     .lk shadow n (d.localBytes th.val t a kl) dst, dst)

/-- LK: lookup. -/
def execNgLk (th : Fin 2048) (gd : Guard) (tk : Fin 8) (tref : Fin 64) (ra rb : Fin 32) (s : State) : Res := s.on fun d =>
  d.lookupInsn th gd false tk tref ra rb

/-- LKS: shadow lookup. -/
def execNgLks (th : Fin 2048) (gd : Guard) (tk : Fin 8) (tref : Fin 64) (ra rb : Fin 32) (s : State) : Res := s.on fun d =>
  d.lookupInsn th gd true tk tref ra rb

/-- LKC (R136): only on a READY ticket whose last request was an LKS; it becomes PENDING. -/
def execNgLkc (th : Fin 2048) (gd : Guard) (tk : Fin 8) (s : State) : Res := s.on fun d =>
  d.issue th.val 4 gd false fun d t =>
    let k := t.tk tk
    match k.st, k.req with
    | 2, .lk true _ _ _ => .ok (t.setTk tk { k with st := 1, req := .lkc, resp := none, sent := 0 }) d
    | _, _ => .trap kTICKET

/-- TRD: read of one entry by handle; a handle of another table raises ISOLATION, a reserved bit BAD_OPERAND (R176). -/
def execNgTrd (th : Fin 2048) (gd : Guard) (tk : Fin 8) (tref : Fin 64) (ra rb : Fin 32) (s : State) : Res := s.on fun d =>
  d.ticketed th gd tk fun d t =>
    let r := d.tref t tref
    let n := r.table.getD 0
    let h := (t.rg ra).toNat
    let dst := (t.rg rb).toNat
    ((r.table.isNone || !r.rd || bits h 28 10 != n, kISOLATION) :: (decide (2 ^ 40 ≤ h), kBAD_OPERAND)
        :: dstFaults dst (d.get F.TABLE_DESC_CFG_RESULT_LEN n),
     .trd n h dst, dst)

/-- REACH (R95). -/
def execNgReach (th : Fin 2048) (gd : Guard) (tk : Fin 8) (ra rb : Fin 32) (s : State) : Res := s.on fun d =>
  d.ticketed th gd tk fun _ t =>
    let dst := (t.rg ra).toNat
    let v := (t.rg rb).toNat
    let off := bits v 0 16
    let len := bits v 16 16
    ((decide (16382 < off ∨ len < 1 ∨ 512 < len ∨ 2 ^ 32 ≤ v), kBAD_OPERAND) :: dstFaults dst len,
     .reach off len dst, dst)

/-- HRD (Table 05-11): a TENANT slot's block INSTANCE is ignored. -/
def execNgHrd (th : Fin 2048) (gd : Guard) (tk : Fin 8) (ra rb : Fin 32) (s : State) : Res := s.on fun d =>
  let d := d.ticketed th gd tk fun d t =>
    let a := (t.rg ra).toNat
    let blk := d.localBytes th.val t a 16
    let w2 := leNat (slice blk 8 4)
    let len := bits w2 0 13
    let tenant := d.isTenant t
    let inst := if tenant then (d.itemOf t).tok.inst else bits w2 16 12
    let dst := (t.rg rb).toNat
    ((decide (len < 1 ∨ 4096 < len) || bits w2 13 3 != 0 || bits w2 28 4 != 0 || leNat (slice blk 12 4) != 0
        || (!tenant && decide (2051 < inst)), kBAD_OPERAND)
        :: srcFaults a 16 false ++ dstFaults dst len,
     .hrd inst (leNat (slice blk 0 8)) len dst, dst)
  d.startHrd th.val tk.val

/-- The faults of a CSR address operand (Table 05-12, R109): a TENANT slot, or a slot's access to islands 24 and 25, is
ISOLATION; a misaligned OFFSET is ALIGN; a reserved bit or a block above 37 is BAD_OPERAND. -/
def Dev.csrFaults (d : Dev) (th : Nat) (t : Thread) (v : Nat) (is64 : Bool) : List (Bool × Nat) :=
  let blk := bits v 32 6
  [(!d.isSup th && (d.isTenant t || decide (26 ≤ blk ∧ blk ≤ 37)), kISOLATION),
   (bits v 0 24 % (if is64 then 8 else 4) != 0, kALIGN),
   (bits v 24 8 != 0 || bits v 38 2 != 0 || bits v 52 12 != 0 || decide (37 < blk), kBAD_OPERAND)]

/-- CSRRD (Table 05-10): DATAPLANE slots and the supervisor only. -/
def execNgCsrrd (th : Fin 2048) (gd : Guard) (is32 : Bool) (tk : Fin 8) (ra rb : Fin 32) (s : State) : Res := s.on fun d =>
  d.ticketed th gd tk fun d t =>
    let v := (t.rg ra).toNat
    let dst := (t.rg rb).toNat
    (d.csrFaults th.val t v (!is32) ++ dstFaults dst 8,
     .csrrd (!is32) (bits v 32 6) (bits v 40 12) (bits v 0 24) dst, dst)

/-- A reserved bit is set in a VERDICT or SAQRY request (R297). -/
def verdictReserved (l : List Nat) : Bool :=
  decide (2 ^ 17 ≤ leNat (slice l 0 4)) || decide (2 ^ 14 ≤ leNat (slice l 4 4)) || decide (2 ^ 14 ≤ leNat (slice l 8 4))
    || decide (2 ^ 25 ≤ leNat (slice l 12 4)) || leNat (slice l 16 16) != 0

/-- VERDICT (R297, R302). -/
def execNgVerdict (th : Fin 2048) (gd : Guard) (tk : Fin 8) (ra rb : Fin 32) (s : State) : Res := s.on fun d =>
  d.ticketed th gd tk fun d t =>
    let a := (t.rg ra).toNat
    let l := d.localBytes th.val t a 32
    let w3 := leNat (slice l 12 4)
    let pdst := bits w3 0 16
    let plen := bits w3 16 9
    let dst := (t.rg rb).toNat
    ((d.isTenant t && !d.ownsSa (d.itemOf t).tok.inst (bits (leNat (slice l 0 4)) 0 16), kISOLATION)
        :: (verdictReserved l || decide (256 < plen) || decide ((d.itemOf t).tok.len < bits (leNat (slice l 8 4)) 0 14),
            kBAD_OPERAND)
        :: srcFaults a 32 false ++ dstFaults dst 32 ++ dstFaults pdst plen,
     .verdict l dst, dst)

/-- SAQRY (R297, R302): only word 0 [15:0] of its request is used. -/
def execNgSaqry (th : Fin 2048) (gd : Guard) (tk : Fin 8) (ra rb : Fin 32) (s : State) : Res := s.on fun d =>
  d.ticketed th gd tk fun d t =>
    let a := (t.rg ra).toNat
    let l := d.localBytes th.val t a 32
    let dst := (t.rg rb).toNat
    ((d.isTenant t && !d.ownsSa (d.itemOf t).tok.inst (bits (leNat (slice l 0 4)) 0 16), kISOLATION)
        :: (verdictReserved l, kBAD_OPERAND) :: srcFaults a 32 false ++ dstFaults dst 32,
     .saqry l dst, dst)

/-! ### TKOP (Table 05-8) -/

/-- The status word of a READY ticket: STATUS and AUX. -/
def Ticket.word (k : Ticket) : Word := BitVec.ofNat 64 (k.status % 16 + k.aux % 2 ^ 16 * 2 ^ 16)

/-- TKST and TKPEEK (R145): on a READY ticket the status word is written; a PENDING one puts the thread to sleep; an IDLE one
raises TICKET. -/
def Dev.tkWait (d : Dev) (th : Fin 2048) (gd : Guard) (tk : Fin 8) (rd : Fin 32) (peek : Bool) : Dev :=
  d.issue th.val 4 gd false fun d t =>
    let k := t.tk tk
    match k.st with
    | 0 => .trap kTICKET
    | 1 => .done ((d.setTh th.val { t with sleep := .ticket tk.val rd.val peek }).settleSlot (th.val / 8))
    | _ => .ok ((if peek then t else t.setTk tk {}).wg rd k.word) d

/-- TKST: the ticket becomes IDLE. -/
def execNgTkst (th : Fin 2048) (gd : Guard) (tk : Fin 8) (rd : Fin 32) (s : State) : Res := s.on fun d =>
  d.tkWait th gd tk rd false

/-- TKPEEK: the ticket stays READY. -/
def execNgTkpeek (th : Fin 2048) (gd : Guard) (tk : Fin 8) (rd : Fin 32) (s : State) : Res := s.on fun d =>
  d.tkWait th gd tk rd true

/-- TKTEST: pd = 1 if READY. -/
def execNgTktest (th : Fin 2048) (gd : Guard) (tk pd : Fin 8) (s : State) : Res := s.on fun d =>
  d.issue th.val 4 gd false fun d t => .ok (t.wp pd ((t.tk tk).st == 2)) d

/-- TKCAN: the ticket becomes IDLE from any state; a cancelled result is discarded (R92, R131). -/
def execNgTkcan (th : Fin 2048) (gd : Guard) (tk : Fin 8) (s : State) : Res := s.on fun d =>
  d.issue th.val 4 gd false fun d t => .ok (t.setTk tk {}) d

/-! ### Time and waiting (R137) -/

/-- RDDTB: the DTB in ns. -/
def execNgRddtb (th : Fin 2048) (gd : Guard) (rd : Fin 32) (s : State) : Res := s.on fun d =>
  d.issue th.val 4 gd false fun d t => .ok (t.wg rd (BitVec.ofNat 64 d.now)) d

/-- SETTC: TCMP = ra. -/
def execNgSettc (th : Fin 2048) (gd : Guard) (ra : Fin 32) (s : State) : Res := s.on fun d =>
  d.issue th.val 4 gd false fun d t => .ok { t with tcmp := (t.rg ra).toNat } d

/-- RDTC: rd = TCMP. -/
def execNgRdtc (th : Fin 2048) (gd : Guard) (rd : Fin 32) (s : State) : Res := s.on fun d =>
  d.issue th.val 4 gd false fun d t => .ok (t.wg rd (BitVec.ofNat 64 t.tcmp)) d

/-- The mask of READY tickets. -/
def Thread.readyMask (t : Thread) : Nat :=
  (List.range 8).foldl (fun a i => a + if (t.tks.get i).st = 2 then 2 ^ i else 0) 0

/-- The result of WAITT at this moment (R137, R148), or none while no condition holds. -/
def waittNow (now : Nat) (t : Thread) (mask : Nat) (event : Bool) : Option Nat :=
  let timer := decide (t.tcmp ≤ now)
  let tick := Nat.land t.readyMask mask != 0
  let ev := event && t.wake
  if timer || tick || ev then some (b2n timer + 2 * b2n tick + 4 * b2n ev + 256 * t.readyMask) else none

/-- Complete a WAITT: rd is written, and a wait on events clears the wake latch that it reports (R148). -/
def Thread.waittDone (t : Thread) (rd : Nat) (event : Bool) (v : Nat) : Thread :=
  let t := if event ∧ t.wake then { t with wake := false } else t
  { t.wg (Fin.ofNat 32 rd) (BitVec.ofNat 64 v) with sleep := .awake }

/-- WAITT: completes at once where a condition holds at issue, and otherwise sleeps. -/
def execNgWaitt (th : Fin 2048) (gd : Guard) (rd rb : Fin 32) (s : State) : Res := s.on fun d =>
  d.issue th.val 4 gd false fun d t =>
    let v := (t.rg rb).toNat
    let event := bit v 8
    if 2 ^ 9 ≤ v then .trap kBAD_OPERAND
    else match waittNow d.now t (v % 256) event with
      | some r => .ok (t.waittDone rd.val event r) d
      | none => .done ((d.setTh th.val { t with sleep := .waitt rd.val (v % 256) event }).settleSlot (th.val / 8))

/-! ### The edit list (R138) -/

/-- HAPP: appends the command at the LOCAL address in ra, with the edit data that SRC 2 names (R307, R308). An NVMe command
naming a context outside the instance's range raises ISOLATION (R317). -/
def execNgHapp (th : Fin 2048) (gd : Guard) (ra : Fin 32) (s : State) : Res := s.on fun d =>
  d.issue th.val 4 gd false fun d t =>
    let a := (t.rg ra).toNat
    let c := EditCmd.ofBytes (d.localBytes th.val t a 16)
    let takes := c.src == 2 && (c.cmd == ePUSH || c.cmd == eWRITE)
    let c := if takes then { c with data := d.localBytes th.val t (c.w1 % 2 ^ 21) c.len } else c
    let x := d.itemOf t
    let nv := c.cmd == eNVME_TX || c.cmd == eNVME_PLACE
    checked (byPrecedence
      [(nv && !d.ownsRange x.tok.inst 5 (c.w1 % 2 ^ 14), kISOLATION),
       ((localRegion a 16).isNone || (takes && (localRegion (c.w1 % 2 ^ 21) c.len).isNone), kACCESS),
       (a % 8 != 0, kALIGN),
       (happBad x t.edits c, kBAD_OPERAND),
       (decide (16 ≤ t.edits.length), kEDIT_OVERFLOW)])
      (.ok { t with edits := t.edits ++ [c] } d)

/-- HCLR: empties the list. -/
def execNgHclr (th : Fin 2048) (gd : Guard) (s : State) : Res := s.on fun d =>
  d.issue th.val 4 gd false fun d t => .ok { t with edits := [] } d

/-- HPOP: removes the last command; nothing on an empty list. -/
def execNgHpop (th : Fin 2048) (gd : Guard) (s : State) : Res := s.on fun d =>
  d.issue th.val 4 gd false fun d t => .ok { t with edits := t.edits.dropLast } d

/-! ### Staging (R139) -/

/-- The attempt ends (R140, R153): on a worker, END sends the batch; the supervisor has none and goes on. -/
def Dev.endInsn (d : Dev) (th : Nat) (t : Thread) : Iss :=
  if d.isSup th then .ok t d else .done ((d.setTh th t).endAttempt th t.effs (d.idleState th))

/-- Stage one effect: after the faults of the instruction, EFFECT_OVERFLOW where 32 records are staged (R101). `fin` ends
the attempt in the same issue (R140). -/
def Dev.stage (d : Dev) (th : Fin 2048) (gd : Guard) (fin illegal : Bool) (f : Dev → Thread → List (Bool × Nat) × Eff) :
    Dev :=
  d.issue th.val 4 gd illegal fun d t =>
    let r := f d t
    let t' := { t with effs := t.effs ++ [r.2] }
    checked (byPrecedence (r.1 ++ [(decide (32 ≤ t.effs.length), kEFFECT_OVERFLOW)]))
      (if fin then d.endInsn th.val t' else .ok t' d)

/-- The faults and effect of a TWR (R194, R195): `op` 0 INSERT, 1 MODIFY, 2 DELETE. -/
def Dev.tableWriteIns (d : Dev) (th : Fin 2048) (gd : Guard) (op : Nat) (tref : Fin 64) (ra rb : Fin 32) : Dev :=
  d.stage th gd false (op == 2 && rb != 0) fun d t =>
    let r := d.tref t tref
    let n := r.table.getD 0
    let ty := d.get F.TABLE_DESC_CFG_TYPE n
    let kl := d.get F.TABLE_DESC_CFG_KEY_LEN n
    let rl := d.get F.TABLE_DESC_CFG_RESULT_LEN n - 16
    let lpm := ty == 1 || ty == 2
    let a := (t.rg ra).toNat
    let b := (t.rg rb).toNat
    let plen := if lpm then d.localByte th.val t (a + kl) else 0
    let rec_ := decide (op < 2)
    ((r.table.isNone || !r.wr, kISOLATION)
      :: (decide (3 ≤ ty) || (rec_ && decide (64 < kl + rl)) || (ty == 1 && decide (32 < plen))
          || (ty == 2 && decide (128 < plen)) || d.get F.TABLE_DESC_CFG_SCOPE n == 1, kBAD_OPERAND)
      :: srcFaults a (kl + b2n lpm) true ++ (if rec_ then srcFaults b rl true else []),
     .tableWrite n op plen (d.localBytes th.val t a kl) (if rec_ then d.localBytes th.val t b rl else []))

/-- TWR INSERT. -/
def execNgTwrInsert (th : Fin 2048) (gd : Guard) (tref : Fin 64) (ra rb : Fin 32) (s : State) : Res := s.on fun d =>
  d.tableWriteIns th gd 0 tref ra rb

/-- TWR MODIFY. -/
def execNgTwrModify (th : Fin 2048) (gd : Guard) (tref : Fin 64) (ra rb : Fin 32) (s : State) : Res := s.on fun d =>
  d.tableWriteIns th gd 1 tref ra rb

/-- TWR DELETE: its RB field must be 0. -/
def execNgTwrDelete (th : Fin 2048) (gd : Guard) (tref : Fin 64) (ra : Fin 32) (s : State) : Res := s.on fun d =>
  d.tableWriteIns th gd 2 tref ra 0

/-- An amount outside 1 to 2^32 - 1 (Table 05-13). -/
def amountBad (v : Nat) : Bool := v == 0 || decide (2 ^ 32 ≤ v)

/-- CNTA ENTRY (R176, R197). -/
def execNgCntaEntry (th : Fin 2048) (gd : Guard) (tref : Fin 64) (ra rb : Fin 32) (s : State) : Res := s.on fun d =>
  d.stage th gd false false fun d t =>
    let r := d.tref t tref
    let n := r.table.getD 0
    let h := (t.rg ra).toNat
    let v := (t.rg rb).toNat
    ([(r.table.isNone || !r.wr || bits h 28 10 != n, kISOLATION),
      (decide (2 ^ 40 ≤ h) || amountBad v, kBAD_OPERAND)], .cntEntry n h v)

/-- CNTA PROG (R197): a TENANT slot reaches only its instance's program counters. -/
def execNgCntaProg (th : Fin 2048) (gd : Guard) (ra rb : Fin 32) (s : State) : Res := s.on fun d =>
  d.stage th gd false false fun d t =>
    let i := (t.rg ra).toNat
    let v := (t.rg rb).toNat
    ([(d.isTenant t && !d.ownsRange (d.itemOf t).tok.inst 4 i, kISOLATION),
      (decide (16383 < i) || amountBad v, kBAD_OPERAND)], .cntProg i v)

/-- ATOM (R180, Table 07-9). -/
def execNgAtom (th : Fin 2048) (gd : Guard) (tref : Fin 64) (ra : Fin 32) (s : State) : Res := s.on fun d =>
  d.stage th gd false false fun d t =>
    let r := d.tref t tref
    let n := r.table.getD 0
    let a := (t.rg ra).toNat
    let l := d.localBytes th.val t a 32
    let w0 := leNat (slice l 0 4)
    let h := leNat (slice l 8 8)
    let op := bits w0 0 4
    let sz := if bits w0 4 2 = 0 then 4 else 8
    let fo := bits w0 8 7
    ((r.table.isNone || !r.wr || bits h 28 10 != n, kISOLATION)
      :: (decide (6 < op) || decide (1 < bits w0 4 2) || bits w0 6 2 != 0 || decide (2 ^ 15 ≤ w0)
          || leNat (slice l 4 4) != 0 || decide (2 ^ 40 ≤ h) || fo % sz != 0
          || decide (d.get F.TABLE_DESC_CFG_RESULT_LEN n - 16 < fo + sz)
          || (op != 2 && leNat (slice l 24 8) != 0), kBAD_OPERAND)
      :: srcFaults a 32 true, .atomic n l)

/-- EMIT (Table 04-7, Table 05-13, R109, R294, R309, R316). -/
def Dev.emitInsn (d : Dev) (th : Fin 2048) (gd : Guard) (fin : Bool) (ra rb : Fin 32) : Dev :=
  d.stage th gd fin false fun d t =>
    let a := (t.rg ra).toNat
    let b := (t.rg rb).toNat
    let dest := bits a 0 17
    let ty := bits a 17 2
    let sa := bits b 0 16
    let sav := bit b 16
    let x := d.itemOf t
    let has (k : Nat) := t.edits.any (·.cmd == k)
    let len := editedLen x t.edits + (if sav then d.cryptoExpansion sa x t.edits else 0)
    let low := if ty = 0 then 14 else 1
    let high := if ty = 0 then 16379 else 16383
    ([(d.isTenant t && !d.tenantMayEmit x.tok.inst ty dest, kISOLATION),
      (d.isTenant t && sav && !d.ownsSa x.tok.inst sa, kISOLATION),
      (decide (2 ^ 19 ≤ a) || decide (2 ^ 17 ≤ b) || ty == 3 || (ty == 1 && decide (65535 < dest))
        || (ty == 2 && !d.groupDestOk dest)
        || (sav && (ty != 0 || !has eCRYPTO_MARK || !d.saDirOk (th.val / 128) sa t.edits))
        || ((has eTS_ORIGIN || has eTS_CORR || has eTS_CAPTURE || has eCRYPTO_MARK || has eNVME_TX) && ty != 0)
        || ((has eTS_ORIGIN || has eTS_CORR || has eTS_CAPTURE) && ty == 0 && decide (34 ≤ d.rootOfQueue dest))
        || (has eNVME_PLACE && ty != 1)
        || decide (len < low ∨ high < len), kBAD_OPERAND)],
     .emit dest ty sa sav fin t.edits)

/-- EMIT. -/
def execNgEmit (th : Fin 2048) (gd : Guard) (ra rb : Fin 32) (s : State) : Res := s.on fun d =>
  d.emitInsn th gd false ra rb

/-- EMIT with END. -/
def execNgEmitEnd (th : Fin 2048) (gd : Guard) (ra rb : Fin 32) (s : State) : Res := s.on fun d =>
  d.emitInsn th gd true ra rb

/-- An operand of DISC breaks R103: [7:0] SUBCODE, [10:8] DISP, [63:11] 0. -/
def discVerdictBad (v : Nat) : Bool :=
  bits v 8 3 != 1 || !(bits v 0 8 == 0 || decide (0x80 ≤ bits v 0 8))

/-- DISC (R103): a second DISCARD raises DUP_DISCARD. -/
def Dev.discInsn (d : Dev) (th : Fin 2048) (gd : Guard) (fin : Bool) (ra : Fin 32) : Dev :=
  d.stage th gd fin false fun _ t =>
    let v := (t.rg ra).toNat
    ([(decide (2 ^ 11 ≤ v), kBAD_OPERAND),
      (t.effs.any (fun e => match e with | .discard .. => true | _ => false), kDUP_DISCARD),
      (discVerdictBad v, kBAD_VERDICT)],
     .discard (bits v 8 3) (bits v 0 8) fin)

/-- DISC. -/
def execNgDisc (th : Fin 2048) (gd : Guard) (ra : Fin 32) (s : State) : Res := s.on fun d => d.discInsn th gd false ra

/-- DISC with END. -/
def execNgDiscEnd (th : Fin 2048) (gd : Guard) (ra : Fin 32) (s : State) : Res := s.on fun d => d.discInsn th gd true ra

/-- The fields of a DMA block (Table 16-6): address, LEN, INSTANCE, ITEM_OFF, and whether a reserved bit is set. -/
def dmaBlock (l : List Nat) : Nat × Nat × Nat × Nat × Bool :=
  let w2 := leNat (slice l 8 4)
  let w3 := leNat (slice l 12 4)
  (leNat (slice l 0 8), bits w2 0 14, bits w2 16 12, bits w3 0 14,
   bits w2 14 2 != 0 || bits w2 28 4 != 0 || decide (2 ^ 14 ≤ w3))

/-- DMAW IMMEDIATE (R394). -/
def execNgDmawImmediate (th : Fin 2048) (gd : Guard) (ra rb : Fin 32) (s : State) : Res := s.on fun d =>
  d.stage th gd false false fun d t =>
    let a := (t.rg ra).toNat
    let b := (t.rg rb).toNat
    let f := dmaBlock (d.localBytes th.val t a 16)
    let inst := if d.isTenant t then (d.itemOf t).tok.inst else f.2.2.1
    ((f.2.2.2.2 || decide (f.2.1 < 1 ∨ 16 < f.2.1) || decide (2051 < inst) || f.2.2.2.1 != 0, kBAD_OPERAND)
      :: srcFaults a 16 true ++ srcFaults b f.2.1 true,
     .dmaImm f.1 inst (d.localBytes th.val t b f.2.1))

/-- DMAW RANGE (R394): its RB field must be 0. -/
def execNgDmawRange (th : Fin 2048) (gd : Guard) (ra : Fin 32) (s : State) : Res := s.on fun d =>
  d.stage th gd false false fun d t =>
    let a := (t.rg ra).toNat
    let f := dmaBlock (d.localBytes th.val t a 16)
    let x := d.itemOf t
    let inst := if d.isTenant t then x.tok.inst else f.2.2.1
    ((f.2.2.2.2 || decide (f.2.1 < 1 ∨ 16383 < f.2.1) || decide (2051 < inst) || decide (x.tok.len < f.2.2.2.1 + f.2.1),
      kBAD_OPERAND) :: srcFaults a 16 true,
     .dmaRange f.1 f.2.1 inst f.2.2.2.1)

/-- MBXP (R436): RB is the mailbox selector. -/
def execNgMbxp (th : Fin 2048) (gd : Guard) (ra rb : Fin 32) (s : State) : Res := s.on fun d =>
  d.stage th gd false false fun d t =>
    let a := (t.rg ra).toNat
    let v := (t.rg rb).toNat
    let inst := if d.isTenant t then (d.itemOf t).tok.inst else bits v 0 12
    ((decide (2 ^ 13 ≤ v) || decide (2051 < inst), kBAD_OPERAND) :: srcFaults a 64 true,
     .mbox inst (bits v 12 1) (d.localBytes th.val t a 64))

/-- CSRW (Table 05-13): DATAPLANE slots only, and never a block of islands 24 and 25. -/
def execNgCsrw (th : Fin 2048) (gd : Guard) (is32 : Bool) (ra rb : Fin 32) (s : State) : Res := s.on fun d =>
  d.stage th gd false false fun d t =>
    let v := (t.rg ra).toNat
    (d.csrFaults th.val t v (!is32) ++ [(decide (26 ≤ bits v 32 6), kISOLATION)],
     .csr (!is32) (bits v 32 6) (bits v 40 12) (bits v 0 24)
       (if is32 then (t.rg rb).toNat % 2 ^ 32 else (t.rg rb).toNat))

/-- SAUP (R303): PN 0 raises BAD_OPERAND. -/
def execNgSaup (th : Fin 2048) (gd : Guard) (ra rb : Fin 32) (s : State) : Res := s.on fun d =>
  d.stage th gd false false fun d t =>
    let sa := (t.rg ra).toNat
    let pn := (t.rg rb).toNat
    ([(d.isTenant t && !d.ownsSa (d.itemOf t).tok.inst sa, kISOLATION), (decide (65535 < sa) || pn == 0, kBAD_OPERAND)],
     .saUpdate sa pn)

/-- EVT (R452): a number above 63 raises BAD_OPERAND. -/
def execNgEvt (th : Fin 2048) (gd : Guard) (ra : Fin 32) (s : State) : Res := s.on fun d =>
  d.stage th gd false false fun _ t =>
    let n := (t.rg ra).toNat
    ([(decide (63 < n), kBAD_OPERAND)], .event n)

/-- END (R140). -/
def execNgEnd (th : Fin 2048) (gd : Guard) (s : State) : Res := s.on fun d =>
  d.issue th.val 4 gd false fun d t => d.endInsn th.val t

/-! ### The supervisor (R141, R159) -/

/-- A supervisor instruction: PRIVILEGE elsewhere. -/
def Dev.supInsn (d : Dev) (th : Fin 2048) (gd : Guard) (f : Dev → Thread → Iss) : Dev :=
  d.issue th.val 4 gd false fun d t => if d.isSup th.val then f d t else .trap kPRIVILEGE

/-- FNPOP: the oldest note moves into the 32 bytes of LOCAL at ra and rd = 1; rd = 0 on an empty queue. -/
def execNgFnpop (th : Fin 2048) (gd : Guard) (rd ra : Fin 32) (s : State) : Res := s.on fun d =>
  d.supInsn th gd fun d t =>
    let p := th.val / 128
    let a := (t.rg ra).toNat
    checked (dstFaults a 32)
      (match (d.pod p).notes with
       | [] => .ok (t.wg rd 0) d
       | n :: rest =>
         .ok ((t.putLocal a (n.flatMap (toLe 4))).wg rd 1) (d.setPod p { d.pod p with notes := rest }))

/-- THCTL (R159): 0 RESTART, 1 HALT, 2 WAKE; the supervisor itself as target, or another action, raises BAD_OPERAND. -/
def execNgThctl (th : Fin 2048) (gd : Guard) (ra rb : Fin 32) (s : State) : Res := s.on fun d =>
  d.supInsn th gd fun d t =>
    let n := (t.rg ra).toNat % 128
    let act := (t.rg rb).toNat
    let x := th.val / 128 * 128 + n
    let st := (d.th x).st
    let running := st == .bound || st == .trapped
    if 2 < act ∨ x = th.val then .trap kBAD_OPERAND
    else if act = 0 then
      .ok t (if running then d.endAttempt x [] (d.idleState x)
             else if st == .disabled then d else d.setTh x { st := d.idleState x })
    else if act = 1 then
      .ok t (if running then d.endAttempt x [] .halted else if st == .free then d.setTh x { st := .halted } else d)
    else .ok t (d.setTh x { d.th x with wake := true })

/-- SSTD: 8 bytes to shared LOCAL. -/
def execNgSstd (th : Fin 2048) (gd : Guard) (ra rb : Fin 32) (s : State) : Res := s.on fun d =>
  d.supInsn th gd fun d t =>
    let a := (t.rg ra).toNat
    checked [(localRegion a 8 != some false, kACCESS), (a % 8 != 0, kALIGN)]
      (.ok t { d with shl := ((toLe 8 (t.rg rb).toNat).foldl
        (fun (y : Nat × Tbl Nat) b => (y.1 + 1, y.2.set y.1 b)) (th.val / 128 * 2 ^ 20 + (a - 0x100000), d.shl)).2 })

/-! ### Handlers (R142, R153, R154) -/

/-- A handler instruction: PRIVILEGE outside a trap handler. -/
def Dev.hndInsn (d : Dev) (th : Fin 2048) (gd : Guard) (f : Dev → Thread → Iss) : Dev :=
  d.issue th.val 4 gd false fun d t => if t.st == .trapped then f d t else .trap kPRIVILEGE

/-- g8 to g15 and p1 to p7 as the trap saved them (R153). -/
def Thread.restore (t : Thread) : Thread :=
  let g := (List.range 8).foldl (fun (a : Tbl Word) i => a.set (8 + i) (t.saveG.getD i 0)) t.g
  { t with g := g, p := t.saveP, saveG := [], saveP := 0 }

/-- HESC (R153): every record is dropped, an empty batch is sent, the thread is HALTED, a note with ESCALATED is queued in
either fault mode and a PROGRAM-class message is sent. -/
def Dev.escalate (d : Dev) (th : Nat) : Dev :=
  let t := d.th th
  let n := d.mkNote th t.fkind false true false t.faddr 0
  let d := d.progFault th t.fkind n
  (d.endAttempt th [] .halted).queueNote (th / 128) n

/-- HRETRY and HSKIP; after a WATCHDOG trap they act as HESC (R154). -/
def Dev.resumeInsn (d : Dev) (th : Fin 2048) (gd : Guard) (skip : Bool) : Dev :=
  d.hndInsn th gd fun d t =>
    if t.fkind = kWATCHDOG then .done ((d.setTh th.val t).escalate th.val)
    else .ok { t.restore with st := .bound, pc := if skip then t.faddr + t.flen else t.faddr, fkind := 0, faddr := 0, flen := 0 } d

/-- HRETRY. -/
def execNgHretry (th : Fin 2048) (gd : Guard) (s : State) : Res := s.on fun d => d.resumeInsn th gd false

/-- HSKIP. -/
def execNgHskip (th : Fin 2048) (gd : Guard) (s : State) : Res := s.on fun d => d.resumeInsn th gd true

/-- HDISC (R153): records are dropped and one DISCARD ends the attempt; a bad operand raises BAD_VERDICT, a double fault. -/
def execNgHdisc (th : Fin 2048) (gd : Guard) (ra : Fin 32) (s : State) : Res := s.on fun d =>
  d.hndInsn th gd fun d t =>
    let v := (t.rg ra).toNat
    if 2 ^ 11 ≤ v then .trap kBAD_OPERAND
    else if discVerdictBad v then .trap kBAD_VERDICT
    else .done ((d.setTh th.val t).endAttempt th.val [.discard (bits v 8 3) (bits v 0 8) true] (d.idleState th.val))

/-- HESC. -/
def execNgHesc (th : Fin 2048) (gd : Guard) (s : State) : Res := s.on fun d =>
  d.hndInsn th gd fun d t => .done ((d.setTh th.val t).escalate th.val)

/-- RDFK: the fault kind in [7:0] and the address in [63:32]. -/
def execNgRdfk (th : Fin 2048) (gd : Guard) (rd : Fin 32) (s : State) : Res := s.on fun d =>
  d.hndInsn th gd fun d t => .ok (t.wg rd (BitVec.ofNat 64 (t.fkind % 256 + t.faddr % 2 ^ 32 * 2 ^ 32))) d

end Sys2Proof.Machine
end

