-- ==== Sys2Proof/Machine/Tokens.lean ====
section
/-!
DEFINITION. Tokens, commit and the pods (02, 06): dispatch, binding and replay of work tokens, commit messages, lifetimes
and holds, watchdogs and waits, the supervisor, and parking.
-/
namespace Sys2Proof.Machine

/-! ### Dispatch and binding (R34, R149, R150) -/

/-- The workers of a pod: every thread but the supervisor and the one named to follow it (R157). -/
def Dev.workers (d : Dev) (p : Nat) : List Nat :=
  let x := d.pod p
  (List.range 128).filter fun t => t != x.sup && x.supNext != some t

/-- The report of a pod to the distributor (R150). -/
def Dev.podReport (d : Dev) (p : Nat) : Nat :=
  let ws := (d.workers p).map fun t => (d.th (p * 128 + t)).st
  if ws.all fun s => s == .halted || s == .disabled then 0
  else (ws.filter (· == .free)).length + (256 - (d.pod p).port.length)

/-- The pod takes tokens: it is in RUN, loaded, not isolated and reports more than 0. -/
def Dev.podTakes (d : Dev) (p : Nat) : Bool :=
  d.isUp p && d.get F.POD_PARK_CTL_STATE p == 0 && (d.pod p).loaded && !bit (d.get F.FCOL_PART_ISO_POD) p
    && decide ((d.pod p).port.length < 256) && decide (0 < d.podReport p)

/-- The item's token is outstanding at pod `p`. -/
def Item.outstandingAt (x : Item) (p : Nat) : Bool :=
  match x.pst with | .atPod q => q == p | .atThread th => th / 128 == p | _ => false

/-- The tokens outstanding at a pod (TOK_POD_LOAD). -/
def Dev.podLoad (d : Dev) (p : Nat) : Nat := (d.itemList.filter fun x => x.outstandingAt p).length

/-- The pod that a token goes to: the fewest outstanding tokens, the lowest ID among equals. -/
def Dev.podFor (d : Dev) : Option Nat :=
  ((List.range 16).filter d.podTakes).foldl (fun (a : Option Nat) p =>
    match a with
    | none => some p
    | some q => if d.podLoad p < d.podLoad q then some p else some q) none

/-- The distributor sends a waiting token (R34, R52, R595, R597): a first dispatch stamps the slot's active version, and an item
whose slot is unbound is disposed NO_VERDICT. -/
def Dev.dispatchToken (d : Dev) (st : Nat) : Dev :=
  match d.item st with
  | none => d
  | some x =>
    if x.pst != .waiting || d.halted then d
    else if !x.tok.replay && d.activeVer x.tok.slot == 0 then d.dispose st 1 1
    else
      match d.podFor with
      | none => d
      | some p =>
        let tok := if x.tok.replay then x.tok else { x.tok with ver := d.activeVer x.tok.slot }
        let d := d.setItem st { x with tok := tok, pst := .atPod p, toPod := d.mono }
        d.setPod p { d.pod p with port := (d.pod p).port ++ [st] }

/-- TOKEN_DISPATCH (R150). -/
def execTokenDispatch (st : BitVec 48) (s : State) : Res := s.on fun d =>
  d.onIsland 21 fun d => d.dispatchToken st.toNat

/-- The FREE worker that the next token is bound to (R149). -/
def Dev.workerFor (d : Dev) (p : Nat) : Option Nat :=
  let busy (c : Nat) : Nat := ((List.range 8).filter fun t =>
    let s := (d.th (p * 128 + c * 8 + t)).st; s == .bound || s == .trapped).length
  ((d.workers p).filter fun t => (d.th (p * 128 + t)).st == .free).foldl (fun (a : Option Nat) t =>
    match a with
    | none => some t
    | some u => if busy (t / 8) < busy (u / 8) then some t else some u) none

/-- TOKEN_BIND (R25, R149, R91): the first token of the port is bound; its watchdog starts. -/
def execTokenBind (p : Fin 16) (s : State) : Res := s.on fun d =>
  if d.podRuns p.val then
    match (d.pod p.val).port, d.workerFor p.val with
    | st :: rest, some t =>
      let d := d.setPod p.val { d.pod p.val with port := rest }
      match d.item st with
      | none => d
      | some x =>
        let d := d.reach (d.heldTill 21 p.val x.toPod)
        let th := p.val * 128 + t
        let v := (d.slots.get (x.tok.slot * 256 + x.tok.ver)).getD {}
        ((d.setTh th (startThread x.tok v d.mono)).settleSlot (th / 8)).setItem st { x with pst := .atThread th }
    | _, _ => d
  else d

/-- TOKEN_REISSUE (R52, R53): a lost token whose generation is stale is ABORTED_BY_RESET, any other is dispatched again with
replay count 1. -/
def execTokenReissue (st : BitVec 48) (s : State) : Res := s.on fun d =>
  d.onIsland 21 fun d =>
    match d.item st.toNat with
    | none => d
    | some x =>
      if x.pst != .lost then d
      else if x.tok.gen ≠ d.gen x.tok.inst then (d.setItem st.toNat { x with pst := .waiting }).dispose st.toNat 3 0
      else (d.setItem st.toNat { x with tok := { x.tok with replay := true }, pst := .waiting }).dispatchToken st.toNat

/-! ### Commit (R50, R51) -/

/-- COMMIT_MESSAGE (R25, R50): the `k`-th message in flight arrives, the messages of one pod in order. -/
def execCommitMessage (k : Nat) (s : State) : Res := s.on fun d =>
  d.onIsland 21 fun d =>
    match d.cmsgs[k]? with
    | none => d
    | some m =>
      if (d.cmsgs.take k).any (·.pod == m.pod) then d
      else ({ d.reach (d.heldTill m.pod 21 m.sent) with cmsgs := d.cmsgs.eraseIdx k } : Dev).commitMessage m

/-- BATCH_TIMEOUT_DISCARD (R50): 10 us after its first message an incomplete batch is discarded. -/
def execBatchTimeoutDiscard (st : BitVec 48) (s : State) : Res := s.on fun d =>
  d.onIsland 21 fun d =>
    match (d.item st.toNat).bind (·.batch) with
    | none => d
    | some b => (d.reach (b.first + 10000)).discardBatch st.toNat

/-- EFFECT_RESEND (R51): an effect without an answer is sent again after 10 us. -/
def execEffectResend (k : Nat) (s : State) : Res := s.on fun d =>
  d.onIsland 21 fun d =>
    match d.effq[k]? with
    | none => d
    | some e =>
      let d := d.reach (e.sent + 10000)
      ({ d with effq := d.effq.set k { e with sent := d.mono } } : Dev).count .CMT_RESENT |>.fault 4 3 21

/-! ### Lifetime and hold (R49, R57, R281 to R283, R338) -/

/-- Work of an instance waits because its function may not issue requests, for no longer than the hold of its port
(R338): its lifetime does not end meanwhile. -/
def Dev.lifeExempt (d : Dev) (inst : Nat) : Bool :=
  match (d.fn inst).paused with
  | some t => decide (d.mono ≤ t + d.get F.HOST_PORT_CFG_HOST_HOLD_MS (d.hostPortOf inst) * 1000000)
  | none => false

/-- LIFETIME_EXPIRY (R49, R272, R282): an uncommitted item at its deadline. -/
def execLifetimeExpiry (st : BitVec 48) (s : State) : Res := s.on fun d =>
  d.onIsland 21 fun d =>
    match d.item st.toNat with
    | none => d
    | some x =>
      if x.committed || x.disp.isSome || (x.pst == .loading && (d.reach x.deadline).lifeExempt x.tok.inst) then d
      else (((d.reach x.deadline).count .BUF_EXPIRED_PRECOMMIT).fault 9 6 21).dispose st.toNat 5 0

/-- The copy is queued past its item's deadline, and nothing exempts it (R282, R338). -/
def Dev.copyExpired (d : Dev) (x : Item) (k : Copy) : Bool :=
  (k.st == .onchip || k.st == .deep) && decide (x.deadline < d.mono) &&
    !(k.dtype == 1 && (match d.rangeOwner 0 k.dest with | some i => d.lifeExempt i | none => false))

/-- LIFETIME_SWEEP (R282): the sweeper removes what it finds past its deadline. -/
def execLifetimeSweep (s : State) : Res := s.on fun d =>
  d.onIsland 21 fun d =>
    d.items.cells.foldl (fun d e =>
      match e.2 with
      | none => d
      | some x => (List.range x.copies.length).foldl (fun d i =>
          match d.copy e.1 i with
          | some k => if d.copyExpired x k then (d.countQ .TM_Q_EXPIRED k.q).loseCopy e.1 i 5 0 else d
          | none => d) d) d

/-- PORT_HOLD_EXPIRY (R57, R283): a copy held for a down port at the end of its hold, where its lifetime does not end
before. -/
def execPortHoldExpiry (st : BitVec 48) (c : Nat) (s : State) : Res := s.on fun d =>
  d.onIsland 21 fun d =>
    match d.item st.toNat, d.copy st.toNat c with
    | some x, some k =>
      match k.hold with
      | none => d
      | some t =>
        if x.deadline < t ∨ 32 ≤ d.rootOfQueue k.q then d
        else ((d.reach t).countQ .TM_Q_HOLD_DROP k.q).loseCopy st.toNat c 4 1
    | _, _ => d

/-! ### Threads -/

/-- A written THREAD_EN takes effect on the workers of a core (R143, R147). -/
def Dev.applyThreadEn (d : Dev) (core : Nat) : Dev :=
  (List.range 8).foldl (fun d t =>
    let th := core * 8 + t
    if d.isSup th then d
    else match (d.th th).st with
      | .free | .disabled => d.setTh th { d.th th with st := d.idleState th }
      | _ => d) d

/-- CORE_CTL_WRITE (R143, R147): `own` is the thread whose cycle it is, which becomes the quantum owner at a change to
STALLSWITCH. -/
def execCoreCtlWrite (core : Fin 256) (v : BitVec 32) (own : Fin 8) (s : State) : Res := s.on fun d =>
  d.onIsland (core.val / 16) fun d => d.byWrite .POD_CORE_CTL core.val fun d =>
    let was := d.get F.POD_CORE_CTL_MODE core.val
    let d := d.writeFields .POD_CORE_CTL core.val v.toNat 15 []
    let d := if was = 0 ∧ d.get F.POD_CORE_CTL_MODE core.val = 1 then
        { d with cores := d.cores.set core.val { owner := own.val, borrow := none } } else d
    d.applyThreadEn core.val

/-- QUANTUM_EXPIRY (R145): the slot passes to the first ready thread after the owner. -/
def execQuantumExpiry (core : Fin 256) (s : State) : Res := s.on fun d =>
  if d.podRuns (core.val / 16) && d.get F.POD_CORE_CTL_MODE core.val == 1 then
    let o := (d.cores.get core.val).owner
    match d.nextReady core.val o with
    | some k => { d with cores := d.cores.set core.val { owner := k, borrow := none } }
    | none => d
  else d

/-- A woken thread takes the slot of a STALLSWITCH core (R146). -/
def Dev.borrowSlot (d : Dev) (th : Nat) : Dev :=
  let c := th / 8
  if d.get F.POD_CORE_CTL_MODE c = 1 then { d with cores := d.cores.set c { d.cores.get c with borrow := some (th % 8) } } else d

/-- THREAD_WAKE (R137, R146, R162): the wait of a sleeping thread is over; a wait on the timer alone ends when the DTB reaches
TCMP. -/
def execThreadWake (th : Fin 2048) (s : State) : Res := s.on fun d =>
  if d.podRuns (th.val / 128) then
    let t := d.th th.val
    match t.sleep with
    | .awake => d
    | .ticket k rd peek =>
      let x := t.tks.get k
      if x.st = 2 then
        let t := { t with sleep := .awake }
        let t := (if peek then t else { t with tks := t.tks.set k {} }).wg (Fin.ofNat 32 rd) x.word
        (d.setTh th.val t).borrowSlot th.val
      else d
    | .waitt rd mask event =>
      let d := match waittNow d.now t mask event with
        | some _ => d
        | none => if t.tcmp < 2 ^ 64 - 1 ∧ d.now < t.tcmp then d.setDtb (t.tcmp * 2 ^ 32) else d
      match waittNow d.now t mask event with
      | some r => (d.setTh th.val (t.waittDone rd event r)).borrowSlot th.val
      | none => d
  else d

/-- The deadline of an attempt passes. -/
def Dev.deadlinePasses (d : Dev) (th : Nat) (st : ThSt) : Dev :=
  let t := d.th th
  if d.podRuns (th / 128) && t.st == st && !d.isSup th then
    match t.deadline with
    | some x => (d.reach (x + 1)).trap th kWATCHDOG t.pc 0
    | none => d
  else d

/-- WATCHDOG (R111). -/
def execWatchdog (th : Fin 2048) (s : State) : Res := s.on fun d => d.deadlinePasses th.val .bound

/-- HANDLER_DEADLINE (R154): a double fault. -/
def execHandlerDeadline (th : Fin 2048) (s : State) : Res := s.on fun d => d.deadlinePasses th.val .trapped

/-- SLOT_HANDLER_WRITE (R151). -/
def execSlotHandlerWrite (pod : Fin 16) (slot : Fin 256) (v : BitVec 32) (s : State) : Res := s.on fun d =>
  d.onIsland pod.val fun d => d.byWrite .POD_SLOT_HANDLER (pod.val * 256 + slot.val) fun d =>
    d.writeFields .POD_SLOT_HANDLER (pod.val * 256 + slot.val) v.toNat 15 []

/-! ### The supervisor (R157) -/

/-- The supervisor starts at ENTRY with a fresh state. -/
def Dev.startSupervisor (d : Dev) (p : Nat) : Dev :=
  let x := d.pod p
  let d := (d.put F.POD_SUPERVISOR_HALTED p 0).put F.POD_SUPERVISOR_RESTART p 0
  d.setTh (p * 128 + x.sup) (startSup (d.get F.POD_SUPERVISOR_ENTRY p) x.supCode)

/-- The write of POD.SUPERVISOR: a write that names another thread makes it the next supervisor; one that sets RESTART starts
the supervisor. -/
def Dev.supervisorWrite (d : Dev) (p v be : Nat) : Dev :=
  let d := d.writeFields .POD_SUPERVISOR p v be []
  let t := d.get F.POD_SUPERVISOR_CORE p * 8 + d.get F.POD_SUPERVISOR_THREAD p
  let x := d.pod p
  let d := d.setPod p { x with supNext := if t = x.sup then none else some t }
  if d.flag F.POD_SUPERVISOR_RESTART p then d.startSupervisor p else d

/-- SUPERVISOR_WRITE (R157). -/
def execSupervisorWrite (pod : Fin 16) (v : BitVec 32) (s : State) : Res := s.on fun d =>
  d.onIsland pod.val fun d => d.byWrite .POD_SUPERVISOR pod.val fun d => d.supervisorWrite pod.val v.toNat 15

/-- SUPERVISOR_HANDOVER (R157): the named thread has no attempt and takes over. -/
def execSupervisorHandover (pod : Fin 16) (s : State) : Res := s.on fun d =>
  d.onIsland pod.val fun d =>
    let p := pod.val
    let x := d.pod p
    match x.supNext with
    | none => d
    | some t =>
      let st := (d.th (p * 128 + t)).st
      if st == .bound || st == .trapped then d
      else
        let old := p * 128 + x.sup
        let d := d.setTh old { st := d.idleState old }
        (d.setPod p { x with sup := t, supNext := none }).startSupervisor p

/-- SUPERVISOR_RESTART (R157, R160). -/
def execSupervisorRestart (pod : Fin 16) (s : State) : Res := s.on fun d =>
  d.onIsland pod.val fun d => d.byWrite .POD_SUPERVISOR pod.val fun d => d.startSupervisor pod.val

/-! ### Parking (R161, R162) -/

/-- PARK_REQ becomes 1. -/
def Dev.parkRequest (d : Dev) (p : Nat) : Dev :=
  let d := d.put F.POD_PARK_CTL_PARK_REQ p 1
  if d.get F.POD_PARK_CTL_STATE p = 0 then d.put F.POD_PARK_CTL_STATE p 1 else d

/-- PARK_REQ becomes 0: DRAINING returns to RUN, PARKED starts WAKING. -/
def Dev.parkRelease (d : Dev) (p : Nat) : Dev :=
  let d := d.put F.POD_PARK_CTL_PARK_REQ p 0
  match d.get F.POD_PARK_CTL_STATE p with
  | 1 => d.put F.POD_PARK_CTL_STATE p 0
  | 2 => d.put F.POD_PARK_CTL_STATE p 3
  | _ => d

/-- PARK_REQUEST. -/
def execParkRequest (pod : Fin 16) (s : State) : Res := s.on fun d =>
  d.onIsland pod.val fun d => d.byWrite .POD_PARK_CTL pod.val fun d => d.parkRequest pod.val

/-- POD_PARKED: a drained pod stops its clock; PARKED_EVT and the pod's PARKED event. -/
def execPodParked (pod : Fin 16) (s : State) : Res := s.on fun d =>
  d.onIsland pod.val fun d =>
    let p := pod.val
    let idle := (List.range 128).all fun t => d.isSup (p * 128 + t) ||
      (let s := (d.th (p * 128 + t)).st; s == .free || s == .halted || s == .disabled)
    if d.get F.POD_PARK_CTL_STATE p = 1 ∧ idle ∧ (d.pod p).port = [] then
      ((d.put F.POD_PARK_CTL_STATE p 2).put F.POD_PARK_CTL_PARKED_EVT p 1).raiseLocal p 2
    else d

/-- PARK_CANCEL: PARK_REQ 0 during DRAINING. -/
def execParkCancel (pod : Fin 16) (s : State) : Res := s.on fun d =>
  d.onIsland pod.val fun d => d.byWrite .POD_PARK_CTL pod.val fun d =>
    if d.get F.POD_PARK_CTL_STATE pod.val = 1 then d.parkRelease pod.val else d

/-- POD_WAKE: PARK_REQ 0 in PARKED. -/
def execPodWake (pod : Fin 16) (s : State) : Res := s.on fun d =>
  d.onIsland pod.val fun d => d.byWrite .POD_PARK_CTL pod.val fun d =>
    if d.get F.POD_PARK_CTL_STATE pod.val = 2 then d.parkRelease pod.val else d

end Sys2Proof.Machine
end

