-- ==== Sys2Proof/Machine/Resets.lean ====
section
/-!
DEFINITION. The reset ladder (Table 25-5): POD_RESET, ISLAND_RESET, WARM_RESET and COLD_RESET, and the loss of power of
islands 0 to 24 in COCOON.
-/
namespace Sys2Proof.Machine

/-- The reset value of a register with its RWS fields kept from `v` (R550); LEDGER_STATUS.UNWRITTEN is RWS and RW1C (R374). -/
def keepRws (r : Reg) (i v : Nat) : Nat :=
  r.fields.foldl (fun a f => if f.acc = .rws ∨ (r = .QE_LEDGER_STATUS ∧ f.lo = 0) then setBits a f.lo f.w (bits v f.lo f.w) else a) (r.reset i)

/-- The registers and counters of the islands that `f` selects take their reset values, RWS fields kept where `rws`. -/
def Dev.resetIslandRegs (d : Dev) (f : Nat → Bool) (rws : Bool) : Dev :=
  let regs := d.regs.filterMap fun (c : Nat × Nat) =>
    match Reg.all[c.1 % 512]? with
    | none => some c
    | some r =>
      let i := c.1 / 512
      if !f (r.place.island i) then some c
      else
        let v := if rws then keepRws r i c.2 else r.reset i
        if v = r.reset i then none else some (c.1, v)
  let keep (k : Nat) : Bool := match Ctr.all[k % 512]? with | some c => !f (c.place.island (k / 512)) | none => true
  let hdr (h : Nat) : Nat := if h < 20 then h else blkIsland (hdrBlk h)
  let win (k : Nat) : Nat := if k < 8 then 22 else if k < 16 then 23 else if k < 32 then 20 else if k = 32 then 25
    else if 40 ≤ k ∧ k < 44 then k - 24 else 24
  { d with
    regs := regs
    ctrs := ⟨d.ctrs.cells.filter fun c => keep c.1⟩
    closed := ⟨d.closed.cells.filter fun c => keep c.1⟩
    rlatch := ⟨d.rlatch.cells.filter fun c => !f (hdr (c.1 / 4096))⟩
    wlatch := ⟨d.wlatch.cells.filter fun c => !f (hdr (c.1 / 4096))⟩
    wins := ⟨d.wins.cells.filter fun c => !f (win c.1)⟩ }

/-- Island `n` enters or leaves reset. -/
def Dev.setIsland (d : Dev) (n : Nat) (up : Bool) : Dev :=
  { d with sys := { d.sys with islReset := setBits d.sys.islReset n 1 (b2n !up) } }

/-- The attempt of an item at a pod in POD_RESET fails (R50, R52). -/
def Dev.podDrops (d : Dev) (x : Item) : Dev :=
  (if x.batch.isSome then (d.count .CMT_DISCARDED).fault 4 4 21 else d).attemptFails x.tok.stamp

/-- What a pod holds beside its registers is gone: threads, ports, notes, banks, LOCAL and its SA directory (R550). -/
def Dev.podClear (d : Dev) (p : Nat) : Dev :=
  let out {α : Type} (n : Nat) (t : Tbl α) : Tbl α := ⟨t.cells.filter fun c => c.1 / n != p⟩
  { d with ths := out 128 d.ths, cores := out 16 d.cores, pods := out 1 d.pods, shl := out (2 ^ 20) d.shl,
           saDir := out 65536 d.saDir }

/-- POD_RESET (Table 25-5): everything of the pod is reset; its outstanding tokens stay at the distributor and are replayed. -/
def Dev.podReset (d : Dev) (p : Nat) : Dev :=
  let xs := d.itemList.filter fun x => x.outstandingAt p
  let d := (d.podClear p).resetIslandRegs (· == p) true
  xs.foldl (fun d x => d.podDrops x) d

/-- What NET island `n` (0 to 3) holds beside its registers is gone: ports, lanes, links, pauses and receptions; the
adaptation history is AON's. -/
def Dev.netClear (d : Dev) (n : Nat) : Dev :=
  let out {α : Type} (k : Nat) (t : Tbl α) : Tbl α := ⟨t.cells.filter fun c => c.1 / k != n⟩
  let x := d.net
  let x := { x with pause := out 72 x.pause, since := out 72 x.since, ignore := out 72 x.ignore, sending := out 8 x.sending,
                    conn := out 8 x.conn, ports := out 8 x.ports, lanes := out 12 x.lanes,
                    links := ⟨x.links.cells.filter fun c => c.1 + 1 != n⟩, scan := out 1 x.scan,
                    squelch := if n = 0 then [] else x.squelch }
  { d with net := x, buf := { d.buf with rx := d.buf.rx.filter fun f => !(f.iap < 32 && f.iap / 8 == n) } }

/-- The level of PERST_N outlasts every reset of the device. -/
def HostSt.pins (h : HostSt) : Tbl HPort := h.ports.mapListed fun _ (x : HPort) => { perst := x.perst }

/-- What island 20 to 24 holds beside its registers is gone. The VF allotments, the flash, the fuse shadow and the settings in the
config region are kept. -/
def Dev.unitClear (d : Dev) (n : Nat) : Dev :=
  match n with
  | 20 => { d with hst := { allot := d.hst.allot, ports := d.hst.pins } }
  | 21 => { d with items := {}, cmsgs := [], effq := [], applied := [], buf := {}, epoch := {}, slots := {}, trefs := {},
                   lastVer := {}, grp := { d.grp with fwd := [] } }
  | 22 => { d with tbl := {} }
  | 23 => { d with cry := {} }
  | 24 =>
    let w := d.stw
    let w : Stew := { cfg := w.cfg, applied := w.applied, wasReset := true, flash := { w.flash with ses := none, wait := [] }, start := w.start,
                      chry := w.chry, fuses := w.fuses, health := w.health, lcSeen := w.lcSeen }
    { d with stw := w, mgt := {}, eye := {} }
  | _ => d

/-- An island is reset: its registers but for RWS fields, its memories and its microcode (Table 25-5). -/
def Dev.islandClear (d : Dev) (n : Nat) : Dev :=
  if n < 16 then d.podReset n
  else
    let d := d.resetIslandRegs (· == n) true
    if n < 20 then d.netClear (n - 16) else d.unitClear n

/-- ISLAND_RESET of islands 0 to 24; island 25 is not reset apart from the device. -/
def Dev.islandReset (d : Dev) (n : Nat) : Dev :=
  if n < 25 ∧ d.isUp n then (d.islandClear n).setIsland n false else d

/-- The generations that WARM_RESET leaves: those that are not 0 increment (R404). -/
def Dev.warmGens (d : Dev) : List (Nat × Nat) :=
  ((List.range 2052).filter fun i => d.gen i != 0).map fun i => (i, nextGen (d.gen i))

/-- What a WARM_RESET resets in island 25: the locks, HALT, containment and log failure of the collector, the group but for its
epoch, and EID and start state (Table 25-4, Table 25-5). -/
def Dev.warmAon (d : Dev) : Dev :=
  let e := d.get F.GRP_STATUS_EPOCH
  let me := d.get F.GRP_STATUS_ID
  let d := d.resetRegs fun r _ => match r with
    | .FCOL_LOCK | .FCOL_PART_ISO | .FCOL_ROUTER_ISO | .FCOL_PC_RETIRED | .GRP_CFG | .GRP_STATUS | .GRP_DIGEST
    | .GRP_LEADER_DIGEST | .GRP_TIME_OFFSET | .GRP_GQ_BASE | .RST_MILESTONE | .RST_CHRY_STATUS | .RST_WARM_CTL => true
    | _ => false
  let d := ((d.put F.GRP_STATUS_EPOCH 0 e).put F.GRP_STATUS_ID 0 me).put F.GRP_STATUS_PTP_LOCK 0 (d.get F.TIME_CTL_LOCKED)
  let d := (d.put F.FCOL_STATUS_HALTED 0 0).put F.FCOL_STATUS_LOG_FAILED 0 0
  { d with gp := {}, gbl := { rend := some d.mono }, grp := {}, fc := { d.fc with podCont := {}, contAt := {}, silent := {} } }

/-- WARM_RESET takes islands 0 to 24 into reset for 1 ms (R551). -/
def Dev.warmHold (d : Dev) : Dev :=
  let gens := d.warmGens
  let d := (List.range 25).foldl (fun d n => d.islandClear n) d
  let d := d.warmAon
  let d := gens.foldl (fun d p => d.put F.INST_STATE_GENERATION p.1 p.2) d
  let w := d.stw
  { d with sys := { d.sys with islReset := 2 ^ 25 - 1 },
           stw := { w with start := { w.start with ledgers := none, warm := some (d.mono + 1000000), step := 0 } } }

/-- The instances whose ledgers a WARM_RESET or an entry to COCOON writes for PF `p` (R62). -/
def Dev.warmInsts (d : Dev) (p : Nat) : List Nat := (d.pfInsts p).filter fun i => d.hst.live.contains i

/-- The host link of PF `p` is up and its Bus Master Enable is set. -/
def Dev.warmPf (d : Dev) (p : Nat) : Bool :=
  d.pfExists p && d.get F.HOST_PORT_STATUS_STATE (d.portOfPf p) == 2 && (d.fn p).bme

/-- The accepted frames without a disposition. -/
def Dev.framesInFlight (d : Dev) : Nat := (d.itemList.filter fun x => decide (x.tok.source < 4) && x.disp.isNone).length

/-- Acceptance stops and the ledgers of R62 are due (kind 3); the wait for them lasts at most 20 ms. -/
def Dev.warmLedgers (d : Dev) : Dev :=
  let d := ((List.range 4).filter d.warmPf).foldl (fun (d : Dev) p =>
    let l : Ledger := { pf := p, kind := 3, inst := p, oldGen := d.gen p, newGen := nextGen (d.gen p), dtb := d.now,
                        frames := if p = 0 then d.framesInFlight else 0, entries := d.ledgerEntries (d.warmInsts p) }
    { d with hst := { d.hst with ledgers := l :: d.hst.ledgers } }) d
  { d with stw := { d.stw with start := { d.stw.start with ledgers := some (d.mono + 20000000) } } }

/-- A ledger of R62 for PF `p` is not yet written completely. -/
def Dev.warmUnwritten (d : Dev) (p : Nat) : Bool := d.hst.ledgers.any (fun l => l.pf == p && l.kind == 3) || d.ledgerBusy p

/-- Islands 0 to 24 lose their power: every register of theirs takes its COLD_RESET value, and what they hold is gone. Of the
firmware only the flash, the fuse shadow and the health record stay (24 Model: what survives COCOON). -/
def Dev.coldIslands (d : Dev) : Dev :=
  let d := d.resetIslandRegs (fun n => n < 25) false
  let w := d.stw
  let base : Dev := { regs := d.regs, ctrs := d.ctrs, rlatch := d.rlatch, wlatch := d.wlatch, wins := d.wins, out := d.out,
                      ftq := d.ftq.filter (·.island == 25), sys := d.sys, fc := d.fc, pwr := d.pwr, gbl := d.gbl, gp := d.gp, grp := d.grp,
                      net := { hist := d.net.hist }, hst := { ports := d.hst.pins },
                      stw := { flash := { w.flash with ses := none, wait := [] }, fuses := w.fuses, health := w.health, lcSeen := w.lcSeen,
                               grpVer := w.grpVer } }
  { base with sys := { base.sys with islReset := 2 ^ 25 - 1, localErr := {}, swyHold := [] } }

/-- The parts of island 25 that a Cocoon exit sets anew (R521): the group but for its epoch and member ID, and the start. -/
def Dev.exitAon (d : Dev) : Dev :=
  let e := d.get F.GRP_STATUS_EPOCH
  let st := d.rd .RST_STRAPS 0
  let d := d.resetRegs fun r _ => match r with
    | .GRP_CFG | .GRP_STATUS | .GRP_DIGEST | .GRP_LEADER_DIGEST | .GRP_TIME_OFFSET | .GRP_GQ_BASE | .RST_START | .RST_WARM_CTL
    | .RST_CHRY_STATUS | .RST_START_REF | .RST_MILESTONE => true
    | _ => false
  let d := ((d.wr .RST_STRAPS 0 st).put F.GRP_STATUS_EPOCH 0 e).put F.GRP_STATUS_ID 0 (d.get F.RST_STRAPS_GID + 1)
  { d with gp := {}, grp := {}, gbl := { rend := some d.mono } }

/-- COLD_RESET while POR_N is asserted (Table 25-5): everything is reset but the flash, the blown fuses with their health record,
and the adaptation history. -/
def Dev.coldReset (d : Dev) : Dev :=
  let w := d.stw
  let fuses := w.fuses.mapListed fun _ (x : FuseWord) => { x with pending := false, value := 0 }
  { out := d.out, net := { hist := d.net.hist }, sys := { islReset := 2 ^ 26 - 1 }, hst := { ports := d.hst.pins },
    pwr := { por := true, good := d.pwr.good },
    stw := { flash := { w.flash with ses := none, wait := [] }, fuses := fuses, health := w.health, lcSeen := w.lcSeen } }

end Sys2Proof.Machine
end

