-- ==== Sys2Proof/Machine/Collector.lean ====
section
/-!
DEFINITION. Fault Collection and Reaction (21): the collector takes messages, logs them and applies the actions.
-/
namespace Sys2Proof.Machine

/-- The part classes of the kinds (21 Model). -/
inductive PartClass where
  | pod | lu | chan | slice | router | pc | isl
deriving DecidableEq, Repr

/-- The default levels of the kinds of a class, from kind 1 on (Table 21-5). -/
def kindLevels : Nat → List Nat
  | 0 => [0, 0, 0, 0, 0, 0, 0, 0, 0, 0, 2]
  | 1 => [3, 3, 2, 2, 3, 2, 4, 2, 3, 3, 3, 3]
  | 2 => [2, 3, 1, 1, 2, 2, 2, 1, 1, 2, 3, 2]
  | 3 => [2, 2, 0, 1, 1, 1, 2, 2, 1, 1]
  | 4 => [1, 2, 1, 1, 1, 1, 3, 3, 3, 3, 2, 3]
  | 5 => [1, 2, 2, 3, 3, 3, 3, 2, 2, 2]
  | 6 => [2, 2, 4, 4, 2, 1, 2]
  | 7 => [1, 2, 4, 2, 0, 2, 4]
  | 8 => [1, 1, 1, 1, 1, 1, 1, 1, 1, 1, 1, 1, 1, 2, 2]
  | 9 => [0, 0, 1, 2, 1, 1, 2]
  | 10 => [1, 2, 2, 2, 2, 4, 1, 3, 1, 1]
  | 11 => [2, 2, 4, 2, 4, 2, 1, 1, 3, 3]
  | 12 => [1, 2, 4, 2, 4, 0]
  | 13 => [2, 2, 1, 2, 3, 2, 1, 2, 2, 2]
  | 14 => [2, 2, 1, 2, 2, 1, 1]
  | 15 => [3, 0, 1, 4, 1]
  | _ => []

/-- The default level of a kind; none where Table 21-5 does not list it. -/
def kindLevel (cls kind : Nat) : Option Nat := if kind = 0 then none else (kindLevels cls)[kind - 1]?

/-- The part of a kind (Table 21-5); FATAL_SILENT names a pod for islands 0 to 15. -/
def kindPart (cls kind island : Nat) : Option PartClass :=
  match cls, kind with
  | 1, 1 | 1, 2 | 5, 4 | 11, 9 => some .pod
  | 1, 5 | 4, 10 | 5, 7 => some .slice
  | 1, 9 | 2, 11 => some .pc
  | 1, 10 | 4, 7 | 11, 10 => some .isl
  | 1, 12 | 4, 8 | 5, 5 => some .lu
  | 2, 2 => some .router
  | 4, 9 | 5, 6 | 15, 1 => some .chan
  | 4, 12 => some (if island < 16 then .pod else .isl)
  | _, _ => none

/-- A kind at L3 or L4 that concerns the island that reports it (R463): its part is a unit of that island, or it names the island's
own memory, clock or fuses (notes/assumptions/72.md). -/
def ownKind (cls kind : Nat) : Bool :=
  match cls, kind with
  | 4, 12 => false
  | 1, 7 | 15, 4 | 11, 3 | 12, 3 | 12, 5 | 10, 6 => true
  | _, _ => match kindPart cls kind 16 with | some .router => false | some _ => true | none => false

/-- The default level that a message carries (R457); a kind that is never sent counts as L0. -/
def FaultMsg.dflt (m : FaultMsg) : Nat := (kindLevel m.cls m.kind).getD 0

/-- The part unit that a message names: its source island, or UNIT, which for the memory classes is the memory instance of DETAIL
(R458, notes/assumptions/70.md). -/
def FaultMsg.unit (m : FaultMsg) (p : PartClass) : Nat :=
  let u := if m.cls ≤ 1 then bits m.detail 8 8 else m.detail % 2 ^ 16
  match p with
  | .isl => m.island
  | .pod => if m.island < 16 then m.island else u % 16
  | .lu => u % 8
  | .chan => u % 64
  | .slice => u % 4
  | .router => u % 36
  | .pc => u % 64

/-- A code of a part class, for keys. -/
def PartClass.code : PartClass → Nat
  | .pod => 0 | .lu => 1 | .chan => 2 | .slice => 3 | .router => 4 | .pc => 5 | .isl => 6

/-- SOURCE of a message, class and kind as one key. -/
def FaultMsg.key (m : FaultMsg) : Nat := ((m.cls * 256 + m.kind) * 32 + m.island) * 32 + m.block % 32

/-- FAULT_N is asserted (R465). -/
def Dev.faultN (d : Dev) : Bool :=
  d.get F.FCOL_FPSW_FATAL != 0 || d.halted || d.flag F.FCOL_STATUS_LOG_FAILED || d.routeFaultN
    || d.fc.log.cells.any fun c => match c.2 with | some e => !e.acked && bit e.actions 5 | none => false

/-- Island `n` asserts its FATAL line (R463, R464). -/
def Dev.fatal (d : Dev) (n : Nat) : Dev :=
  let v := d.get F.FCOL_FPSW_FATAL
  if bit v n then d
  else
    let d := d.put F.FCOL_FPSW_FATAL 0 (setBits v n 1 1)
    { d with fc := { d.fc with silent := d.fc.silent.set n (some d.mono) } }

/-- The unacknowledged entries. -/
def Fcol.open_ (x : Fcol) : List LogEntry := (x.log.cells.filterMap (·.2)).filter fun e => !e.acked

/-- The final level of a message of class `c` and default level `l`, and ESCALATED (R472); none while LOG_FAILED is 1 (R476). -/
def Dev.finalLevel (d : Dev) (c l : Nat) : Nat × Bool :=
  if d.flag F.FCOL_STATUS_LOG_FAILED then (l, false)
  else if d.fc.open_.any fun e => e.msg.cls == c then (min 4 (l + 1), true) else (l, false)

/-- The action field of a class and level (Table 21-7); LOG always reads 1. -/
def Dev.actions (d : Dev) (c l : Nat) : Nat := setBits (bits (d.rd .FCOL_ACTION c) (6 * l) 6) 0 1 1

/-! ### Containment (R467, R475, Table 21-10) -/

/-- A pod is isolated: POD_RESET, its bit set and its CONTAIN recorded. -/
def Dev.containPod (d : Dev) (p : Nat) : Dev :=
  let d := (d.podReset p).setIsland p false
  let d := d.put F.FCOL_PART_ISO_POD 0 (setBits (d.get F.FCOL_PART_ISO_POD) p 1 1)
  { d with fc := { d.fc with podCont := d.fc.podCont.set p (d.mono :: (d.fc.podCont.get p).take 2) } }

/-- A lookup unit is retired and its walks are reissued (R164). -/
def Dev.containLu (d : Dev) (u : Nat) : Dev :=
  let d := d.put F.FCOL_PART_ISO_LU 0 (setBits (d.get F.FCOL_PART_ISO_LU) u 1 1)
  (d.tbl.walks.filter (·.unit == u)).foldl (fun d w => d.startWalk w w.waits (some u)) d

/-- A pseudo-channel is retired (R30): its range leaves its partitions, and what it held is lost: copies in the deep buffer go
ERROR_DISCARD with HBM_UE, and tier-2 entries as R209 states. -/
def Dev.retirePc (d : Dev) (pc : Nat) (lost : List (Nat × Nat)) : Dev :=
  if bit (d.get F.FCOL_PC_RETIRED_PCS) pc then d
  else
    let d := d.put F.FCOL_PC_RETIRED_PCS 0 (setBits (d.get F.FCOL_PC_RETIRED_PCS) pc 1 1)
    lost.foldl (fun d p => match d.copy p.1 p.2 with
      | some k => if k.st == .deep then (d.countQ .TM_Q_DEEP_LOST k.q).loseCopy p.1 p.2 2 1 else d
      | none => d) d

/-- A router is declared failed (R24, R25): every source holds the new messages of its affected pairs for 2 us. -/
def Dev.routerFails (d : Dev) (r : Nat) : Dev :=
  if bit (d.get F.FCOL_ROUTER_ISO_ROUTERS) r then d
  else
    let d := d.put F.FCOL_ROUTER_ISO_ROUTERS 0 (setBits (d.get F.FCOL_ROUTER_ISO_ROUTERS) r 1 1)
    { d with sys := { d.sys with swyHold := (r, d.mono + 2000) :: d.sys.swyHold } }

/-- The part is isolated already. -/
def Dev.isolated (d : Dev) (p : PartClass) (u : Nat) : Bool :=
  match p with
  | .pod => bit (d.get F.FCOL_PART_ISO_POD) u
  | .lu => bit (d.get F.FCOL_PART_ISO_LU) u
  | .slice => bit (d.get F.FCOL_PART_ISO_SLICE) u
  | .chan => d.get F.DMA_CHAN_STATE_STATE u == 5
  | .router => bit (d.get F.FCOL_ROUTER_ISO_ROUTERS) u
  | .pc => bit (d.get F.FCOL_PC_RETIRED_PCS) u
  | .isl => !d.isUp u

/-- A CONTAIN that leaves no healthy pod, lookup unit or slice (R467). -/
def Dev.lastOne (d : Dev) (p : PartClass) (u : Nat) : Bool :=
  match p with
  | .pod => (List.range 16).all fun n => n == u || bit (d.get F.FCOL_PART_ISO_POD) n
  | .lu => (List.range 8).all fun n => n == u || bit (d.get F.FCOL_PART_ISO_LU) n
  | .slice => (List.range 4).all fun n => n == u || bit (d.get F.FCOL_PART_ISO_SLICE) n
  | _ => false

/-- CONTAIN of a part (Table 21-10). -/
def Dev.contain (d : Dev) (p : PartClass) (u : Nat) (lost : List (Nat × Nat)) : Dev :=
  match p with
  | .pod => d.containPod u
  | .lu => d.containLu u
  | .chan => d.chanFailed u
  | .slice => d.sliceFails u
  | .router => d.routerFails u
  | .pc => d.retirePc u lost
  | .isl => if u = 25 then d else d.islandReset u

/-! ### HALT (R468) -/

/-- A network port stops: its Reconciliation Sublayer signals local fault, and a copy in transmission ends with an inverted FCS. -/
def Dev.haltPort (d : Dev) (p : Nat) : Dev :=
  let d := d.emit (.rs p true)
  match d.net.sending.get p with
  | none => d
  | some (st, c) =>
    let d := (d.emit (.frameCut p)).count .NET_TX_ABORT p
    let d : Dev := { d with net := { d.net with sending := d.net.sending.set p none } }
    d.setCopy st c fun k => { k with st := .held }

/-- HALT: STATUS.HALTED is set and everything of R468 stops. -/
def Dev.halt (d : Dev) : Dev :=
  if d.halted then d
  else
    let d := (List.range 32).foldl (fun d p => d.haltPort p) d
    let d := d.put F.FCOL_STATUS_HALTED 0 1
    if d.flag F.GRP_CFG_ENABLE then d.grpSet 6 (d.get F.GRP_STATUS_LEADER) (d.get F.GRP_STATUS_CURRENT) else d

/-! ### Taking a message (R469 to R474) -/

/-- The final level, actions and sequence apply (R467): IRQ, CONTAIN, RESET, HALT. During HALT the middle two are skipped. -/
def Dev.act (d : Dev) (m : FaultMsg) (level acts seq : Nat) (lost : List (Nat × Nat)) : Dev :=
  let d := if bit acts 1 then d.raise (0x560 + m.cls) (level + m.island * 8 + m.block % 32 * 256) (seq + m.kind * 2 ^ 16) else d
  let part := kindPart m.cls m.kind m.island
  let last := match part with | some p => bit acts 2 && !d.isolated p (m.unit p) && d.lastOne p (m.unit p) | none => false
  if bit acts 4 || last then d.halt
  else if d.halted then d
  else
    let d := match part with
      | some p => if bit acts 2 && !d.isolated p (m.unit p) then
          let d : Dev := { d with fc := { d.fc with contAt := d.fc.contAt.set p.code (some d.mono) } }
          d.contain p (m.unit p) lost
        else d
      | none => d
    if bit acts 3 then d.islandReset m.island else d

/-- The entry is written (R469); UNACKED counts those not acknowledged. -/
def Dev.logEntry (d : Dev) (e : LogEntry) : Dev :=
  let pi := d.get F.FCOL_LOG_PI_PI
  let d : Dev := { d with fc := { d.fc with log := d.fc.log.set (pi % 256) (some e), seq := e.seq } }
  let d := d.put F.FCOL_LOG_PI_PI 0 (pi + 1)
  d.put F.FCOL_STATUS_UNACKED 0 d.fc.open_.length

/-- A CONTAIN that is about to start within 10 ms of the last one in its class (R474). -/
def Dev.inWindow (d : Dev) (m : FaultMsg) (acts : Nat) : Bool :=
  match kindPart m.cls m.kind m.island with
  | none => false
  | some p => bit acts 2 && !bit acts 4 && !d.halted && !d.isolated p (m.unit p) &&
      (match d.fc.contAt.get p.code with | some t => decide (d.mono ≤ t + 10000000) | none => false)

/-- The collector takes a message (R469 to R474, R476). `lost` names the copies that a retired pseudo-channel held. -/
def Dev.collect (d : Dev) (m : FaultMsg) (lost : List (Nat × Nat)) : Dev :=
  let r := d.finalLevel m.cls m.dflt
  let level := r.1
  -- An L3 or L4 fault that concerns the island itself asserts its FATAL line (R463); a message at L3 ends the watch of R464.
  let d := if 3 ≤ m.dflt && ownKind m.cls m.kind then d.fatal m.island else d
  let d : Dev := if 3 ≤ level then { d with fc := { d.fc with silent := d.fc.silent.set m.island none } } else d
  let acts := d.actions m.cls level
  let again := match d.fc.noted.get m.key with | some t => decide (d.mono < t + 1000000) | none => false
  if level ≤ 1 && again then d.count .FCOL_SUPPRESSED
  else
    let d : Dev := if level ≤ 1 then { d with fc := { d.fc with noted := d.fc.noted.set m.key (some d.mono) } } else d
    if m.cls = 1 ∧ m.kind = 0x0B then
      -- The log memory has failed (R476).
      (d.fatal 25).put F.FCOL_STATUS_LOG_FAILED 0 1
    else if d.flag F.FCOL_STATUS_LOG_FAILED then (d.count .FCOL_LOG_LOST).act m level acts 0 lost
    else
      let slot := d.get F.FCOL_LOG_PI_PI % 256
      let full := match d.fc.log.get slot with | some e => !e.acked | none => false
      if full then ((d.count .FCOL_LOG_LOST).put F.FCOL_STATUS_LOG_FULL 0 1).act m level acts 0 lost
      else
        let seq := if d.fc.seq = 0xFFFF then 1 else d.fc.seq + 1
        let last := match kindPart m.cls m.kind m.island with
          | some p => bit acts 2 && !d.isolated p (m.unit p) && d.lastOne p (m.unit p) | none => false
        let halts := bit acts 4 || last
        -- The actions applied: with HALT only LOG, IRQ, HALT and PIN (R467); during HALT no CONTAIN or RESET.
        let applied := if halts then bits acts 0 2 + 16 + b2n (bit acts 5) * 32
          else if d.halted then setBits acts 2 2 0 else acts
        let e : LogEntry := { msg := m, seq := seq, level := level, dtb := d.now, dflt := m.dflt, escal := r.2, acked := level ≤ 1,
                              window := d.inWindow m acts, actions := applied }
        (d.logEntry e).act m level acts seq lost

/-- FAULT_MESSAGE (R22, R473): a message in flight reaches the collector, those of one island in order; or one that a detector of
an island sends now. -/
def execFaultMessage (a : FaultArg) (lost : List (Nat × Nat)) (s : State) : Res := s.on fun d =>
  d.onIsland 25 fun d =>
    match a with
    | .inFlight k =>
      match d.ftq[k]? with
      | none => d
      | some m =>
        if (d.ftq.take k).any fun x => x.island == m.island then d
        else Dev.collect { d.reach (d.heldTill m.island 25 m.sent) with ftq := d.ftq.eraseIdx k } m lost
    | .detected cls kind island block addr detail =>
      if (kindLevel cls kind).isNone || decide (26 ≤ island) || !d.isUp island || d.ftq.any (·.island == island) then d
      else (d.reach (d.heldTill island 25 d.mono)).collect ⟨cls, kind, island, block % 32, addr % 2 ^ 52, detail % 2 ^ 32, d.mono⟩ lost

/-- FATAL_ASSERT (R463): an island that cannot deliver a message asserts its line. -/
def execFatalAssert (n : Fin 26) (s : State) : Res := s.on fun d => d.onIsland 25 fun d => d.fatal n.val

/-- FATAL_SILENT (R464): 10 us without a message at L3. -/
def execFatalSilent (n : Fin 26) (s : State) : Res := s.on fun d =>
  d.onIsland 25 fun d =>
    match d.fc.silent.get n.val with
    | none => d
    | some t =>
      let d := d.reach (t + 10000)
      let d : Dev := { d with fc := { d.fc with silent := d.fc.silent.set n.val none } }
      d.collect { cls := 4, kind := 0x0C, island := n.val } []

/-- A sequence number written to FCOL.ACK (R471). -/
def Dev.ackFault (d : Dev) (seq : Nat) : Dev :=
  match d.fc.log.cells.find? fun c => match c.2 with | some e => !e.acked && e.seq == seq | none => false with
  | none => d.ignored .FCOL_ACK 0 cACK_MISMATCH
  | some (slot, e) =>
    let d : Dev := { d with fc := { d.fc with log := d.fc.log.set slot (e.map fun e => { e with acked := true }) } }
    let d := d.put F.FCOL_STATUS_UNACKED 0 d.fc.open_.length
    if slot = d.get F.FCOL_LOG_PI_PI % 256 then d.put F.FCOL_STATUS_LOG_FULL 0 0 else d

/-- The 32 bytes of a log entry (Table 21-9, Table 21-1). -/
def LogEntry.bytes (e : LogEntry) : List Nat :=
  let m := e.msg
  toLe 4 (e.seq % 2 ^ 16 + m.kind * 2 ^ 16 + m.cls * 2 ^ 24 + e.level * 2 ^ 28)
    ++ toLe 4 (m.island + m.block % 32 * 2 ^ 5 + m.addr % 2 ^ 20 * 2 ^ 12)
    ++ toLe 4 (m.addr / 2 ^ 20) ++ toLe 4 m.detail ++ toLe 8 e.dtb
    ++ toLe 4 (e.dflt + b2n e.escal * 8 + b2n e.acked * 16 + b2n e.window * 32 + e.actions % 64 * 64) ++ toLe 4 0

/-- FAULT_ACK (R469, R471): the unacknowledged entry that holds SEQ is acknowledged. -/
def execFaultAck (seq : BitVec 16) (s : State) : Res := s.on fun d => d.onIsland 25 fun d => d.ackFault seq.toNat

/-- A pod contained for the third time within 3,600 s stays isolated (Table 21-10). -/
def Dev.podStays (d : Dev) (p : Nat) : Bool :=
  match d.fc.podCont.get p with
  | [a, _, c] => decide (a ≤ c + 3600000000000)
  | _ => false

/-- LOG_MEMORY_FAILURE (R476). -/
def execLogMemoryFailure (s : State) : Res := s.on fun d =>
  d.onIsland 25 fun d => (d.fatal 25).put F.FCOL_STATUS_LOG_FAILED 0 1

/-- OPERATION_HANG (R462): a lookup unit (0), a DMA channel (1) or a slice (2) has made no progress for 1 ms. -/
def execOperationHang (part : Fin 3) (u : Fin 64) (s : State) : Res := s.on fun d =>
  match part.val with
  | 0 => d.onIsland 22 fun d => d.fault 4 8 22 (u.val % 8)
  | 1 => d.onIsland 20 fun d => d.fault 4 9 20 u.val
  | _ => d.onIsland 20 fun d => d.fault 4 0x0A 20 (u.val % 4)

/-- STEWARD_WATCHDOG (R462): 500 ms without service by the firmware that runs. -/
def execStewardWatchdog (s : State) : Res := s.on fun d =>
  d.onIsland 24 fun d => if d.stw.running then d.fault 4 7 24 else d

/-- DROOP_FLOOR (R462): a pod's clock is at its floor for more than 1 ms. -/
def execDroopFloor (p : Fin 16) (s : State) : Res := s.on fun d =>
  d.onIsland p.val fun d =>
    (((d.put F.POD_CLK_STATUS_FREQ_MHZ p.val 1200).put F.POD_CLK_STATUS_AT_FLOOR p.val 1).fault 6 7 p.val p.val 1200)

/-- CE_STORM (R462): a memory instance of an island corrects 1,000 errors within 1 s; sent at most once per second per instance. -/
def execCeStorm (n : Fin 26) (block : Fin 32) (mem : BitVec 8) (syndrome : BitVec 8) (s : State) : Res := s.on fun d =>
  d.onIsland n.val fun d =>
    let k := (n.val * 32 + block.val) * 256 + mem.toNat
    let early := match d.fc.storm.get k with | some t => decide (d.mono < t + 1000000000) | none => false
    if early then d
    else
      let d : Dev := { d with fc := { d.fc with storm := d.fc.storm.set k (some d.mono) } }
      d.fault 0 0x0B n.val (syndrome.toNat + mem.toNat * 256) 0 0 (some block.val)

/-- DTB_ALIGN (R462, R537): an island's DTB differs from the AON reference by more than 2 ns. -/
def execDtbAlign (n : Fin 26) (s : State) : Res := s.on fun d =>
  d.onIsland n.val fun d =>
    let e := (d.sys.localErr.get n.val).natAbs
    if 2 < e then d.fault 11 6 n.val n.val e else d

end Sys2Proof.Machine
end

