-- ==== Sys2Proof/Machine/Fuses.lean ====
section
/-!
DEFINITION. The fuse array (26): sensing and classification (R553 to R559), SECURE_HOLD (R561), lifecycle (R562, R563),
programming (R564 to R568) and anti-rollback (R569, R570).
-/
namespace Sys2Proof.Machine

/-! ### The code and the classes of copies (R554) -/

/-- The check bits of 32 data bits; a blank word reads 0 in all 39 bits. -/
def fuseEcc (v : Nat) : Nat := if v = 0 then 0 else Config.fuseEcc v % 128

/-- The 39 bits of a word with its check bits. -/
def fuseCode (v : Nat) : Nat := v % 2 ^ 32 + fuseEcc (v % 2 ^ 32) * 2 ^ 32

/-- The syndrome of 39 bits is 0. -/
def codeClean (c : Nat) : Bool := c / 2 ^ 32 == fuseEcc (c % 2 ^ 32)

/-- 39 bits with a single-bit error corrected. -/
def codeFix (c : Nat) : Option Nat :=
  if codeClean c then some (c % 2 ^ 32)
  else ((List.range 39).map fun i => Nat.xor c (2 ^ i)).findSome? fun x => if codeClean x then some (x % 2 ^ 32) else none

/-- How a copy reads: settled with data, correctable to data, or unusable. -/
inductive CopyRead where
  | settled (v : Nat)
  | correctable (v : Nat)
  | unusable
deriving DecidableEq, Repr

/-- The class of three reads (R554). -/
def classify (l n h : Nat) : CopyRead :=
  if l = n ∧ n = h ∧ codeClean n then .settled (n % 2 ^ 32)
  else if n = l ∨ n = h then (match codeFix n with | some v => .correctable v | none => .unusable)
  else .unusable

/-- The settled data of a copy. -/
def CopyRead.data : CopyRead → Option Nat
  | .settled v => some v
  | _ => none

/-- The corrected data of a correctable copy. -/
def CopyRead.fixed : CopyRead → Option Nat
  | .correctable v => some v
  | _ => none

/-- The read of a copy at a margin. -/
def readFuse (ov : List FuseRead) (w c m blown : Nat) : Nat :=
  match ov.find? fun e => e.1 == w && e.2.1 == c && e.2.2.1 == m with
  | some e => e.2.2.2 % 2 ^ 39
  | none => blown

/-- The SET pattern of a step word. -/
def setPattern : Nat := 0x5A5AA5A5

/-- Step words, and reserved security words (Table 26-1). -/
def isStep (w : Nat) : Bool := decide (w ≤ 2) || decide (32 ≤ w ∧ w ≤ 95)
def isReservedSec (w : Nat) : Bool := decide (5 ≤ w ∧ w ≤ 7) || decide (28 ≤ w ∧ w ≤ 31) || decide (120 ≤ w ∧ w ≤ 127)
def isReserved (w : Nat) : Bool := isReservedSec w || decide (131 ≤ w ∧ w ≤ 135) || decide (480 ≤ w)

/-- The safe default of a non-security word (Table 26-2). -/
def safeDefault (w : Nat) : Nat :=
  if w = 130 then 1 else if 136 ≤ w ∧ w ≤ 255 then Config.trimDefault w % 2 ^ 32 else 0

/-- The outcome for a word: STATE, COPY and value (R554 to R556). -/
def wordOutcome (w : Nat) (a b : CopyRead) : Nat × Nat × Nat :=
  let settled : Option (Nat × Nat) := match a.data, b.data with
    | some x, some y => if x = y then some (0, x) else none
    | some x, none => some (1, x)
    | none, some y => some (2, y)
    | none, none => none
  let conflict : Bool := match a.data, b.data with | some x, some y => x != y | _, _ => false
  if w < 128 then
    match settled with
    | some (c, v) =>
      if (isStep w ∧ v ≠ 0 ∧ v ≠ setPattern) ∨ (isReservedSec w ∧ v ≠ 0) then (3, 3, 0) else (0, c, v)
    | none => (3, 3, 0)
  else match settled with
    | some (c, v) => (0, c, v)
    | none =>
      if conflict then (2, 3, safeDefault w)
      else match a.fixed, b.fixed with
        | some x, some y => if x = y then (1, 1, x) else (2, 3, safeDefault w)
        | some x, none => (1, 1, x)
        | none, some y => (1, 2, y)
        | none, none => (2, 3, safeDefault w)

/-! ### The sense (R557 to R559) -/

/-- A copy drifts at a sense: its N read differs from its LAST or from the value of the opposite band (R559). -/
def FuseCopy.drifts (x : FuseCopy) (hot : Bool) (n : Nat) : Bool :=
  (match x.last with | some v => v != n | none => false) ||
    (match (if hot then x.cold else x.hot) with | some v => v != n | none => false)

/-- The record of a copy that did not drift. -/
def FuseCopy.learn (x : FuseCopy) (hot : Bool) (n : Nat) : FuseCopy :=
  if hot then { x with last := some n, hot := some n } else { x with last := some n, cold := some n }

/-- A word. -/
def Dev.fuse (d : Dev) (w : Nat) : FuseWord := d.stw.fuses.get w
def Dev.setFuse (d : Dev) (w : Nat) (x : FuseWord) : Dev := { d with stw := { d.stw with fuses := d.stw.fuses.set w x } }

/-- The sense of one word. -/
def Dev.senseWord (d : Dev) (ov : List FuseRead) (hot : Bool) (w : Nat) : Dev :=
  let x := d.fuse w
  let rd (c m : Nat) (f : FuseCopy) : Nat := readFuse ov w c m f.blown
  let na := rd 0 1 x.a
  let nb := rd 1 1 x.b
  let da := x.a.drift || (!x.pending && x.a.drifts hot na)
  let db := x.b.drift || (!x.pending && x.b.drifts hot nb)
  let ca := if da then .unusable else classify (rd 0 0 x.a) na (rd 0 2 x.a)
  let cb := if db then .unusable else classify (rd 1 0 x.b) nb (rd 1 2 x.b)
  let o := wordOutcome w ca cb
  let a := if da then { x.a with drift := true } else x.a.learn hot na
  let b := if db then { x.b with drift := true } else x.b.learn hot nb
  let d := d.setFuse w { a := a, b := b, pending := false, value := o.2.2 }
  let d := d.wr .FUSE_WORD_STATE w (o.1 + o.2.1 * 8 + b2n da * 32 + b2n db * 64)
  let d := d.wr .FUSE_VALUE w (if 20 ≤ w ∧ w ≤ 27 then 0 else o.2.2)
  let d := if da || db then d.fault 12 2 25 w else d
  let d := if o.1 = 1 then d.fault 12 6 25 w else if o.1 = 2 then d.fault 12 1 25 w else d
  match o.1, Config.repairPod w with
  | 2, some p => if 256 ≤ w ∧ w ≤ 447 then d.put F.FCOL_PART_ISO_POD 0 (setBits (d.get F.FCOL_PART_ISO_POD) (p % 16) 1 1) else d
  | _, _ => d

/-- The value in use of a word (the fuse shadow). -/
def Dev.fuseVal (d : Dev) (w : Nat) : Nat := (d.fuse w).value

/-- The grade's thresholds of channels 0 to 13 as the reset values of EYE.THR (R606): MDY-4832-E for GRADE 2, otherwise MDY-4832-C. -/
def Dev.gradeThr (d : Dev) : Dev :=
  if d.fuseVal 130 % 4 = 2 then
    (List.range 14).foldl (fun d c => ((d.put F.EYE_THR_WARN c 100).put F.EYE_THR_THROT c 105).put F.EYE_THR_CRIT c 120) d
  else d

/-- Island 24 leaves a reset: the scan of Eyespot begins, under the thresholds of the grade in the fuse shadow (28 Model). -/
def Dev.eyeStart (d : Dev) : Dev := ({ d with eye := { last := d.mono } } : Dev).gradeThr

/-- The lifecycle state of the shadow (R562). -/
def Dev.lifecycle (d : Dev) : Nat :=
  if d.fuseVal 2 = setPattern then 3 else if d.fuseVal 1 = setPattern then 2 else if d.fuseVal 0 = setPattern then 1 else 0

/-- The anti-rollback counter of the shadow (R569). -/
def Dev.rollbackV (d : Dev) : Nat :=
  ((List.range 64).filter fun k => d.fuseVal (32 + k) == setPattern).foldl (fun _ k => k + 1) 0

/-- FUSE.ROLLBACK shows the counter. -/
def Dev.showRollback (d : Dev) : Dev :=
  let v := d.rollbackV
  d.wr .FUSE_ROLLBACK 0 (v + b2n (decide (56 ≤ v)) * 128 + b2n (v == 64) * 256)

/-- The start ends in SECURE_HOLD (R561). -/
def Dev.secureHold (d : Dev) (w : Nat) : Dev :=
  let d := ((d.put F.FUSE_STATUS_FAIL_WORD 0 w).put F.FUSE_STATUS_SECURE_HOLD 0 1).put F.RST_START_PHASE 0 6
  let d : Dev := { d with stw := { d.stw with start := { d.stw.start with sensing := false } } }
  (d.fault 12 3 25 w).fault 10 6 25

/-- A milestone of the start (Table 25-3). -/
def Dev.milestone (d : Dev) (k : Nat) : Dev := (d.wr .RST_MILESTONE k d.now).raiseLocal 25 34 k (d.now % 2 ^ 32)

/-- The words that the sense found not settled. -/
def Dev.unsettled (d : Dev) : List Nat := (List.range 512).filter fun w => d.get F.FUSE_WORD_STATE_STATE w != 0

/-- The sense completes (R557): band, words, STATUS and the next phase of the start. -/
def Dev.senseDone (d : Dev) (tj : Nat) (ov : List FuseRead) (bad : Bool) : Dev :=
  let hot := decide (45 ≤ signed 8 tj)
  let d := if bad && d.stw.health then d.fault 12 4 25 else d
  let record := d.stw.health && !bad
  let clear (x : FuseCopy) : FuseCopy := { blown := x.blown }
  let fuses := if record then d.stw.fuses else d.stw.fuses.mapListed fun _ x => { a := clear x.a, b := clear x.b }
  let d : Dev := { d with stw := { d.stw with fuses := fuses, health := true } }
  let d := (List.range 512).foldl (fun d w => d.senseWord ov hot w) d
  let l := d.unsettled
  let fail := l.find? fun w => decide (w < 128)
  let lc := d.lifecycle
  let st := 1 + b2n (!record) * 4 + lc * 8 + b2n hot * 32 + min 1023 l.length * 64 + 0x3FF * 2 ^ 16
  let d := ((d.wr .FUSE_STATUS 0 st).wr .FUSE_SENSE_TJ 0 (tj % 256)).wr .FUSE_SENSE_DTB 0 d.now
  let d := d.showRollback.gradeThr
  let d := match fail with
    | some w => d.secureHold w
    | none =>
      let d : Dev := { d with stw := { d.stw with start := { d.stw.start with sensing := false, step := 1 } } }
      (d.put F.RST_START_PHASE 0 1).milestone 0
  let d := d.raiseLocal 25 24 l.length (d.rd .FUSE_STATUS 0)
  if lc = d.stw.lcSeen then d
  else ({ d with stw := { d.stw with lcSeen := lc } } : Dev).raiseLocal 25 27 lc 0

/-- FUSE_SENSE (R557): the sense of a COLD_RESET or Cocoon exit. `tj` is the die temperature, `ov` the reads that differ from
what was blown, `bad` a health record whose CRC fails. -/
def execFuseSense (tj : BitVec 8) (ov : List FuseRead) (bad : Bool) (s : State) : Res := s.on fun d =>
  if d.stw.start.sensing then d.senseDone tj.toNat ov bad else d

/-- SENSE_TIMEOUT (R557): the sense is not done 5 ms after its reference event; `w` is the first word not sensed. -/
def execSenseTimeout (w : Fin 512) (s : State) : Res := s.on fun d =>
  if d.stw.start.sensing then ((d.reach (d.stw.start.ref + 5000000)).fault 12 5 25 w.val).secureHold w.val else d

/-! ### Programming (R564 to R568) -/

/-- A command of FUSE.PW completes (R564). -/
def Dev.pwDone (d : Dev) (status detail : Nat) : Dev :=
  (d.winDone .pw [(0x200, status + detail % 2 ^ 16 * 2 ^ 16)]).raiseLocal 25 25 status detail

/-- JTAG reaches the window in BLANK, and in DEVELOPMENT while DEBUG_OFF is 0. -/
def Dev.pwReach (d : Dev) (src : PwSource) : Bool :=
  match src with
  | .jtag => let lc := d.get F.FUSE_STATUS_LC; lc == 0 || (lc == 1 && !bit (d.fuseVal 3) 0)
  | _ => true

/-- A command of FUSE.PW; from JTAG where the lock forbids it, the instruction acts as BYPASS (R563). -/
def Dev.pwSubmit (d : Dev) (src : PwSource) (f : Dev → Dev) : Dev :=
  if d.pwReach src then d.submit .pw f else d.fault 10 7 25

/-- One word is programmed (R567); none where a copy did not settle. -/
def Dev.blow (d : Dev) (miss : List FuseMiss) (w v : Nat) : Dev × Bool :=
  let hot := d.flag F.FUSE_STATUS_BAND
  let x := d.fuse w
  let code := fuseCode v
  let left (c : Nat) : Option Nat := (miss.find? fun m => m.1 == w && m.2.1 == c).map (·.2.2 % 2 ^ 39)
  let put (c : Nat) (y : FuseCopy) : FuseCopy := { y with blown := (left c).getD code }
  if (left 0).isSome || (left 1).isSome then (d.setFuse w { x with a := put 0 x.a, b := put 1 x.b, pending := true }, false)
  else (d.setFuse w { x with a := (put 0 x.a).learn hot code, b := (put 1 x.b).learn hot code, pending := false }, true)

/-- Words are programmed in order: the first that fails, none where all settle. -/
def Dev.blowAll (d : Dev) (miss : List FuseMiss) : List (Nat × Nat) → Dev × Option Nat
  | [] => (d, none)
  | (w, v) :: t =>
    let r := d.blow miss w v
    if r.2 then r.1.blowAll miss t else (r.1, some w)

/-- A word reads 0 at all margins in both copies. -/
def Dev.fuseBlank (d : Dev) (w : Nat) : Bool := (d.fuse w).a.blown == 0 && (d.fuse w).b.blown == 0

/-- PROGRAM may write a word in the lifecycle state (Table 26-6). -/
def Dev.mayProgram (d : Dev) (w : Nat) : Bool :=
  let key := w == 3 || w == 4 || decide (96 ≤ w ∧ w ≤ 119)
  match d.get F.FUSE_STATUS_LC with
  | 0 => !isStep w && !isReserved w
  | 1 => key || decide (448 ≤ w ∧ w ≤ 479)
  | 2 => key
  | _ => false

/-- Programming ends: VERIFY_FAIL with the word, or OK. -/
def Dev.pwVerified (r : Dev × Option Nat) : Dev :=
  match r.2 with | some w => r.1.pwDone 5 w | none => r.1.pwDone 0 0

/-- PROGRAM (R565 to R567). -/
def execProgram (src : PwSource) (word : BitVec 9) (data : List (BitVec 32)) (miss : List FuseMiss) (s : State) : Res :=
  s.on fun d => d.pwSubmit src fun d =>
    let n := data.length
    let ws := (List.range n).map (word.toNat + ·)
    if n = 0 ∨ 24 < n ∨ 511 < word.toNat + n then d.pwDone 3 word.toNat
    else match ws.find? fun w => !d.mayProgram w with
      | some w => d.pwDone 1 w
      | none => match ws.find? fun w => !d.fuseBlank w with
        | some w => d.pwDone 2 w
        | none => Dev.pwVerified (d.blowAll miss (ws.zip (data.map (·.toNat))))

/-- LC_ADVANCE (R562): the next lifecycle step word. -/
def execLcAdvance (src : PwSource) (miss : List FuseMiss) (s : State) : Res := s.on fun d => d.pwSubmit src fun d =>
  let lc := d.get F.FUSE_STATUS_LC
  let zero (a n : Nat) : Bool := (List.range n).all fun k => d.fuseVal (a + k) == 0
  if 2 < lc then d.pwDone 1 0
  else if lc = 0 ∧ (zero 8 12 ∨ zero 20 8) then d.pwDone 4 0
  else if !d.fuseBlank lc then d.pwDone 2 lc
  else Dev.pwVerified (d.blowAll miss [(lc, setPattern)])

/-- The counter advances to `t` (R570): the result of the blowing, with the shadow and FUSE.ROLLBACK brought up to date. -/
def Dev.advanceTo (d : Dev) (miss : List FuseMiss) (t : Nat) : Dev × Option Nat :=
  let v := d.rollbackV
  let r := d.blowAll miss ((List.range (t - v)).map fun k => (32 + v + k, setPattern))
  let top := match r.2 with | some w => w - 32 | none => t
  let d := (List.range (top - v)).foldl (fun d k =>
    let w := 32 + v + k
    (d.setFuse w { d.fuse w with value := setPattern }).wr .FUSE_VALUE w setPattern) r.1
  let d := d.showRollback
  (if v < 56 ∧ 56 ≤ top then d.raiseLocal 25 26 top 0 else d, r.2)

/-- ROLLBACK_ADVANCE's outcome for a target (R570): status and DETAIL. -/
def Dev.rollbackAdvance (d : Dev) (miss : List FuseMiss) (t : Nat) : Dev × Nat × Nat :=
  let lc := d.get F.FUSE_STATUS_LC
  let v := d.rollbackV
  if lc = 0 ∨ lc = 3 then (d, 1, 0)
  else if 64 < t then (d.fault 10 5 25, 6, 0)
  else if t = v then (d, 0, 0)
  else if t < v then (d.ignored .FUSE_ROLLBACK 0 cLIMIT_DOWN, 7, 0)
  else match d.advanceTo miss t with
    | (d, some w) => (d, 5, w)
    | (d, none) => (d, 0, 0)

/-- ROLLBACK_ADVANCE (R570). -/
def execRollbackAdvance (src : PwSource) (t : BitVec 8) (miss : List FuseMiss) (s : State) : Res := s.on fun d =>
  d.pwSubmit src fun d => let r := d.rollbackAdvance miss t.toNat; r.1.pwDone r.2.1 r.2.2

/-! ### JTAG (R563) -/

/-- The JTAG port accepts an instruction. -/
def Dev.jtagAccepts (d : Dev) (i : JtagInsn) : Bool :=
  let lc := d.get F.FUSE_STATUS_LC
  let lock := d.fuseVal 3
  let open_ := lc == 0 || lc == 3
  match i with
  | .bypass | .idcode => true
  | .boundary => open_ || !bit lock 1
  | .other => open_ || (lc == 1 && !bit lock 0 && !bit lock 1)

/-- JTAG_INSTRUCTION (R563): an instruction that is not accepted acts as BYPASS and raises JTAG_LOCKED_ACCESS. -/
def execJtagInstruction (i : JtagInsn) (s : State) : Res := s.on fun d => if d.jtagAccepts i then d else d.fault 10 7 25

end Sys2Proof.Machine
end

