-- ==== Sys2Proof/Machine/HostPort.lean ====
section
/-!
DEFINITION. Host ports and functions (14): port states (R343 to R347), Bus Master Enable (R337, R338), resets of functions
(R339), SR-IOV (R327, R410, R411), and configuration requests.
-/
namespace Sys2Proof.Machine

/-- The PFs of a host port, and the instances of their functions. -/
def Dev.pfsOn (d : Dev) (h : Nat) : List Nat := (List.range 4).filter fun p => d.pfExists p && d.portOfPf p == h
def Dev.fnsOn (d : Dev) (h : Nat) : List Nat := (d.pfsOn h).flatMap d.pfInsts

/-- STATE of a host port: 0 ABSENT, 1 WAIT, 2 UP, 3 HOLD, 4 DETACHED. -/
def Dev.hpState (d : Dev) (h : Nat) : Nat := d.get F.HOST_PORT_STATUS_STATE h

/-- A host port beside its registers. -/
def Dev.hport (d : Dev) (h : Nat) : HPort := d.hst.ports.get h
def Dev.setHport (d : Dev) (h : Nat) (x : HPort) : Dev := { d with hst := { d.hst with ports := d.hst.ports.set h x } }

/-- A port changes STATE (Table 14-3): CHANGE is set and HOST_LINK_CHANGE raised. A port that leaves UP shows no link, and
mailbox messages towards its functions find their receiver absent (R434). -/
def Dev.setHp (d : Dev) (h st : Nat) : Dev :=
  if d.hpState h = st then d
  else
    let was := d.hpState h
    let d := (d.put F.HOST_PORT_STATUS_STATE h st).put F.HOST_PORT_STATUS_CHANGE h 1
    let d := if st = 2 then d
      else ((d.put F.HOST_PORT_STATUS_WIDTH h 0).put F.HOST_PORT_STATUS_SPEED h 0).put F.HOST_PORT_STATUS_FLIT h 0
    let d := if was = 2 then d.mbxLose (fun i => d.hostPortOf i == h) 3 else d
    d.raiseLocal 20 0 h (d.rd .HOST_PORT_STATUS h)

/-! ### Pausing and resuming (R337, R338) -/

/-- The host reads of programs through functions that `f` names complete HOST_ERR (R338, R343). -/
def Dev.failHrds (d : Dev) (f : Nat → Bool) : Dev :=
  let hit (o : DmaOp) : Bool := f o.inst && (match o.fin with | .hrd _ _ => true | _ => false)
  let ops := d.hst.rdOps.filter hit ++ d.hst.chans.cells.flatMap fun c => c.2.ops.filter hit
  let d := d.cancelReads hit
  ops.foldl (fun d o => match o.fin with
    | .hrd th tk =>
      let t := d.ths.get th
      let k := t.tks.get tk
      if k.st = 1 ∧ k.sent = o.id + 1 then
        let k := { k with resp := some { status := 4, bytes := List.replicate o.len 0 } }
        { d with ths := d.ths.set th { t with tks := t.tks.set tk k } }
      else d
    | _ => d) d

/-- A function's work pauses in place. -/
def Dev.pauseFn (d : Dev) (i : Nat) (x : Fn) : Dev :=
  (d.setFn i { x with paused := some (x.paused.getD d.mono) }).failHrds (· == i)

/-- A function whose Bus Master Enable is 1 in D0, and which is not frozen in place, resumes its work in order. -/
def Dev.resumeFn (d : Dev) (i : Nat) : Dev :=
  let x := d.fn i
  if x.bme && !x.d3 && d.get F.MIG_STATE_MSTATE i != 3 then
    let d := d.setFn i { x with paused := none, ovr := false }
    (List.range 64).foldl (fun d c => if d.get F.DMA_CHAN_CFG_OWNER_PF c == i && decide (i < 4) then d.issueFlush c else d) d
  else d

/-- The write of a copy has joined its DMA channel. -/
def Dev.copyPlaced (d : Dev) (st c : Nat) : Bool :=
  d.hst.chans.cells.any fun x => x.2.ops.any fun o => match o.fin with
    | .rqData _ _ _ s k => s == st && k == c
    | .entry _ _ (some (s, k)) => s == st && k == c
    | _ => false

/-- The copies bound for receive queues of functions that `f` names and held for them are LINK_LOST, subcode HOST (R338,
R344). -/
def Dev.loseHeld (d : Dev) (f : Nat → Bool) : Dev :=
  d.items.cells.foldl (fun d e => match e.2 with
    | none => d
    | some x => (List.range x.copies.length).foldl (fun d c => match d.copy e.1 c with
      | some k =>
        let hit := k.dtype == 1 && (k.st == .onchip || k.st == .deep || (k.st == .sending && !d.copyPlaced e.1 c))
          && (match d.rangeOwner 0 k.dest with | some i => f i | none => false)
        if hit then d.loseCopy e.1 c 4 2 else d
      | none => d) d) d

/-! ### Link loss and requested resets (R343 to R345) -/

/-- The port's hold time. -/
def Dev.hpHold (d : Dev) (h : Nat) : Nat := d.get F.HOST_PORT_CFG_HOST_HOLD_MS h * 1000000

/-- A detach: the port is in HOLD, its functions lose their configuration and pause, their reads are reissued on
resumption. -/
def Dev.detach (d : Dev) (h : Nat) : Dev :=
  let d := ((d.count .HOST_DETACH_CNT h).fault 14 1 20 h).fault 2 0x0A 20 h
  let d := d.setHp h 3
  let d := d.setHport h { d.hport h with hold := some (d.mono + d.hpHold h) }
  let d := (d.fnsOn h).foldl (fun d i =>
    let x := d.fn i
    d.pauseFn i { flr := x.flr, numVfs := x.numVfs, vfEn := x.vfEn, eqCh := x.eqCh, paused := x.paused }) d
  d.reissue fun r => r.port == h

/-- The steps of R344: held copies are LINK_LOST, then each PF of the port is reset. -/
def Dev.hpReset (d : Dev) (h : Nat) : Dev :=
  let l := d.fnsOn h
  let d := d.loseHeld fun i => l.contains i && (d.fn i).paused.isSome
  let d := d.setHport h { d.hport h with hold := none }
  let d := (d.pfsOn h).foldl (fun d p => d.functionReset p) d
  d.failHrds l.contains

/-- A requested reset (R345). -/
def Dev.hpRequested (d : Dev) (h kind : Nat) : Dev :=
  let d := (d.count .HOST_DETACH_CNT h).fault 14 kind 20 h
  (d.hpReset h).setHp h 1

/-- The link of a port has trained (R324, R347): width, rate and flit mode. -/
def Dev.hpTrained (d : Dev) (h w sp : Nat) (flit : Bool) : Dev :=
  let st := d.hpState h
  if st = 0 ∨ st = 2 ∨ ¬ (d.hport h).released ∨ (d.hport h).perst then d
  else
    let d := if st = 4 then d.setHp h 1 else d
    let d := d.setHport h { d.hport h with hold := none }
    let d := (d.put F.HOST_PORT_STATUS_WIDTH h w).put F.HOST_PORT_STATUS_SPEED h sp
    let d := (d.put F.HOST_PORT_STATUS_FLIT h (b2n flit)).setHp h 2
    if w < 8 ∨ sp < min (d.get F.HOST_PORT_CFG_MAX_SPEED h) 5 then d.fault 2 9 20 h else d

/-! ### Function resets (R339) -/

/-- An FLR of a VF. -/
def Dev.flrVf (d : Dev) (i : Nat) : Dev :=
  if !d.fnExists i then d
  else
    let d := (d.setFn i { flr := true }).failHrds (· == i)
    let d := d.instanceReset i 4
    if d.get F.INST_STATE_STATE i = 1 then d.setFn i {} else d

/-- An FLR of a PF. -/
def Dev.flrPf (d : Dev) (p : Nat) : Dev :=
  if !d.pfExists p then d
  else
    let l := d.pfInsts p
    let d := (d.functionReset p).failHrds l.contains
    if d.get F.INST_STATE_STATE p = 5 then d.setFn p { flr := true } else d

/-! ### SR-IOV (R327, R410, R411) -/

/-- The kinds of Table 17-6: granule and EQUAL minimum. -/
def kindGranule (k : Nat) : Nat := [2, 1, 1, 2, 8, 1, 8, 16, 1, 4].getD k 1
def kindMin (k : Nat) : Nat := [2, 1, 1, 0, 0, 0, 8, 64, 0, 0].getD k 0

/-- The EQUAL share of a VF in kind `k` (R410). -/
def Dev.equalShare (d : Dev) (p k n : Nat) : Nat :=
  let a := d.get F.INST_PF_ALLOT_COUNT (p * 16 + k)
  let r := d.get F.INST_EQUAL_RSV_COUNT (p * 16 + k)
  let g := kindGranule k
  (a - r) / n / g * g

/-- The enabled DMA channels of a PF. -/
def Dev.pfChans (d : Dev) (p : Nat) : List Nat :=
  (List.range 64).filter fun c => d.flag F.DMA_CHAN_CFG_ENABLE c && d.get F.DMA_CHAN_CFG_OWNER_PF c == p

/-- A PF is in EQUAL mode. -/
def Dev.isEqual (d : Dev) (p : Nat) : Bool := d.flag F.INST_PF_MODE_EQUAL p

/-- EQUAL division of a PF among `n` VFs is possible (R411). -/
def Dev.equalOk (d : Dev) (p n : Nat) : Bool :=
  n == 0 || ((List.range 10).all fun k => decide (kindMin k ≤ d.equalShare p k n)) &&
    decide (d.get F.INST_EQUAL_NODE_NODE p + n ≤ 16383) && !(d.pfChans p).isEmpty

/-- VF Enable of a PF is set. -/
def Dev.vfEnable (d : Dev) (p : Nat) : Dev :=
  let x := d.fn p
  if !d.pfExists p || x.vfEn then d
  else if d.vfAllot p < x.numVfs || (d.isEqual p && !d.equalOk p x.numVfs) then d.count .HOST_BAD_ACCESS (d.portOfPf p)
  else (d.setFn p { x with vfEn := true, eqCh := d.pfChans p }).showFns ((List.range x.numVfs).map (d.firstVf p + ·))

/-- VF Enable of a PF is cleared (R407): its VF instances are removed. -/
def Dev.vfDisable (d : Dev) (p : Nat) : Dev :=
  let x := d.fn p
  if !d.pfExists p || !x.vfEn then d
  else
    let l := (List.range x.numVfs).map (d.firstVf p + ·)
    let d := d.setFn p { x with vfEn := false, eqCh := [] }
    let d := l.foldl (fun d i => if d.resettable i then d.instanceReset i 5 else d.toRemove i) d
    let d := (l.foldl (fun d i => d.setFn i {}) d).failHrds l.contains
    d.showFns l

/-! ### Configuration requests (R3, R327, R328, R331, R347) -/

/-- What a configuration read returns. -/
def Dev.cfgRead (d : Dev) (i : Nat) (c : CfgItem) : Nat :=
  let vf := decide (4 ≤ i)
  let p := d.pfOf i
  let second := p % 2 == 1
  match c with
  | .vendorId => if vf then 0xFFFF else 0xB3DC
  | .deviceId => if vf then 0xFFFF else 0x4832
  | .vfDeviceId => 0x4833
  | .revisionId => 0xB1
  | .classCode => 0x020000
  | .subsystem => 0xB3DC + 0x0001 * 2 ^ 16
  | .totalVfs => d.vfAllot p
  | .firstVfOffset => if second then 1 + d.vfAllot (p - 1) else 2
  | .vfStride => 1
  | .numVfs => (d.fn p).numVfs
  | .vfEnable => b2n (d.fn p).vfEn
  | .serial => d.rd .FUSE_VALUE 128 + d.rd .FUSE_VALUE 129 * 2 ^ 32
  | .pending => b2n (d.hst.reads.any fun r => r.tag.isSome && r.inst == i)
  | .msixSize => if vf then 64 else 2048
  | _ => 0

/-- What a configuration write does. NumVFs above TotalVFs, or while VF Enable is 1, stays. -/
def Dev.cfgWrite (d : Dev) (i : Nat) (c : CfgItem) : Dev :=
  let x := d.fn i
  match c with
  | .setNumVfs n =>
    if 4 ≤ i ∨ x.vfEn then d
    else if d.vfAllot i < n then d.count .HOST_BAD_ACCESS (d.hostPortOf i)
    else d.setFn i { x with numVfs := n }
  | .setAts on =>
    let port := d.hostPortOf i
    ({ d with hst := { d.hst with atc := d.hst.atc.set port ((d.hst.atc.get port).filter (·.1 != i)) } } : Dev).setFn i { x with ats := on }
  | .setRelaxed on => d.setFn i { x with relaxed := on }
  | .setTag10 on => d.setFn i { x with tag10 := on }
  | .setTag14 on => d.setFn i { x with tag14 := on }
  | .setTimeout ns => d.setFn i { x with cplTo := ns }
  | .setMps n => if n = 128 ∨ n = 256 ∨ n = 512 then d.setFn i { x with mps := n } else d
  | .setMrrs n =>
    if n = 128 ∨ n = 256 ∨ n = 512 ∨ n = 1024 ∨ n = 2048 ∨ n = 4096 then d.setFn i { x with mrrs := n } else d
  | .setMsix en m => d.setFn i { x with msixEn := en, fmask := m }
  | .setVector v a dt m =>
    if v < (if 4 ≤ i then 64 else 2048) then d.setVec i v { d.vec i v with addr := a, data := dt, mask := m } else d
  | _ => d

/-- A configuration request: retry status (1) before the port's release and during an FLR, unsupported (2) for a function
that does not exist, else done (0) with what a read returns. -/
def Dev.cfgRequest (d : Dev) (i : Nat) (c : CfgItem) : Dev :=
  let h := d.hostPortOf i
  if !(d.hport h).released || (d.fn i).flr then d.emit (.pcie h 3 [i, 1, 0])
  else if !d.fnExists i then d.emit (.pcie h 3 [i, 2, 0])
  else (d.cfgWrite i c).emit (.pcie h 3 [i, 0, d.cfgRead i c])

end Sys2Proof.Machine
end

