-- ==== Sys2Proof/Machine/Silkway.lean ====
section
/-!
DEFINITION. Silkway (01): requests and messages to an island in reset, sequence gaps, failed routers and retired
pseudo-channels; and the wait for the ledgers of R62.
-/
namespace Sys2Proof.Machine

/-- The island that a ticket's request is addressed to; `p` is the pod that asks. -/
def TkReq.island (p : Nat) : TkReq → Option Nat
  | .lk .. | .lkc | .trd .. => some 22
  | .reach .. => some 21
  | .hrd .. => some 20
  | .csrrd _ blk _ _ _ => some (if blk = 0 then p else blkIsland blk)
  | .verdict .. | .saqry .. => some 23
  | TkReq.none => Option.none

/-- REQ_TO_ISLAND_IN_RESET (R16): the request of a ticket is answered ISLAND_ABSENT by the router port. -/
def execReqToIslandInReset (th : Fin 2048) (tk : Fin 8) (s : State) : Res := s.on fun d =>
  let t := d.th th.val
  let k := t.tk tk
  match k.req.island (th.val / 128) with
  | none => d
  | some n =>
    if k.st = 1 ∧ k.resp.isNone ∧ ¬ d.isUp n then d.setTh th.val (t.setTk tk { k with resp := some { status := 6 } }) else d

/-- DISCARD_TO_ISLAND_IN_RESET (R16): an EVT message towards island 20 or a POST towards island 21 is discarded and counted. -/
def execDiscardToIslandInReset (a : DropArg) (s : State) : Res := s.on fun d =>
  match a with
  | .event k =>
    if d.isUp 20 || (d.evq[k]?).isNone then d
    else ({ d with evq := d.evq.eraseIdx k } : Dev).count .SWY_DROP_ABSENT
  | .commit k =>
    if d.isUp 21 || (d.cmsgs[k]?).isNone then d
    else ({ d with cmsgs := d.cmsgs.eraseIdx k } : Dev).count .SWY_DROP_ABSENT

/-- SEQUENCE_GAP (R24, R50): a destination sees a gap of a pair; on a pod-to-BUF pair of class POST (4) the incomplete batches of the
pod are discarded. -/
def execSequenceGap (src dst : Fin 26) (cls : Fin 5) (s : State) : Res := s.on fun d =>
  d.onIsland dst.val fun d =>
    let d := d.fault 2 1 dst.val (src.val + dst.val * 32) cls.val
    if src.val < 16 ∧ dst.val = 21 ∧ cls.val = 4 then
      (d.itemList.filter fun x => x.batch.isSome && x.pod == some src.val).foldl (fun d x => d.discardBatch x.tok.stamp) d
    else d

/-- ROUTER_DECLARED_FAILED (R24, R25): the router has returned no credit and no heartbeat for 1 us. `lost` names the commit messages
in flight that it held, of the pairs whose route passes it (R19). -/
def execRouterDeclaredFailed (r : Fin 36) (lost : List Nat) (s : State) : Res := s.on fun d =>
  if bit (d.get F.FCOL_ROUTER_ISO_ROUTERS) r.val then d
  else
    let kept := (d.cmsgs.mapIdx fun i m => (i, m)).filterMap fun p =>
      if lost.contains p.1 && onRoute r.val p.2.pod 21 then none else some p.2
    (Dev.fault { d with cmsgs := kept } 2 2 24 r.val).routerFails r.val

/-- REROUTE_HOLD_EXPIRY (R25): 2 us after a router was declared failed its pairs send again. -/
def execRerouteHoldExpiry (r : Fin 36) (s : State) : Res := s.on fun d =>
  match d.sys.swyHold.find? (·.1 == r.val) with
  | none => d
  | some h =>
    let d := d.reach h.2
    { d with sys := { d.sys with swyHold := d.sys.swyHold.filter (·.1 != r.val) } }

/-- An entry is lost with its pseudo-channel (R209). -/
def Dev.loseEntry (d : Dev) (n i : Nat) : Dev :=
  match d.entry n i with
  | none => d
  | some e => if d.get F.TABLE_DESC_CFG_PLACE n = 0 then (d.setEntry n i (some { e with lost := true, lostDue := true })).tableSeen n else d

/-- PSEUDO_CHANNEL_RETIRE (R30, R209): a pseudo-channel fails and is retired. `copies` and `entries` name the copies in the deep buffer
and the tier-2 entries (table, index) whose storage it held: where they lie is the hardware's. -/
def execPseudoChannelRetire (pc : Fin 64) (copies entries : List (Nat × Nat)) (s : State) : Res := s.on fun d =>
  d.onIsland 21 fun d =>
    if bit (d.get F.FCOL_PC_RETIRED_PCS) pc.val then d
    else
      let d := (d.fault 1 9 21 (pc.val * 256)).retirePc pc.val copies
      let d := entries.foldl (fun d p => d.loseEntry p.1 p.2) d
      { d with tbl := { d.tbl with rebuild := d.tbl.rebuild ++ [pc.val] } }

/-- STRUCTURE_REBUILD (R209): the structures of a retired pseudo-channel are rebuilt, and every entry that was lost has its LOST
notice. -/
def execStructureRebuild (pc : Fin 64) (s : State) : Res := s.on fun d =>
  d.onIsland 22 fun d =>
    if !d.tbl.rebuild.contains pc.val then d
    else
      let d : Dev := { d with tbl := { d.tbl with rebuild := d.tbl.rebuild.filter (· != pc.val) } }
      d.tbl.entries.cells.foldl (fun d c => match c.2 with
        | some e =>
          if e.lostDue then
            let n := c.1 / 2 ^ 28
            let i := c.1 % 2 ^ 28
            (d.setEntry n i (some { e with lostDue := false })).note 4 n false (d.handle n i) e.vtag 0 e.key
          else d
        | none => d) d

/-- The wait for the ledgers of R62 ends: every PF whose ledger was not written completely gets UNWRITTEN, with the fault
LEDGER_UNWRITTEN. -/
def Dev.markUnwritten (d : Dev) : Dev :=
  ((List.range 4).filter d.warmUnwritten).foldl (fun d p => (d.put F.QE_LEDGER_STATUS_UNWRITTEN p 1).fault 9 4 20 p) d

/-- What follows once the ledgers are written or their wait is over: WARM_RESET takes the islands into reset; an entry to COCOON
waits for COCOON_ENTRY. -/
def Dev.ledgersOver (d : Dev) : Dev :=
  if d.get F.PWR_STATE_STATE = 4 then { d with stw := { d.stw with start := { d.stw.start with ledgers := none } } } else d.warmHold

/-- WARM_LEDGER_TIMEOUT (R62): 20 ms have passed, or every ledger is written (R551). -/
def execWarmLedgerTimeout (s : State) : Res := s.on fun d =>
  match d.stw.start.ledgers with
  | none => d
  | some t =>
    if (List.range 4).any d.warmUnwritten then ((d.reach t).markUnwritten).ledgersOver else d.ledgersOver

end Sys2Proof.Machine
end

