-- ==== Sys2Proof/Machine/Power.lean ====
section
/-!
DEFINITION. Power states, reference clocks and device time (24, 29): entry to COCOON and exit from it, POR_N and PWR_GOOD, loss of a
clock, and the registers of the time servo.
-/
namespace Sys2Proof.Machine

/-- The pins of the power sequence among those that `Out.pin` names: RAIL_EN. -/
def pinRailEn : Nat := 2

/-- RAIL_EN is driven to a level (R524, R525, R620). -/
def Dev.railEn (d : Dev) (up : Bool) : Dev :=
  if d.pwr.rail = up then d
  else
    let d := d.emit (.pin pinRailEn (b2n up))
    { d with pwr := { d.pwr with rail := up, railAt := if up then d.pwr.railAt else d.mono, good := up && d.pwr.good } }

/-- The events of a COCOON transition wait for the exit (R541). -/
def Dev.defer (d : Dev) (l info16 info32 : Nat) : Dev :=
  { d with pwr := { d.pwr with events := d.pwr.events ++ [(evtId 25 l, info16, info32)] } }

/-- PWR.STATE changes within a COCOON transition. -/
def Dev.cocoonState (d : Dev) (st : Nat) : Dev :=
  (d.put F.PWR_STATE_STATE 0 st).defer 16 st (d.get F.PWR_STATE_WAKE_CAUSE)

/-- PWR.STATE changes with its POWER_STATE event (R541). -/
def Dev.powerState (d : Dev) (st : Nat) : Dev :=
  if d.get F.PWR_STATE_STATE = st then d
  else (d.put F.PWR_STATE_STATE 0 st).raiseLocal 25 16 st (d.get F.PWR_STATE_WAKE_CAUSE)

/-! ### Start and straps (R542, R543) -/

/-- What the HOSTBIF strap gives island 20 when it leaves a reset: port H1 and the functions of PF2 and PF3. -/
def Dev.latchHost (d : Dev) : Dev :=
  if d.flag F.RST_STRAPS_HOSTBIF then
    ((d.put F.INST_STATE_STATE 2 1).put F.INST_STATE_STATE 3 1).put F.HOST_PORT_STATUS_STATE 1 1
  else d

/-- The straps are latched: BOOTMODE in [2:0], GID in [4:3], HOSTBIF in [5]. -/
def Dev.latchStraps (d : Dev) (v : Nat) : Dev :=
  let d := d.wr .RST_STRAPS 0 (v % 64 + b2n (bit v 2) * 64)
  d.put F.GRP_STATUS_ID 0 (bits v 3 2 + 1)

/-- The reference event of a start (R543): the islands leave reset, but for pods that stay isolated; the fuse sense begins, or after a
warm release the boot ROM runs. -/
def Dev.refEvent (d : Dev) (cause : Nat) (sense : Bool) : Dev :=
  let d : Dev := { d with sys := { d.sys with islReset := d.get F.FCOL_PART_ISO_POD } }
  let d := (List.range 8).foldl (fun d k => d.wr .RST_MILESTONE k 0) (d.wr .RST_START_REF 0 d.now)
  let d := (d.put F.RST_START_PHASE 0 (if sense then 0 else 1)).put F.RST_START_LAST_CAUSE 0 cause
  let d : Dev := { d with stw := { d.stw with start := { sensing := sense, step := if sense then 0 else 1, ref := d.mono } } }
  let d := d.latchHost.eyeStart
  if sense then d else d.milestone 0

/-! ### Entry to COCOON (R521 to R524) -/

/-- A write that sets COCOON_REQ. -/
def Dev.cocoonReq (d : Dev) : Dev :=
  if d.get F.PWR_STATE_STATE ≠ 3 ∨ d.stw.start.warm.isSome ∨ d.stw.start.ledgers.isSome ∨ ¬ d.flag F.PWR_STATE_XTAL_32K_OK then
    d.ignored .PWR_CTL 0 cBAD_ENUM
  else
    let d := d.cocoonState 4
    let d : Dev := { d with stw := { d.stw with moults := [], due := {} } }
    let busy := (List.range 16).filter fun m => (d.win (.stm (Fin.ofNat 16 m))).st == 1
    let d := busy.foldl (fun d m => d.winDone (.stm (Fin.ofNat 16 m)) [(0x200, 9 + 4 * 256)]) d
    d.warmLedgers

/-- COCOON_REQ (R522, R523, R531): the bit is set in PWR.CTL. -/
def execCocoonReq (s : State) : Res := s.on fun d => d.onIsland 25 fun d => d.byWrite .PWR_CTL 0 fun d => d.cocoonReq

/-- The history of every lane READY for at least 1 s is written (R242, R523); `hist` gives coefficients by lane. -/
def Dev.saveReady (d : Dev) (hist : List (Nat × List Nat)) : Dev :=
  (List.range 48).foldl (fun d i =>
    let n := i / 12
    let k := i % 12
    if hasLane n k && d.laneStage n k == 4 && decide ((d.lane n k).since + 1000000000 ≤ d.mono) then
      let h : Hist := { mapId := d.mapId, instar := d.get F.STM_FW_STATUS_RUN_INSTAR, rate := d.signalling n k, dtb := d.now,
                        coeff := slice ((cellGet hist i).getD []) 0 48 }
      { d with net := { d.net with hist := d.net.hist.set (laneIx n k) (some h) } }
    else d) d

/-- LOCKED is cleared by hardware (R538): UNTRACED, the mirror in GRP.STATUS and the fault; the event is `raise`'s concern. -/
def Dev.unlock (d : Dev) : Dev :=
  (((d.put F.TIME_CTL_LOCKED 0 0).put F.TIME_CTL_UNTRACED 0 1).put F.GRP_STATUS_PTP_LOCK 0 0).fault 11 7 25

/-- The islands lose power and AON runs on XTAL_32K (R524). -/
def Dev.cocoonEnter (d : Dev) (hist : List (Nat × List Nat)) : Dev :=
  let d := (d.saveReady hist).coldIslands
  let d := if d.flag F.TIME_CTL_LOCKED then d.unlock.defer 17 0 0 else d
  let d := (d.cocoonState 1).railEn false
  { d with pwr := { d.pwr with pg := none, hold := none },
           gbl := { cocoon := true, base := d.mono, rend := some d.mono } }

/-- COCOON_ENTRY (R523, R524): the ledgers of R62 are written or their wait is over. -/
def execCocoonEntry (hist : List (Nat × List Nat)) (s : State) : Res := s.on fun d =>
  if d.get F.PWR_STATE_STATE = 4 ∧ d.stw.start.ledgers = none then d.cocoonEnter hist else d

/-! ### Wake and exit (R524 to R526, R620) -/

/-- The wake is taken: RAIL_EN rises and the wait for PWR_GOOD begins. -/
def Dev.wakeUp (d : Dev) (mask : Nat) : Dev :=
  let d := (d.put F.PWR_STATE_WAKE_CAUSE 0 mask).railEn true
  { d with pwr := { d.pwr with latched := 0, pg := some (d.mono + d.get F.PWR_WAKE_CFG_PG_TMO_MS * 1000000), hold := none } }

/-- A wake source is seen (R525): 0 GBL_WAKE, 1 GBL_PULSE, 2 WAKE_N, 3 TIMER. During ENTERING it is latched; in COCOON RAIL_EN rises,
unless a latched wake waits or RAIL_EN is high already. -/
def Dev.cocoonWake (d : Dev) (src : Nat) : Dev :=
  let st := d.get F.PWR_STATE_STATE
  if !bit (d.rd .PWR_WAKE_CFG 0) src then d
  else if st = 4 ∧ d.pwr.latched = 0 then { d with pwr := { d.pwr with latched := 2 ^ src } }
  else if st = 1 ∧ d.pwr.latched = 0 ∧ d.pwr.rail = false then d.wakeUp (2 ^ src)
  else d

/-- COCOON_WAKE (R525). -/
def execCocoonWake (src : Fin 4) (s : State) : Res := s.on fun d =>
  if src.val = 3 then
    if d.get F.PWR_STATE_STATE = 1 ∧ d.flag F.PWR_WAKE_CFG_TIMER_EN ∧ d.pwr.rail = false then
      (d.reach (d.pwr.railAt + d.get F.PWR_WAKE_CFG_TIMER_S * 1000000000)).cocoonWake 3
    else d
  else d.cocoonWake src.val

/-- LATCHED_WAKE (24, When a wake arrives during ENTERING): 100 ms after RAIL_EN fell. -/
def execLatchedWake (s : State) : Res := s.on fun d =>
  if d.get F.PWR_STATE_STATE = 1 ∧ d.pwr.rail = false ∧ d.pwr.latched ≠ 0 then (d.reach (d.pwr.railAt + 100000000)).wakeUp d.pwr.latched else d

/-- PWR_GOOD_ASSERT (R526, R620): the islands stay in reset for 2 ms more. While POR_N is asserted it is only seen; after a loss of
VDD_AON it says that the supplies are back. -/
def execPwrGoodAssert (s : State) : Res := s.on fun d =>
  if d.pwr.off then
    let d : Dev := { d with pwr := { d.pwr with off := false } }
    let d := d.railEn true
    { d with pwr := { d.pwr with good := true } }
  else if d.pwr.good || !d.pwr.rail then d
  else
    let d : Dev := { d with pwr := { d.pwr with good := true, pg := none } }
    if d.pwr.por then d else { d with pwr := { d.pwr with hold := some (d.mono + 2000000) } }

/-- PWR_GOOD_TIMEOUT (R526): no PWR_GOOD within PG_TMO_MS. -/
def execPwrGoodTimeout (s : State) : Res := s.on fun d =>
  match d.pwr.pg with
  | none => d
  | some t =>
    let d := (d.reach t).railEn false
    ({ d with pwr := { d.pwr with pg := none, latched := 0 } } : Dev).fault 6 1 25 0xFFFF

/-- The release at a Cocoon exit (R521, R526, R538, R541). -/
def Dev.cocoonExit (d : Dev) : Dev :=
  let d := ((d.exitAon.put F.TIME_CTL_UNTRACED 0 1).cocoonState 2).refEvent 1 true
  let l := d.pwr.events
  let d : Dev := { d with pwr := { d.pwr with events := [] } }
  l.foldl (fun d e => d.raise e.1 e.2.1 e.2.2) d

/-- ISLAND_RELEASE (R526, R620): 2 ms after PWR_GOOD. After a fall of PWR_GOOD the release acts as POR_N deassertion, and latches
the straps. -/
def execIslandRelease (straps : BitVec 6) (s : State) : Res := s.on fun d =>
  match d.pwr.hold with
  | none => d
  | some t =>
    let d := d.reach t
    let d : Dev := { d with pwr := { d.pwr with hold := none } }
    if d.get F.PWR_STATE_STATE = 1 then d.cocoonExit
    else
      let d := if d.pwr.relatch then d.latchStraps straps.toNat else d
      let d : Dev := { d with pwr := { d.pwr with relatch := false } }
      d.refEvent 0 true

/-! ### POR_N and the supplies (R522, R542, R620) -/

/-- RAIL_EN is high whenever the device is not in COCOON. -/
def Dev.railsOn (d : Dev) : Dev := { d.coldReset with out := if d.pwr.rail then d.out else d.out ++ [.pin pinRailEn 1] }

/-- PWR_GOOD_FALL (29, When PWR_GOOD falls outside COCOON). -/
def execPwrGoodFall (s : State) : Res := s.on fun d =>
  if d.get F.PWR_STATE_STATE = 1 ∨ d.pwr.good = false then d
  else
    let por := d.pwr.por
    let d := d.railsOn
    { d with sys := { d.sys with islReset := 2 ^ 25 - 1 }, pwr := { d.pwr with por := por, good := false, relatch := true } }

/-- POR_ASSERT (R522, R550): COLD_RESET. -/
def execPorAssert (s : State) : Res := s.on fun d => if d.pwr.off then d else d.railsOn

/-- POR_DEASSERT (R542, 29 When POR_N is deasserted before PWR_GOOD): the straps are latched; the start begins at once where PWR_GOOD has
been seen, else at the release. -/
def execPorDeassert (straps : BitVec 6) (s : State) : Res := s.on fun d =>
  if !d.pwr.por || d.pwr.off then d
  else
    let d : Dev := { d with pwr := { d.pwr with por := false, relatch := false }, sys := { d.sys with islReset := 2 ^ 25 - 1 } }
    let d := d.latchStraps straps.toNat
    if d.pwr.good then d.refEvent 0 true else d

/-- AON_POWER_LOSS (R522): the device is OFF. Only the flash and the fuses keep what they hold. -/
def execAonPowerLoss (s : State) : Res := s.on fun d =>
  let d := d.coldReset
  let w := d.stw
  let clear (x : FuseCopy) : FuseCopy := { blown := x.blown }
  let fuses := w.fuses.mapListed fun _ (x : FuseWord) => { x with a := clear x.a, b := clear x.b }
  { d with net := {}, pwr := { por := true, off := true, rail := false, good := false },
           stw := { w with fuses := fuses, health := false } }

/-! ### Parked pods (R527) -/

/-- Every pod in RUN that reports more than 0 has LOAD_THRESH outstanding tokens. -/
def Dev.podsLoaded (d : Dev) : Bool :=
  (List.range 16).all fun p => d.get F.POD_PARK_CTL_STATE p != 0 || !d.isUp p || d.podReport p == 0 ||
    decide (d.get F.PWR_PARK_CFG_LOAD_THRESH ≤ d.podLoad p)

/-- PARK_AUTO_WAKE (R527): the lowest pod that is DRAINING or PARKED is released; one pod per 10 us. -/
def execParkAutoWake (s : State) : Res := s.on fun d => d.onIsland 25 fun d =>
  if !d.flag F.PWR_PARK_CFG_AUTO_WAKE || !(d.podsLoaded || d.get F.FCOL_PART_ISO_POD != 0) then d
  else
    match (List.range 16).find? fun p => d.isUp p && (d.get F.POD_PARK_CTL_STATE p == 1 || d.get F.POD_PARK_CTL_STATE p == 2) with
    | none => d
    | some p =>
      let d := if d.pwr.wakeAt = 0 then d else d.reach (d.pwr.wakeAt + 10000)
      ({ d with pwr := { d.pwr with wakeAt := d.mono } } : Dev).parkRelease p

/-! ### Reference clocks (R529 to R531) -/

/-- A lane whose reference clock is lost returns to SIGNAL_WAIT, and its port or link leaves service. -/
def Dev.laneClockLost (d : Dev) (n k : Nat) : Dev :=
  if hasLane n k && decide (2 ≤ d.laneStage n k) then
    let i := laneIx n k
    let d := if d.flag F.NET_LANE_STATUS_CDR_LOCK i then d.count .NET_CDR_LOSS i else d
    let d := (d.put F.NET_LANE_STATUS_CDR_LOCK i 0).laneState n k 1
    (d.squelchLane n k).laneLeaves n k
  else d

/-- A NET reference clock feeds two islands. -/
def Dev.netClockLost (d : Dev) (c : Nat) : Dev :=
  (List.range 24).foldl (fun d i => let n := 2 * c + i / 12; if d.isUp (16 + n) then d.laneClockLost n (i % 12) else d) d

/-- CLOCK_LOSS (Table 24-3): 0 XTAL_AON, 1 XTAL_32K, 2 and 3 REFCLK_NET0 and 1, 4 and 5 PCIE_REFCLK0 and 1, 6 REFCLK_HBM. -/
def execClockLoss (c : Fin 7) (s : State) : Res := s.on fun d => d.onIsland 25 fun d =>
  match c.val with
  | 0 => d.fault 11 3 25
  | 1 => (d.put F.PWR_STATE_XTAL_32K_OK 0 0).fault 11 4 25
  | 2 => if d.isUp 16 ∨ d.isUp 17 then (d.fault 11 1 25 0).netClockLost 0 else d
  | 3 => if d.isUp 18 ∨ d.isUp 19 then (d.fault 11 1 25 1).netClockLost 1 else d
  | 4 | 5 =>
    let h := c.val - 4
    if !d.isUp 20 || d.hpState h == 0 then d
    else
      let d := d.fault 11 2 25 h
      if d.get F.HOST_PORT_CFG_CLK_MODE h ≠ 2 ∧ d.hpState h = 2 then d.detach h else d
  | _ => if d.isUp 21 then d.fault 11 5 25 else d

/-- XTAL_32K_RECOVER (R531): 1,024 consecutive edges. -/
def execXtal32kRecover (s : State) : Res := s.on fun d => d.onIsland 25 fun d => d.put F.PWR_STATE_XTAL_32K_OK 0 1

/-! ### Device time (R536 to R540) -/

/-- The time registers cannot be written: the device is HALTED (R468). -/
def Dev.timeWrite (d : Dev) (r : Reg) (f : Dev → Dev) : Dev :=
  d.onIsland 25 fun d => d.byWrite r 0 f

/-- The DTB moves forward by `v` ns, and every deadline with it. -/
def Dev.dtbStep (d : Dev) (v : Nat) : Dev :=
  if v = 0 then d
  else
    let frac := d.sys.dtbFrac + v * 2 ^ 32
    let d : Dev := { d with sys := { d.sys with steps := d.sys.steps + v } }
    ((d.setDtb frac).fault 11 8 25).raiseLocal 25 18 0 (v % 2 ^ 32)

/-- TIME_STEP (R539): the step is applied 2 us after the write. -/
def execTimeStep (v : BitVec 64) (s : State) : Res := s.on fun d => d.timeWrite .TIME_STEP fun d =>
  if v.toNat = 0 then d else (d.reach (d.mono + 2000)).dtbStep v.toNat

/-- A software write of TIME.ADJ (R540). One that is ignored changes nothing. -/
def Dev.adjWrite (d : Dev) (v be : Nat) : Dev :=
  let bad := be % 16 = 15 ∧ ¬ (Rng.signed 500000000).ok 32 (v % 2 ^ 32)
  let d := d.writeFields .TIME_ADJ 0 v be []
  if bad then d
  else
    let d := d.put F.TIME_CTL_STEER_EN 0 0
    { d with pwr := { d.pwr with adjAt := d.mono } }

/-- TIME_ADJ_WRITE (R540). -/
def execTimeAdjWrite (v : BitVec 32) (s : State) : Res := s.on fun d => d.timeWrite .TIME_ADJ fun d => d.adjWrite v.toNat 15

/-- A software write of TIME.CTL (Table 24-6): UNTRACED and PTP_LOCK follow LOCKED, and a change raises TIME_LOCK_CHANGE. -/
def Dev.timeCtlWrite (d : Dev) (v be : Nat) (hw : List (Nat × Nat)) : Dev :=
  let was := d.get F.TIME_CTL_LOCKED
  let d := d.writeFields .TIME_CTL 0 v be hw
  let l := d.get F.TIME_CTL_LOCKED
  let d := (d.put F.TIME_CTL_UNTRACED 0 (1 - l)).put F.GRP_STATUS_PTP_LOCK 0 l
  if l = was then d else d.raiseLocal 25 17 l

/-- LOCK_TIMEOUT (R538): LOCK_TMO_S without a write of TIME.ADJ. -/
def execLockTimeout (s : State) : Res := s.on fun d => d.onIsland 25 fun d =>
  if d.flag F.TIME_CTL_LOCKED then
    ((d.reach (d.pwr.adjAt + d.get F.TIME_CTL_LOCK_TMO_S * 1000000000)).unlock).raiseLocal 25 17 0
  else d

/-- TIME_STEER (R540): every 10 ms, -TIME_OFFSET / 100 ms in ppb, clamped to 500,000. -/
def execTimeSteer (s : State) : Res := s.on fun d => d.onIsland 25 fun d =>
  let ld := d.get F.GRP_STATUS_LEADER
  if d.flag F.TIME_CTL_LOCKED || !d.flag F.TIME_CTL_STEER_EN || d.get F.GRP_STATUS_STATE != 3 || ld == d.me then d
  else
    let d := if d.pwr.steerAt = 0 then d else d.reach (d.pwr.steerAt + 10000000)
    let o := signed 64 (d.rd .GRP_TIME_OFFSET 0)
    let v := max (-500000) (min 500000 (-o * 10))
    ({ d with pwr := { d.pwr with steerAt := d.mono } } : Dev).wr .TIME_ADJ 0 (unsigned 32 v)

/-- DTB_SYNC (R537): the message of 1 us finds the local DTB of an island `e` ns from the master, and corrects it. -/
def execDtbSync (n : Fin 26) (e : BitVec 16) (s : State) : Res := s.on fun d => d.onIsland n.val fun d =>
  { d with sys := { d.sys with localErr := d.sys.localErr.set n.val (signed 16 e.toNat) } }

end Sys2Proof.Machine
end

