-- ==== Sys2Proof/Machine/Beacon.lean ====
section
/-!
DEFINITION. The group beacon line (22, R496 to R502): slot timing, beacons and their reports, re-rendezvous, and wakes.
-/
namespace Sys2Proof.Machine

/-! ### Timing (Table 22-7) -/

/-- Slot, guard, the unit of OFFSET, the hold-over, and the time of `n` cells, in ns. -/
def Dev.gblSlot (d : Dev) : Nat := if d.gbl.cocoon then 128000000 else 125000
def Dev.gblGuard (d : Dev) : Nat := if d.gbl.cocoon then 2000000 else 8000
def Dev.gblUnit (d : Dev) : Nat := d.gblGuard / 64
def Dev.gblHold (d : Dev) : Nat := if d.gbl.cocoon then 5000000000 else 20000000
def Dev.gblCells (d : Dev) (n : Nat) : Nat := if d.gbl.cocoon then n * 48828125 / 100 else n * 640

/-- The length of a frame: preamble, SOF and 20 bytes. -/
def Dev.gblFrame (d : Dev) (rend : Bool) : Nat :=
  d.gblCells ((if rend then (if d.gbl.cocoon then 262 else 195) else 8) + 161)

/-- Superframe boundaries up to now pass: HEARD of the previous superframe, the trim of R499, the observations that were not sent
within one superframe, and the run of R500. -/
def Dev.gblRoll (d : Dev) : Dev :=
  let g := d.gbl
  let sf := d.superframe
  if d.mono < g.base + sf then d
  else
    let n := (d.mono - g.base) / sf
    let off : Int := match g.trim with | some (_, o) => o * d.gblUnit | none => 0
    let prev := if n = 1 then g.heard else 0
    let bad := if n = 1 ∧ g.badNow = true then g.bad + 1 else 0
    let obs := g.obs.filter fun o => decide (d.mono ≤ o.2.2.2 + sf)
    let base := ((g.base + n * sf : Nat) - off : Int).toNat
    { d with gbl := { g with base := base, prev := prev, heard := 0, bad := bad, badNow := false, trim := none, obs := obs } }

/-- The nominal start, after now, of slot `k`. -/
def Dev.gblNext (d : Dev) (k : Nat) : Nat :=
  let t := d.gbl.base + k * d.gblSlot + d.gblGuard / 2
  let sf := d.superframe
  if d.mono < t then t else t + ((d.mono - t) / sf + 1) * sf

/-- Slot and start of a frame (R498): the slot whose nominal start lies nearest, and the ns from that slot's start. -/
def Dev.gblPlace (d : Dev) (at_ : Nat) : Nat × Int :=
  let p : Int := (at_ : Int) - d.gbl.base
  let h : Int := (d.gblGuard / 2 : Nat)
  let sl : Int := d.gblSlot
  let k := (2 * (p - h) + sl) / (2 * sl)
  ((k % 8).toNat, p - k * sl)

/-- OFFSET of an observation: round((s - g/2) / (g/64)), clamped. -/
def Dev.gblOffset (d : Dev) (st : Int) : Int :=
  let u : Int := d.gblUnit
  let h : Int := (d.gblGuard / 2 : Nat)
  max (-128) (min 127 ((2 * (st - h) + u) / (2 * u)))

/-! ### Frames (Table 22-8) -/

/-- The bytes of a frame of this node, the last two its CRC. -/
def Dev.gblBytes (d : Dev) (type : Nat) (rend : Bool) (b3 b16 b17 : Nat) : List Nat :=
  let st := d.get F.PWR_STATE_STATE
  let b := [type + d.me * 4 + b2n rend * 32 + b2n (st == 1 || st == 4) * 64, d.get F.GRP_STATUS_VER_MAJOR + d.stw.grpVer / 16 % 16 * 16,
    d.get F.GRP_STATUS_STATE + d.get F.GRP_STATUS_PTP_LOCK * 8 + b2n (d.get F.GRP_STATUS_LEADER == d.me) * 16, b3]
    ++ toLe 4 (d.get F.GRP_STATUS_EPOCH) ++ toLe 8 (d.rd .GRP_DIGEST 0) ++ [b16, b17]
  b ++ toLe 2 (chk16 b)

/-- The observation that the next beacon reports (R498): OVERRUN before EDGE, the lowest slot first. -/
def Dev.gblReport (d : Dev) : Option (Nat × Bool × Int × Nat) :=
  let best (l : List (Nat × Bool × Int × Nat)) := l.foldl (fun a o => match a with
    | none => some o
    | some x => if o.1 < x.1 then some o else some x) (none : Option (Nat × Bool × Int × Nat))
  match best (d.gbl.obs.filter (·.2.1)) with
  | some o => some o
  | none => best d.gbl.obs

/-- Transmission is stopped: MEMBER_ID_CONFLICT, three bad superframes (R500), or an awake line heard in COCOON (R502). -/
def Dev.gblQuiet (d : Dev) : Bool :=
  let g := d.gbl
  d.gp.silent || g.silenced.isSome || decide (3 ≤ g.bad + b2n g.badNow) ||
    (g.cocoon && match g.lineAwake with | some (_, b) => decide (d.mono < b + 1024000000) | none => false)

/-- An overrun report about the own slot, or a collision of the own (R496, R500). -/
def Dev.gblBad (d : Dev) : Dev := ({ d with gbl := { d.gbl with badNow := true } } : Dev).fault 13 7 25 d.me

/-- BEACON_TRANSMIT (R497, R498): the own slot comes. `collide`: the line is low at the start instant, or a 1 reads back low. -/
def execBeaconTransmit (collide : Bool) (s : State) : Res := s.on fun d => d.onGroup fun d =>
  if d.gbl.rend.isSome then d
  else
    let d := d.gblRoll
    let d := (d.reach (d.gblNext d.me)).gblRoll
    if d.gblQuiet then d
    else if collide then d.gblBad
    else
      let r := d.gblReport
      let b16 := match r with | some o => o.1 + (if o.2.1 then 16 else 8) | none => 0
      let b17 := match r with | some o => unsigned 8 o.2.2.1 | none => 0
      let d := d.emit (.gbl 0 (d.gblBytes 0 false d.gbl.prev b16 b17))
      let obs := match r with | some o => d.gbl.obs.erase o | none => d.gbl.obs
      ({ d with gbl := { d.gbl with obs := obs } } : Dev).reach (d.mono + d.gblFrame false)

/-! ### Reception (R498, R501) -/

/-- A frame that starts at `at_` is heard: its CRC, its place, and what it means for the slot timer. `f` acts on an accepted frame,
given its slot and its start within it; `own` is the slot of the sender's frame. -/
def Dev.gblHear (d : Dev) (type : Nat) (b : List Nat) (at_ own : Nat) (f : Nat → Int → Dev → Dev) : Dev :=
  let d := (d.reach at_).gblRoll
  let rend := bit (b.getD 0 0) 5
  if b.length ≠ 20 ∨ leNat (slice b 18 2) ≠ chk16 (slice b 0 18) then d.count .GRP_GBL_CRC_ERR
  else if b.getD 0 0 % 4 ≠ type then d
  else
    let aw := d.gbl.lineAwake.map fun x => (at_, x.2)
    let fin (d : Dev) : Dev := d.reach (at_ + d.gblFrame rend)
    match d.gbl.rend with
    | some _ =>
      let base := at_ - d.gblGuard / 2 - own * d.gblSlot
      let d : Dev := { d with gbl := { d.gbl with base := base, rend := none, last := at_, lineAwake := aw, obs := [], trim := none } }
      let d := if d.get F.GRP_STATUS_STATE = 1 then
          ({ d with gp := { d.gp with memberAt := d.mono } } : Dev).grpSet 2 (d.get F.GRP_STATUS_LEADER) (d.get F.GRP_STATUS_CURRENT)
        else d
      let h : Int := (d.gblGuard / 2 : Nat)
      fin (f own h (d.count .GRP_GBL_RX))
    | none =>
      let p := d.gblPlace at_
      let g : Int := d.gblGuard
      let ob (ovr : Bool) : Dev := { d with gbl := { d.gbl with obs := d.gbl.obs ++ [(p.1, ovr, d.gblOffset p.2, at_)] } }
      if p.2 < 0 ∨ g < p.2 then fin ((ob true).count .GRP_GBL_OVERRUN)
      else
        let d := if 4 * p.2 < g ∨ 3 * g < 4 * p.2 then (ob false).count .GRP_GBL_EDGE else d
        let d : Dev := { d with gbl := { d.gbl with last := at_, lineAwake := aw } }
        fin (f p.1 p.2 (d.count .GRP_GBL_RX))

/-- What an accepted beacon says of this node's slot timer (R499, R500). -/
def Dev.gblReported (d : Dev) (src : Nat) (b : List Nat) : Dev :=
  let r := b.getD 16 0
  let off := signed 8 (b.getD 17 0)
  if r % 8 ≠ d.me ∨ (bit r 3 || bit r 4) = false then d
  else
    let lower := src < d.me ∧ (match d.gbl.trim with | some (s0, _) => src ≤ s0 | none => true) = true
    let d : Dev := if lower then { d with gbl := { d.gbl with trim := some (src, off) } } else d
    if bit r 4 then d.gblBad else d

/-- An accepted beacon of `src`: heard bits, reports, and the group's view of the sender (R486, R487, R493, R495). -/
def Dev.gblBeacon (d : Dev) (b : List Nat) (slot : Nat) (st : Int) : Dev :=
  let src := bits (b.getD 0 0) 2 3
  let b2 := b.getD 2 0
  let g := d.gbl
  let starts := if g.silenced.isSome then g.starts.set src (some st) else g.starts
  let d : Dev := { d with gbl := { g with heard := if slot < 5 then setBits g.heard slot 1 1 else g.heard, starts := starts } }
  if src = d.me then
    let d := d.quarantine 0xA
    { d with gp := { d.gp with silent := true } }
  else if 4 < src then d
  else
    let d := d.gblReported src b
    let h : Heard := { at_ := d.mono, state := b2 % 8, ptp := bit b2 3, leader := bit b2 4, vmaj := b.getD 1 0 % 16,
                       vmin := b.getD 1 0 / 16 % 16, epoch := leNat (slice b 4 4), digest := leNat (slice b 8 8),
                       cocoon := bit (b.getD 0 0) 6 }
    let d : Dev := { d with gp := { d.gp with beacon := d.gp.beacon.set src (some h) } }
    if src = 0 then d.grpWatch
    else
      let d := if h.leader && h.state == 3 && d.get F.GRP_STATUS_STATE != 3 then
          d.grpSet (d.get F.GRP_STATUS_STATE) src (d.get F.GRP_STATUS_CURRENT)
        else d
      d.memberHeard src h

/-- BEACON_RECEIVE (R498 to R501): the bytes of a frame that starts at `at_` (deadline clock). -/
def execBeaconReceive (b : List Nat) (at_ : Nat) (s : State) : Res := s.on fun d => d.onGroup fun d =>
  d.gblHear 0 b at_ (bits (b.getD 0 0) 2 3) fun slot st d => d.gblBeacon b slot st

/-- WAKE_RECEIVE (R497, R503, R525). In COCOON only a wake that is taken is reported, after the exit (R541). -/
def execWakeReceive (b : List Nat) (at_ : Nat) (s : State) : Res := s.on fun d => d.onGroup fun d =>
  d.gblHear 1 b at_ 5 fun _ _ d =>
    let src := bits (b.getD 0 0) 2 3
    if d.get F.PWR_STATE_STATE ≠ 1 ∧ d.get F.PWR_STATE_STATE ≠ 4 then d.raiseLocal 25 2 src
    else if inMask (b.getD 3 0 % 16) d.me then (d.defer 2 src 0).cocoonWake 0
    else d

/-- ANNOUNCE_RECEIVE (R497): counted, its contents ignored. -/
def execAnnounceReceive (b : List Nat) (at_ : Nat) (s : State) : Res := s.on fun d => d.onGroup fun d =>
  d.gblHear 2 b at_ 6 fun _ _ d => d

/-- WAKE_FRAME_SEND (R497): in slot 5; a frame that collides is retried after 1 to 4 superframes (`retry` + 1, drawn at random). A
frame that waits for its retry goes first. -/
def execWakeFrameSend (targets : BitVec 4) (collide : Bool) (retry : Fin 4) (s : State) : Res := s.on fun d => d.onGroup fun d =>
  if d.gbl.rend.isSome then d
  else
    let d := d.gblRoll
    let x := d.gbl.wake.getD (targets.toNat, 1)
    let d := (d.reach (d.gblNext 5 + (x.2 - 1) * d.superframe)).gblRoll
    if d.gblQuiet then d
    else if collide then ({ d with gbl := { d.gbl with wake := some (x.1, retry.val + 1) } } : Dev).gblBad
    else
      let d := d.emit (.gbl 1 (d.gblBytes 1 false x.1 0 0))
      ({ d with gbl := { d.gbl with wake := none } } : Dev).reach (d.mono + d.gblFrame false)

/-! ### The slot timer (R499 to R502) -/

/-- SLOT_TRIM (R499): the next superframe boundary. -/
def execSlotTrim (s : State) : Res := s.on fun d => d.onGroup fun d =>
  if d.gbl.trim.isSome then (d.reach (d.gbl.base + d.superframe)).gblRoll else d

/-- SLOT_SILENCED (R500): the third bad superframe silences the node; 2 full superframes later it aligns on the lowest SRC heard and
resumes. -/
def execSlotSilenced (s : State) : Res := s.on fun d => d.onGroup fun d =>
  match d.gbl.silenced with
  | none =>
    if d.gbl.bad + b2n d.gbl.badNow < 3 then d
    else
      let t := d.gbl.base + 3 * d.superframe
      ({ d with gbl := { d.gbl with silenced := some t, starts := {} } } : Dev).fault 13 8 25 d.me
  | some t =>
    let d := (d.reach t).gblRoll
    let g := d.gbl
    let low := (List.range 5).findSome? fun k => g.starts.get k
    let base : Int := match low with | some st => (g.base : Int) + (st - (d.gblGuard / 2 : Nat)) | none => g.base
    { d with gbl := { g with base := base.toNat, silenced := none, bad := 0, badNow := false, starts := {} } }

/-- HOLD_OVER_EXPIRY (R501, R502): no valid frame for the hold-over. -/
def execHoldOverExpiry (s : State) : Res := s.on fun d => d.onGroup fun d =>
  if d.gbl.rend.isSome then d
  else
    let t := d.gbl.last + d.gblHold
    let t := match d.gbl.lineAwake with
      | some (a, b) => if d.gbl.cocoon ∧ a ≤ t then t + (b + 1024000000 - a) else t
      | none => t
    let d := (d.reach t).count .GRP_RENDEZVOUS_CNT
    { d with gbl := { d.gbl with rend := some d.mono } }

/-- RENDEZVOUS_WAIT_EXPIRY (R501): (1 + ID) superframes unheard; one BEACON with RENDEZVOUS in the next own slot, and the wait begins
again. -/
def execRendezvousWaitExpiry (s : State) : Res := s.on fun d => d.onGroup fun d =>
  match d.gbl.rend with
  | none => d
  | some t =>
    let d := (d.reach (t + (1 + d.me) * d.superframe)).gblRoll
    let d := (d.reach (d.gblNext d.me)).gblRoll
    let again (d : Dev) : Dev := { d with gbl := { d.gbl with rend := some d.mono } }
    if d.gblQuiet then again d
    else again ((d.emit (.gbl 0 (d.gblBytes 0 true 0 0 0))).reach (d.mono + d.gblFrame true))

/-- WAKE_PULSE (R502, R525): the line low for 3 ms. -/
def execWakePulse (s : State) : Res := s.on fun d => d.onGroup fun d => d.cocoonWake 1

/-- GBL_LINE_AWAKE (R502): more than 64 falling edges within 1 ms while this node is in COCOON. -/
def execGblLineAwake (s : State) : Res := s.on fun d => d.onGroup fun d =>
  let g := d.gbl
  if !g.cocoon then d
  else match g.lineAwake with
    | some (a, b) =>
      if d.mono ≤ b + 1024000000 then { d with gbl := { g with lineAwake := some (a, d.mono) } }
      else { d with gbl := { g with last := g.last + (b + 1024000000 - a), lineAwake := some (d.mono, d.mono) } }
    | none => { d with gbl := { g with lineAwake := some (d.mono, d.mono) } }

end Sys2Proof.Machine
end

