-- ==== Sys2Proof/Machine/FwCmds.lean ====
section
/-!
DEFINITION. Firmware update and the record log (27): the steward commands 0x10 to 0x13, 0x15 and 0x16 (R585), the automatic
commit (R584), and the writes of records and of the wear ledger.
-/
namespace Sys2Proof.Machine

/-- An update command completes: STATUS, FLASH_CODE in byte 8, DETAIL, and FW_UPDATE_DONE. -/
def Dev.fwDone (d : Dev) (m : Fin 16) (opc status code detail : Nat) : Dev :=
  (d.stmDone m status detail [(0x208, code)]).raiseLocal 24 28 opc (status + code * 256)

/-- The flash did not answer in time (Table 27-6). -/
def Dev.fwFlashFail (d : Dev) (m : Fin 16) (opc : Nat) : Dev := (d.fault 4 0x0B 24).fwDone m opc 7 2 0

/-- A write session begins: TRIAL is cleared (R585). -/
def Dev.openSession (d : Dev) : Dev :=
  match d.stw.flash.ses with
  | some _ => d
  | none =>
    let d := if d.stw.flash.boot.trial then d.setBoot { d.stw.flash.boot with trial := false } else d
    d.setFlash { d.stw.flash with ses := some [] }

/-- The session ends. -/
def Dev.endSession (d : Dev) : Dev := d.setFlash { d.stw.flash with ses := none }

/-- Sectors are erased the first time a write of the session touches them; false where a retirement found no spare. -/
def Dev.sessionErase (d : Dev) (fq : Nat) : List Nat → Dev × Bool
  | [] => (d, true)
  | s :: t =>
    let done := d.stw.flash.ses.getD []
    if done.contains s then d.sessionErase fq t
    else
      let r := d.eraseSector s fq
      if r.2 then (r.1.setFlash { r.1.stw.flash with ses := some (done ++ [s]) }).sessionErase 0 t else (r.1, false)

/-- The sectors of a range. -/
def sectorsOf (a n : Nat) : List Nat := (List.range ((a + n - 1) / 65536 - a / 65536 + 1)).map (a / 65536 + ·)

/-- FW_WRITE (R585): `fq` is how the flash behaved: 0 clean, 1 a verify retry, 2 a second one or a slow erase, 3 it failed. -/
def execFwWrite (m : Fin 16) (tmo : BitVec 14) (off : BitVec 64) (len slotOff : BitVec 32) (data : Option (List Nat)) (fq : Fin 4)
    (s : State) : Res := s.on fun d => d.steward0 m tmo fun d =>
  let n := len.toNat
  let r := d.shmRead 0 off.toNat n data
  if n = 0 ∨ 2 ^ 20 < n ∨ slotOff.toNat % 256 ≠ 0 ∨ 0x4000000 < slotOff.toNat + n then d.fwDone m 0x10 2 0 0
  else if r.2 ≠ 0 then d.fwDone m 0x10 r.2 0 0
  else if d.flashFull then d.fwDone m 0x10 7 1 0
  else
    let a := slotBase d.standby + slotOff.toNat
    let d := d.openSession
    if fq = 3 then d.fwFlashFail m 0x10
    else
      let e := d.sessionErase fq.val (sectorsOf a n)
      if e.2 then (e.1.setFlash (e.1.stw.flash.write a r.1)).fwDone m 0x10 0 0 0 else e.1.fwDone m 0x10 7 1 0

/-- FW_FINISH (R585): the standby slot verifies and goes on trial. -/
def execFwFinish (m : Fin 16) (tmo : BitVec 14) (fq : Fin 4) (s : State) : Res := s.on fun d => d.steward0 m tmo fun d =>
  let b := d.slotImage d.standby
  if d.flashFull then d.fwDone m 0x11 7 1 0
  else if fq = 3 then d.fwFlashFail m 0x11
  else match d.fwFault b with
    | some (c, x) => ((d.fwFaultRaised b c).endSession).fwDone m 0x11 6 c x
    | none =>
      if d.get F.STM_FW_STATUS_RUN_INSTAR < leNat (slice b 0x1C 2) then d.endSession.fwDone m 0x11 6 6 0x1C
      else (d.setBoot { d.stw.flash.boot with trial := true, tries := 3 }).endSession.fwDone m 0x11 0 0 0

/-- The running slot is the slot on trial. -/
def Dev.onTrial (d : Dev) : Bool := d.stw.flash.boot.trial && d.runSlot != d.stw.flash.boot.active

/-- A trial is committed (R584): boot control, and the record copies of older instars are released. -/
def Dev.commitTrial (d : Dev) : Dev :=
  let d := d.setBoot { d.stw.flash.boot with active := d.runSlot, trial := false }
  let x := d.stw.flash
  let n := d.get F.STM_FW_STATUS_RUN_INSTAR
  d.setFlash { x with log := x.log.map fun r => if r.instar < n then { r with live := false } else r }

/-- FW_COMMIT (R584, R585). ADVANCE also runs ROLLBACK_ADVANCE to the image's index; `miss` as in FUSE.PW. -/
def execFwCommit (m : Fin 16) (tmo : BitVec 14) (adv : Bool) (miss : List FuseMiss) (fq : Fin 4) (s : State) : Res :=
  s.on fun d => d.steward0 m tmo fun d =>
    if !d.onTrial then d.fwDone m 0x12 2 0 0
    else if d.flashFull then d.fwDone m 0x12 7 1 0
    else if fq = 3 then d.fwFlashFail m 0x12
    else
      let d := d.commitTrial
      let d := if adv then (d.rollbackAdvance miss d.stw.index).1 else d
      d.fwDone m 0x12 0 0 0

/-- FW_ABORT (R585): TRIAL is cleared. -/
def execFwAbort (m : Fin 16) (tmo : BitVec 14) (s : State) : Res := s.on fun d => d.steward0 m tmo fun d =>
  if d.flashFull then d.fwDone m 0x13 7 1 0
  else (if d.stw.flash.boot.trial then d.setBoot { d.stw.flash.boot with trial := false } else d).endSession.fwDone m 0x13 0 0 0

/-- The SEQ of a Chrysalis table copy where it is valid (R598). -/
def Flash.chrySeq (x : Flash) (k : Nat) : Option Nat :=
  let a := 0x8D00000 + k * 0x100000
  let h := x.read a 64
  let n := 64 + leNat (slice h 12 2) * 16 + leNat (slice h 14 2) * 32 + leNat (slice h 16 2) * 24
  if leNat (slice h 0 4) = 0x4359444D ∧ leNat (slice h 4 2) = 1 ∧ crc32c (x.read (a + 64) n) = leNat (slice h 20 4) then
    some (leNat (slice h 8 4))
  else none

/-- The copy that CHRY_WRITE writes: the older one. -/
def Flash.chryOlder (x : Flash) : Nat :=
  match x.chrySeq 0, x.chrySeq 1 with
  | some a, some b => if a ≤ b then 0 else 1
  | some _, none => 1
  | none, _ => 0

/-- CHRY_WRITE (R585): the older copy of the Chrysalis table with the next SEQ. -/
def execChryWrite (m : Fin 16) (tmo : BitVec 14) (off : BitVec 64) (len : BitVec 32) (data : Option (List Nat)) (fq : Fin 4)
    (s : State) : Res := s.on fun d => d.steward0 m tmo fun d =>
  let n := len.toNat
  let r := d.shmRead 0 off.toNat n data
  if n < 64 ∨ 2 ^ 20 < n then d.fwDone m 0x15 2 0 0
  else if r.2 ≠ 0 then d.fwDone m 0x15 r.2 0 0
  else if d.flashFull then d.fwDone m 0x15 7 1 0
  else if fq = 3 then d.fwFlashFail m 0x15
  else
    let x := d.stw.flash
    let k := x.chryOlder
    let seq := max ((x.chrySeq 0).getD 0) ((x.chrySeq 1).getD 0) + 1
    let a := 0x8D00000 + k * 0x100000
    let step (e : Dev × Bool) (sec : Nat) : Dev × Bool := if e.2 then e.1.eraseSector sec 0 else e
    let e := ((sectorsOf a 0x100000).drop 1).foldl step (d.eraseSector (a / 65536) fq.val)
    if e.2 then (e.1.setFlash (e.1.stw.flash.write a (splice r.1 8 (toLe 4 seq)))).fwDone m 0x15 0 0 0 else e.1.fwDone m 0x15 7 1 0

/-- FLASH_INFO (R585). -/
def execFlashInfo (m : Fin 16) (tmo : BitVec 14) (s : State) : Res := s.on fun d => d.stewardPf m tmo fun _ d =>
  let x := d.stw.flash
  let top := x.wear.cells.foldl (fun a c => max a c.2.erases) 0
  d.stmDone m 0 0 [(0x208, x.sparesFree % 2 ^ 16 * 2 ^ 32 + x.inState 1 % 2 ^ 16 * 2 ^ 48),
                   (0x210, x.inState 2 % 2 ^ 16 + top % 2 ^ 32 * 2 ^ 32), (0x218, x.endurance)]

/-- AUTO_COMMIT (R584): AUTO_COMMIT_S in RUN of one start from the trial slot. -/
def execAutoCommit (s : State) : Res := s.on fun d =>
  let secs := (d.stw.flash.boardWord 4).getD 600
  match d.stw.runAt with
  | none => d
  | some t => if d.onTrial && secs != 0xFFFFFFFE && d.stw.running && !d.flashFull then (d.reach (t + secs * 1000000000)).commitTrial else d

/-- RECORD_WRITE (R589): the first waiting record is written. -/
def execRecordWrite (fq : Fin 4) (s : State) : Res := s.on fun d => if d.stw.running then d.writeRecord fq.val else d

/-- LOG_COMPACTION (R586). -/
def execLogCompaction (fq : Fin 4) (s : State) : Res := s.on fun d => if d.stw.running then d.compactLog fq.val else d

/-- WEAR_LEDGER_WRITE (R590): erases that the ledger on flash does not show yet are recorded. -/
def execWearLedgerWrite (fq : Fin 4) (s : State) : Res := s.on fun d =>
  if d.stw.running && d.stw.flash.dirty.isSome then d.writeLedgerCopy fq.val else d

end Sys2Proof.Machine
end

