-- ==== Sys2Proof/Machine/Boot.lean ====
section
/-!
DEFINITION. The boot of the firmware (R580 to R583), WARM_RESET (R551), the loading of pods (R528, R545), and what returns islands and
pods to service (R475, R550).
-/
namespace Sys2Proof.Machine

/-! ### Slot selection (R581, R582) -/

/-- Change the start in progress. -/
def Dev.setStart (d : Dev) (f : Start → Start) : Dev := { d with stw := { d.stw with start := f d.stw.start } }

/-- STM.FW_STATUS shows boot control. -/
def Dev.showBoot (d : Dev) : Dev :=
  let b := d.stw.flash.boot
  ((d.put F.STM_FW_STATUS_ACTIVE_SLOT 0 b.active).put F.STM_FW_STATUS_TRIAL 0 (b2n b.trial)).put F.STM_FW_STATUS_TRIES 0 b.tries

/-- Recovery (R583). -/
def Dev.recovery (d : Dev) : Dev := (d.setStart fun x => { x with order := [], wdog := none }).put F.RST_START_PHASE 0 7

/-- What the image of a slot tells of itself (Table 27-2): its instar and slot in STM.FW_STATUS, and the group protocol's version. -/
def Dev.showImage (d : Dev) (slot : Nat) (b : List Nat) : Dev :=
  let w (o n : Nat) : Nat := leNat (slice b o n)
  let d := (d.put F.STM_FW_STATUS_RUN_SLOT 0 slot).put F.STM_FW_STATUS_RUN_INSTAR 0 (w 6 2)
  let d : Dev := { d with stw := { d.stw with isa := w 0x1A 2, index := w 8 2, from_ := w 0x1C 2, grpVer := w 0x18 1,
                                              digest := Config.sha384 (slice b 0 (w 0xC 4)) } }
  d.put F.GRP_STATUS_VER_MAJOR 0 (w 0x18 1 % 16)

/-- The firmware reports itself running: milestone 1. -/
def Dev.fwRuns (d : Dev) : Dev :=
  let d : Dev := { d with stw := { d.stw with running := true } }
  (d.setStart fun x => { x with wdog := none, step := 2 }).milestone 1

/-- The boot ROM starts the image of a slot and arms the watchdog; `reports`: the image reports itself running. -/
def Dev.startSlot (d : Dev) (slot : Nat) (rest : List Nat) (b : List Nat) (reports : Bool) : Dev :=
  let d := d.showImage slot b
  let d := if slot = d.stw.start.first then d else d.put F.STM_FW_STATUS_FALLBACK 0 1
  let d := (d.setStart fun x => { x with order := rest, slot := slot, wdog := some (d.mono + 1000000000) }).put F.RST_START_PHASE 0 2
  if reports then d.fwRuns else d

/-- The slots of the order in turn: the first that verifies starts. -/
def Dev.bootNext (d : Dev) (reports : Bool) : List Nat → Dev
  | [] => d.recovery
  | sl :: t =>
    let b := d.slotImage sl
    match d.fwFault b with
    | some (c, _) => (d.fwFaultRaised b c).bootNext reports t
    | none => d.startSlot sl t b reports

/-- BOOT_SELECT (R580, R581): the boot ROM selects, verifies and starts a slot, or enters recovery. -/
def execBootSelect (reports : Bool) (s : State) : Res := s.on fun d => d.onIsland 24 fun d =>
  if d.stw.start.step ≠ 1 ∨ d.get F.RST_START_PHASE ≠ 1 then d
  else if 3 ≤ d.get F.RST_STRAPS_BOOTMODE then d.recovery
  else
    let b := d.stw.flash.boot
    let other := 1 - b.active
    let go (d : Dev) (l : List Nat) : Dev :=
      (d.showBoot.setStart fun x => { x with first := l.headD 0 }).bootNext reports l
    if !b.trial then go d [b.active, other]
    else if b.tries = 0 then go ((d.setBoot { b with trial := false }).put F.STM_FW_STATUS_FALLBACK 0 1) [b.active, other]
    else go (d.setBoot { b with tries := b.tries - 1 }) [other, b.active]

/-- The started slot has failed: island 24 is reset and the next slot is tried. -/
def Dev.slotFails (d : Dev) (reports : Bool) : Dev :=
  let fb := d.get F.STM_FW_STATUS_FALLBACK
  let l := d.stw.start.order
  let d := ((d.islandClear 24).put F.STM_FW_STATUS_FALLBACK 0 fb).showBoot
  let d := (d.setStart fun x => { x with wdog := none, step := 1 }).put F.RST_START_PHASE 0 1
  d.bootNext reports l

/-- BOOT_WATCHDOG (R582): 1 s without the report. -/
def execBootWatchdog (reports : Bool) (s : State) : Res := s.on fun d => d.onIsland 24 fun d =>
  match d.stw.start.wdog with
  | none => d
  | some t => (d.reach t).slotFails reports

/-- A section of the running image, TYPE `ty`: where it is and how long, if its data agree with their DIGEST (R579). -/
def Dev.section? (d : Dev) (ty : Nat) : Option (List Nat) :=
  let b := d.slotImage d.stw.start.slot
  match (List.range (leNat (slice b 0xA 2))).find? fun i => (fwSection b i).1 == ty with
  | none => none
  | some i =>
    let x := fwSection b i
    let data := slice b x.2.1 x.2.2.1
    if Config.sha384 data = x.2.2.2 then some data else none

/-- A section is loaded: `f` goes on, and a section that fails its check stops the start as the watchdog does (R579). -/
def Dev.loads (d : Dev) (ty : Nat) (f : Dev → Dev) : Dev := if (d.section? ty).isSome then f d else d.slotFails true

/-! ### WARM_RESET (R551, R552) -/

/-- A valid request: 2 by PF0, 3 by the steward firmware. -/
def Dev.warmRequest (d : Dev) (cause : Nat) : Dev :=
  let x := d.stw.start
  let st := d.get F.PWR_STATE_STATE
  if x.warm.isSome ∨ x.ledgers.isSome ∨ st = 1 ∨ st = 4 ∨ (2 ≤ d.get F.RST_START_LAST_CAUSE ∧ x.step < 5) then d
  else ((d.put F.RST_WARM_CTL_GO 0 1).warmLedgers).setStart fun x => { x with cause := cause }

/-- A write of RST.WARM_CTL (Table 25-2): a KEY other than 0x5752 leaves GO 0. -/
def Dev.warmWrite (d : Dev) (v be cause : Nat) : Dev :=
  if v / 2 ^ 16 % 2 ^ 16 ≠ 0x5752 ∨ be % 16 < 12 then d.ignored .RST_WARM_CTL 0 cBAD_ENUM
  else if bit v 0 && bit be 0 then d.warmRequest cause else d

/-- WARM_RESET: the write, by PF0 or by the steward firmware. -/
def execWarmReset (steward : Bool) (v : BitVec 32) (s : State) : Res := s.on fun d =>
  d.onIsland 25 fun d => d.warmWrite v.toNat 15 (if steward then 3 else 2)

/-- WARM_RELEASE (R551): the end of the hold is the reference event of a start from step 2. -/
def execWarmRelease (s : State) : Res := s.on fun d =>
  match d.stw.start.warm with
  | none => d
  | some t => (d.reach t).refEvent d.stw.start.cause false

/-! ### Pods (R528, R545, R593) -/

/-- The handler word that the image of a slot's active version gives it. -/
def Dev.imageHandler (d : Dev) (slot : Nat) : Nat :=
  match d.slots.get (slot * 256 + d.activeVer slot) with
  | none => 0
  | some v => match d.stw.imgs.get v.image with
    | none => 0
    | some x => match x.entries.find? (·.slot == slot) with
      | none => 0
      | some e => if bit e.handler 23 then 2 ^ 31 + (x.code + bits e.handler 0 18) % 2 ^ 18 else 0

/-- A pod is loaded: supervisor code, shared data and handlers of the bound images; LOCK is set and the supervisor starts. -/
def Dev.loadPod (d : Dev) (p : Nat) : Dev :=
  let n := ((d.section? 5).getD []).length
  let d := d.setPod p { d.pod p with loaded := true, supCode := n }
  let d := d.images.foldl (fun d x => ((secData x.2.bytes 2).mapIdx fun i b => (i, b)).foldl (fun (d : Dev) e =>
    { d with shl := d.shl.set (p * 2 ^ 20 + x.2.shared + e.1) e.2 }) d) d
  let d := (List.range 256).foldl (fun d sl => if d.activeVer sl = 0 then d else d.wr .POD_SLOT_HANDLER (p * 256 + sl) (d.imageHandler sl)) d
  (d.put F.POD_SUPERVISOR_LOCK p 1).startSupervisor p

/-- The start has loaded the pods. -/
def Dev.podsDue (d : Dev) : Bool := decide (9 ≤ d.stw.start.step)

/-- POD_RUN (R162, R528): the clock is stable, and a pod that was not loaded is loaded. -/
def execPodRun (pod : Fin 16) (s : State) : Res := s.on fun d =>
  d.onIsland pod.val fun d =>
    if d.get F.POD_PARK_CTL_STATE pod.val = 3 then
      let d := d.put F.POD_PARK_CTL_STATE pod.val (if d.flag F.POD_PARK_CTL_PARK_REQ pod.val then 1 else 0)
      if d.podsDue && !(d.pod pod.val).loaded then d.loadPod pod.val else d
    else d

/-- The isolation of a pod ends (R292, R475): its SA directory is rewritten, it leaves POD_RESET and is loaded. One that stays isolated keeps its bit. -/
def Dev.clearIso (d : Dev) (p : Nat) : Dev :=
  let v := d.get F.FCOL_PART_ISO_POD
  if !bit v p || !d.stw.running || d.podStays p then d
  else
    let d := ((d.rewriteDir p).put F.FCOL_PART_ISO_POD 0 (setBits v p 1 0)).setIsland p true
    if d.podsDue then d.loadPod p else d

/-- ISOLATION_CLEAR (R475, Table 21-10): the firmware reloads a contained pod and clears its bit. -/
def execIsolationClear (pod : Fin 16) (s : State) : Res := s.on fun d => d.onIsland 25 fun d => d.clearIso pod.val

/-- The firmware returns after ISLAND_RESET of its island. -/
def Dev.fwReturns (d : Dev) : Dev :=
  if d.stw.start.step < 2 then d
  else
    let sl := d.stw.start.slot
    let d := d.showBoot.showImage sl (d.slotImage sl)
    { d with stw := { d.stw with running := true } }

/-- ISLAND_RESET_END (R550): an island leaves ISLAND_RESET and the firmware reloads what the start had loaded into it. A pod that is
isolated returns by ISOLATION_CLEAR. -/
def execIslandResetEnd (n : Fin 26) (s : State) : Res := s.on fun d =>
  let x := d.stw.start
  if d.isUp n.val || n.val == 25 || x.warm.isSome || d.pwr.por || d.pwr.off || d.pwr.hold.isSome || d.get F.PWR_STATE_STATE == 1
      || (decide (n.val < 16) && bit (d.get F.FCOL_PART_ISO_POD) n.val) then d
  else
    let d := d.setIsland n.val true
    if n.val < 16 then
      let d := d.rewriteDir n.val
      if d.podsDue then d.loadPod n.val else d
    else if n.val = 20 then
      let d := d.latchHost
      if 5 ≤ x.step then (List.range 2).foldl (fun d h => d.setHport h { d.hport h with released := true }) d else d
    else if n.val = 24 then d.eyeStart.fwReturns
    else d

end Sys2Proof.Machine
end

