-- ==== Sys2Proof/Machine/HostCmds.lean ====
section
/-!
DEFINITION. The commands of the host ports, functions and ledgers (14, 15).
-/
namespace Sys2Proof.Machine

/-- PERST_ASSERT (R345): PERST_N of a port is seen asserted. -/
def execPerstAssert (h : Fin 2) (s : State) : Res := s.on fun d =>
  d.onIsland 20 fun d =>
    if d.hpState h.val = 0 ∨ (d.hport h.val).perst then d
    else (d.setHport h.val { d.hport h.val with perst := true }).hpRequested h.val 6

/-- PERST_DEASSERT (R345, R347): the port may train once it is released. -/
def execPerstDeassert (h : Fin 2) (s : State) : Res := s.on fun d =>
  d.onIsland 20 fun d => d.setHport h.val { d.hport h.val with perst := false }

/-- HOT_RESET (R345): a Hot Reset received on the link. -/
def execHotReset (h : Fin 2) (s : State) : Res := s.on fun d =>
  d.onIsland 20 fun d => if d.hpState h.val = 2 then d.hpRequested h.val 7 else d

/-- LINK_TRAINED (R324, R347): the link of a port trains to a width and rate (coded as MAX_SPEED). A port that becomes ready
sends its Device Readiness Status message where the downstream port has enabled it (`drs`). -/
def execLinkTrained (h : Fin 2) (w : Fin 17) (sp : Fin 7) (flit drs : Bool) (s : State) : Res := s.on fun d =>
  d.onIsland 20 fun d =>
    let was := d.hpState h.val
    let d := d.hpTrained h.val w.val sp.val flit
    if was ≠ 2 ∧ d.hpState h.val = 2 ∧ drs then d.emit (.pcie h.val 4 []) else d

/-- DETACH (R343): DL_Down without a requested reset. -/
def execDetach (h : Fin 2) (s : State) : Res := s.on fun d =>
  d.onIsland 20 fun d => if d.hpState h.val = 2 then d.detach h.val else d

/-- HOST_HOLD_EXPIRY (R344): the hold of a port ends. -/
def execHostHoldExpiry (h : Fin 2) (s : State) : Res := s.on fun d =>
  d.onIsland 20 fun d =>
    match d.hpState h.val, (d.hport h.val).hold with
    | 3, some t => (((d.reach t).fault 14 2 20 h.val).hpReset h.val).setHp h.val 4
    | _, _ => d

/-- BME_CLEAR (R337): Bus Master Enable of a function goes from 1 to 0. -/
def execBmeClear (f : Fin 2052) (s : State) : Res := s.on fun d =>
  d.onIsland 20 fun d =>
    let x := d.fn f.val
    if x.bme then d.pauseFn f.val { x with bme := false } else d

/-- BME_SET (R337, R343): Bus Master Enable is set while the port is UP; the function's work resumes in order. -/
def execBmeSet (f : Fin 2052) (s : State) : Res := s.on fun d =>
  d.onIsland 20 fun d =>
    let x := d.fn f.val
    if x.bme || x.flr || !d.fnExists f.val || d.hpState (d.hostPortOf f.val) != 2 then d
    else (d.setFn f.val { x with bme := true }).resumeFn f.val

/-- BME_HOLD_EXPIRY (R338): Bus Master Enable has been 0 for longer than the hold time of the function's port. -/
def execBmeHoldExpiry (f : Fin 2052) (s : State) : Res := s.on fun d =>
  d.onIsland 20 fun d =>
    let x := d.fn f.val
    match x.paused with
    | none => d
    | some t =>
      if x.ovr || d.hpState (d.hostPortOf f.val) == 3 then d
      else
        let d := (d.reach (t + d.hpHold (d.hostPortOf f.val))).fault 14 3 20 f.val
        let d := d.setFn f.val { x with ovr := true }
        (d.loseHeld (· == f.val)).abandon fun r => r.inst == f.val

/-- FLR_VF (R339). -/
def execFlrVf (f : Fin 2052) (s : State) : Res := s.on fun d =>
  d.onIsland 20 fun d => if f.val < 4 then d else d.flrVf f.val

/-- FLR_PF (R339, R407). -/
def execFlrPf (p : Fin 4) (s : State) : Res := s.on fun d => d.onIsland 20 fun d => d.flrPf p.val

/-- VF_ENABLE (R327, R329, R410, R411): VF Enable of a PF is set. -/
def execVfEnable (p : Fin 4) (s : State) : Res := s.on fun d => d.onIsland 20 fun d => d.vfEnable p.val

/-- VF_DISABLE (R407): VF Enable of a PF is cleared. -/
def execVfDisable (p : Fin 4) (s : State) : Res := s.on fun d => d.onIsland 20 fun d => d.vfDisable p.val

/-- A request of function `f` that used the translation of one of the `n` pages from `page` has neither left the device nor been
abandoned: a read that holds its tag. -/
def Dev.atsBusy (d : Dev) (f page n : Nat) : Bool :=
  d.hst.reads.any fun r => r.inst == f && r.tag.isSome && decide (r.addr < (page + n) * 4096) && decide (page * 4096 < r.addr + r.len)

/-- The translations of the `n` pages from `page` leave the cache of the function's port. -/
def Dev.atsDrop (d : Dev) (f page n : Nat) : Dev :=
  let port := d.hostPortOf f
  { d with hst := { d.hst with atc := d.hst.atc.set port ((d.hst.atc.get port).filter fun t =>
      t.1 != f || decide (t.2 < page) || decide (page + n ≤ t.2)) } }

/-- ATS_INVALIDATE (R335): an invalidation of `n` pages completes once no request that used their translations remains. `late`: the
100 µs and the time of the outstanding completions have passed, which is the fault ATS_INV_TIMEOUT where one remains. -/
def execAtsInvalidate (f : Fin 2052) (page : BitVec 52) (n : Nat) (late : Bool) (s : State) : Res := s.on fun d =>
  d.onIsland 20 fun d =>
    if !(d.fn f.val).ats then d
    else if d.atsBusy f.val page.toNat n then (if late then d.fault 14 4 20 f.val else d)
    else (d.atsDrop f.val page.toNat n).emit (.pcie (d.hostPortOf f.val) 2 [f.val])

/-- D3HOT_ENTRY (R324): as Bus Master Enable 0. -/
def execD3hotEntry (f : Fin 2052) (s : State) : Res := s.on fun d =>
  d.onIsland 20 fun d =>
    let x := d.fn f.val
    if x.d3 || !d.fnExists f.val then d else d.pauseFn f.val { x with d3 := true }

/-- D0_ENTRY (R324): the function resumes as when Bus Master Enable is set again. -/
def execD0Entry (f : Fin 2052) (s : State) : Res := s.on fun d =>
  d.onIsland 20 fun d =>
    let x := d.fn f.val
    if x.d3 then (d.setFn f.val { x with d3 := false }).resumeFn f.val else d

/-- LTR_ENABLE (R326): the host sets LTR Mechanism Enable of a port; one LTR message. -/
def execLtrEnable (h : Fin 2) (s : State) : Res := s.on fun d =>
  d.onIsland 20 fun d =>
    match (d.pfsOn h.val).head? with
    | none => d
    | some p =>
      if (d.fn p).ltr then d
      else (d.setFn p { d.fn p with ltr := true }).emit (.pcie h.val 1 [d.get F.HOST_PORT_CFG_LTR_US h.val])

/-- HELD_LEDGER_WRITE (R342): the first held ledger of a PF is written. -/
def execHeldLedgerWrite (p : Fin 4) (s : State) : Res := s.on fun d => d.onIsland 20 fun d => d.writeLedger p.val true

/-- CONFIG_REQUEST (R3, R327, R328, R331, R339, R347). -/
def execConfigRequest (f : Fin 2052) (c : CfgItem) (s : State) : Res := s.on fun d =>
  d.onIsland 20 fun d => d.cfgRequest f.val c

/-- LEDGER_WRITE (R60, R373): the next ledger of a PF is written through it. -/
def execLedgerWrite (p : Fin 4) (s : State) : Res := s.on fun d => d.onIsland 20 fun d => d.writeLedger p.val false

/-- LEDGER_ACK (R374). -/
def execLedgerAck (p : Fin 4) (v : BitVec 32) (s : State) : Res := s.on fun d =>
  d.onIsland 20 fun d => d.byWrite .QE_LEDGER_ACK p.val fun d => d.ledgerAck p.val v.toNat

end Sys2Proof.Machine
end

