-- ==== Sys2Proof/Machine/Mctp.lean ====
section
/-!
DEFINITION. SMBus and MCTP (R504 to R507): packets in and out, reassembly, and where a message goes by its type. The field places
of the binding are those of DSP0236 and DSP0237 (notes/assumptions/80.md).
-/
namespace Sys2Proof.Machine

/-! ### Packets -/

/-- One bit of the SMBus PEC (CRC-8, polynomial 0x07). -/
def pecBit (c : Nat) : Nat := if 128 ≤ c then Nat.xor (c * 2 % 256) 7 else c * 2

/-- The PEC after one more byte. -/
def pecByte (c b : Nat) : Nat := pecBit (pecBit (pecBit (pecBit (pecBit (pecBit (pecBit (pecBit (Nat.xor c (b % 256)))))))))

/-- The PEC of a transfer, its address byte first. -/
def pecOf (l : List Nat) : Nat := l.foldl pecByte 0

/-- The target address on SMB (R504): 0x30 + GID. -/
def Dev.smbAddr (d : Dev) : Nat := 0x30 + d.get F.RST_STRAPS_GID

/-- Change the management island's part. -/
def Dev.setMgt (d : Dev) (f : Mgt → Mgt) : Dev := { d with mgt := f d.mgt }

/-- A packet of the device as the block write that carries it to BMC_ADDR (R504, R505). -/
def Dev.packet (d : Dev) (dst flags : Nat) (body : List Nat) : List Nat :=
  let b := [d.get F.MGT_SMB_CFG_BMC_ADDR * 2, 0x0F, 5 + body.length, d.smbAddr * 2 + 1, 1, dst, d.get F.MGT_SMB_STATUS_EID, flags] ++ body
  b ++ [pecOf b]

/-- A message of the device in packets of at most 64 bytes, with the tag of the request it answers. -/
def Dev.sendMctp (d : Dev) (dst tag : Nat) (body : List Nat) : Dev :=
  let n := max 1 (ceilDiv body.length 64)
  let l := (List.range n).map fun i =>
    d.packet dst (b2n (i == 0) * 128 + b2n (i + 1 == n) * 64 + i % 4 * 16 + tag) ((body.drop (64 * i)).take 64)
  d.setMgt fun x => { x with smb := x.smb ++ l }

/-- The response to a message, inside its session where it came in one. -/
def Dev.reply (d : Dev) (m : MctpMsg) (body : List Nat) : Dev :=
  d.sendMctp m.src m.tag (match m.session with
    | some c => 6 :: Config.sessionSeal c d.mono body
    | none => body)

/-- Byte `i` of a message, its type first. -/
def MctpMsg.byte (m : MctpMsg) (i : Nat) : Nat := m.bytes.getD i 0

/-- A message or packet is dropped (R505). -/
def Dev.mctpDrop (d : Dev) : Dev := d.count .MGT_MCTP_DROP

/-- A malformed one. -/
def Dev.mctpBad (d : Dev) : Dev := d.mctpDrop.fault 3 9 24

/-! ### Responses -/

/-- An MCTP control response: completion code and data. -/
def Dev.ctlReply (d : Dev) (m : MctpMsg) (cc : Nat) (data : List Nat) : Dev := d.reply m ([0, m.byte 1 % 32, m.byte 2, cc] ++ data)

/-- A vendor response (Table 23-3). -/
def Dev.vendorReply (d : Dev) (m : MctpMsg) (cc : Nat) (data : List Nat) : Dev :=
  d.reply m ([0x7E, 0xB3, 0xDC, m.byte 3 % 128 + 128, m.byte 4, cc] ++ data)

/-- The completion codes of Table 23-4. -/
def ccBAD_COMMAND : Nat := 1
def ccBAD_FIELD : Nat := 2
def ccNOT_AVAILABLE : Nat := 3
def ccBUSY : Nat := 4
def ccI2C_ERROR : Nat := 5
def ccREFUSED : Nat := 6

/-! ### Where a message goes -/

/-- A message waits to be answered. -/
def Dev.mctpQueue (d : Dev) (m : MctpMsg) : Dev := d.setMgt fun x => { x with msgs := x.msgs ++ [m] }

/-- The SPDM requests with a row of their own, and END_SESSION inside a session. -/
def spdmCodes : List Nat := [0xE0, 0x82, 0x83, 0xE4]

/-- A message outside the envelope of a session, by type (Table 23-2): a request that the device serves waits; an unknown command is
answered at once; another type is dropped. -/
def Dev.mctpPlain (d : Dev) (m : MctpMsg) : Dev :=
  match m.byte 0 with
  | 0x00 =>
    if m.session.isSome then d.mctpDrop
    else if m.bytes.length < 3 then d.mctpBad
    else if m.byte 1 < 128 then d.mctpDrop
    else if 1 ≤ m.byte 2 ∧ m.byte 2 ≤ 6 then d.mctpQueue m else d.ctlReply m 5 []
  | 0x05 =>
    if m.bytes.length < 5 then d.mctpBad
    else if m.session.isNone && spdmCodes.contains (m.byte 2) then d.mctpQueue m
    else if m.session.isSome && m.byte 2 == 0xEC then d.mctpQueue m
    else d.reply m (5 :: Config.spdmRest (m.byte 2) m.bytes d.mono)
  | 0x7E =>
    if m.bytes.length < 6 then d.mctpBad
    else if slice m.bytes 1 2 ≠ [0xB3, 0xDC] ∨ 128 ≤ m.byte 3 then d.mctpDrop
    else if 1 ≤ m.byte 3 ∧ m.byte 3 ≤ 7 then d.mctpQueue m else d.vendorReply m ccBAD_COMMAND []
  | _ => d.mctpDrop

/-- A complete message: a secured one is opened in its session (R506), any other goes by its type. The session is the one whose
channel the responder's half of the session ID names. -/
def Dev.mctpMessage (d : Dev) (m : MctpMsg) : Dev :=
  if m.byte 0 = 6 then
    let c := leNat (slice m.bytes 3 2)
    if m.bytes.length < 7 then d.mctpBad
    else if !d.stw.sessions.contains c || d.mgt.eids.get c != m.src + 1 then d.secRefused
    else match Config.sessionOpen c m.bytes with
      | none => d.fault 10 9 24
      | some b => d.mctpPlain { m with session := some c, bytes := b }
  else d.mctpPlain m

/-! ### Reception -/

/-- A packet's header and place break the binding. -/
def packetBad (b : List Nat) : Bool :=
  let n := b.length
  decide (n < 10) || decide (73 < n) || b.getD 1 0 != 0x0F || b.getD 2 0 + 4 != n || b.getD 3 0 % 2 == 0 || b.getD 4 0 % 16 != 1

/-- The device takes packets for endpoint `dst`: until an EID is assigned, only control messages to EID 0 (R505). -/
def Dev.mctpFor (d : Dev) (dst : Nat) (control : Bool) : Bool :=
  if d.flag F.MGT_SMB_STATUS_EID_VALID then dst == d.get F.MGT_SMB_STATUS_EID || dst == 0 else dst == 0 && control

/-- The partial message of a source and tag. -/
def Dev.partial_ (d : Dev) (src tag : Nat) : Option Reasm := d.mgt.parts.find? fun r => r.src == src && r.tag == tag

/-- Drop the partial message of a source and tag. -/
def Dev.dropPart (d : Dev) (src tag : Nat) : Dev := d.setMgt fun x => { x with parts := x.parts.filter fun r => !(r.src == src && r.tag == tag) }

/-- A packet joins its message: an overlong one is dropped, the last packet completes it. -/
def Dev.packetJoins (d : Dev) (r : Reasm) (eom : Bool) : Dev :=
  let d := d.dropPart r.src r.tag
  if 1024 < r.bytes.length then d.mctpDrop
  else if eom then d.mctpMessage { src := r.src, tag := r.tag, bytes := r.bytes }
  else d.setMgt fun x => { x with parts := x.parts ++ [r] }

/-- A packet with a good PEC (R505). -/
def Dev.mctpPacket (d : Dev) (b : List Nat) : Dev :=
  if packetBad b then d.mctpBad
  else
    let src := b.getD 6 0
    let fl := b.getD 7 0
    let tag := fl % 8
    let body := (b.drop 8).take (b.length - 9)
    let old := d.partial_ src tag
    let som := bit fl 7
    let ty := if som then body.head? else old.bind (·.bytes.head?)
    if !d.mctpFor (b.getD 5 0) (ty == some 0) then d
    else if som then
      -- A new start of message drops the partial one.
      let d := if old.isSome then d.mctpDrop else d
      d.packetJoins ⟨src, tag, d.mono, (bits fl 4 2 + 1) % 4, body⟩ (bit fl 6)
    else match old with
      | none => d.mctpDrop
      | some r =>
        if bits fl 4 2 ≠ r.next then (d.dropPart src tag).mctpDrop
        else d.packetJoins { r with next := (r.next + 1) % 4, bytes := r.bytes ++ body } (bit fl 6)

/-- MCTP_PACKET (R504, R505, R507): a block write on SMB, from the target address to the PEC. In COCOON the island is unpowered and
acknowledges nothing. -/
def execMctpPacket (b : List (BitVec 8)) (s : State) : Res := s.on fun d => d.onIsland 24 fun d =>
  let b := b.map (·.toNat)
  let n := b.length
  if b.getD 0 0 ≠ d.smbAddr * 2 then d
  else if n < 2 ∨ pecOf (b.take (n - 1)) ≠ b.getD (n - 1) 0 then d.count .MGT_SMB_PEC_ERR
  else d.mctpPacket b

/-- REASSEMBLY_TIMEOUT (R505): 100 ms have passed for the partial message of a source and tag. -/
def execReassemblyTimeout (src : BitVec 8) (tag : Fin 8) (s : State) : Res := s.on fun d => d.onIsland 24 fun d =>
  match d.partial_ src.toNat tag.val with
  | none => d
  | some r => (((d.reach (r.at_ + 100000000)).dropPart src.toNat tag.val).mctpDrop)

/-! ### Serving -/

/-- The first waiting message that satisfies `p` is taken and answered; with none waiting nothing happens. -/
def Dev.serve (d : Dev) (p : MctpMsg → Bool) (f : Dev → MctpMsg → Dev) : Dev :=
  d.onIsland 24 fun d => match d.mgt.msgs.find? p with
    | none => d
    | some m => f (d.setMgt fun x => { x with msgs := x.msgs.erase m }) m

/-- A control request with command code `c`. -/
def isCtl (c : Nat) (m : MctpMsg) : Bool := m.byte 0 == 0 && m.byte 2 == c

/-- A vendor request with command `c`. -/
def isVendor (c : Nat) (m : MctpMsg) : Bool := m.byte 0 == 0x7E && m.byte 3 == c

/-- SET_ENDPOINT_ID (R505): the EID of SMB_STATUS. -/
def execSetEndpointId (s : State) : Res := s.on fun d => d.serve (isCtl 1) fun d m =>
  let e := m.byte 4
  if m.bytes.length < 5 then d.ctlReply m 3 []
  else if 1 < m.byte 3 % 4 ∨ e = 0 ∨ e = 255 then d.ctlReply m 2 []
  else
    let d := (d.put F.MGT_SMB_STATUS_EID 0 e).put F.MGT_SMB_STATUS_EID_VALID 0 1
    d.ctlReply m 0 [0, e, 0]

/-- GET_ENDPOINT_ID. -/
def execGetEndpointId (s : State) : Res := s.on fun d => d.serve (isCtl 2) fun d m => d.ctlReply m 0 [d.get F.MGT_SMB_STATUS_EID, 0, 0]

/-- The SERIAL words (R573), low word first. -/
def Dev.serial (d : Dev) : List Nat := [d.fuseVal 128, d.fuseVal 129]

/-- GET_ENDPOINT_UUID. -/
def execGetEndpointUuid (s : State) : Res := s.on fun d => d.serve (isCtl 3) fun d m =>
  d.ctlReply m 0 (slice (Config.endpointUuid d.serial) 0 16)

/-- GET_MCTP_VERSION_SUPPORT: of a message type of Table 23-2. -/
def execGetMctpVersionSupport (s : State) : Res := s.on fun d => d.serve (isCtl 4) fun d m =>
  if [0xFF, 0, 5, 6, 0x7E].contains (m.byte 3) then d.ctlReply m 0 (Config.mctpVersions (m.byte 3)) else d.ctlReply m 0x80 []

/-- GET_MESSAGE_TYPE_SUPPORT: the types of Table 23-2 beside control. -/
def execGetMessageTypeSupport (s : State) : Res := s.on fun d => d.serve (isCtl 5) fun d m => d.ctlReply m 0 [3, 5, 6, 0x7E]

/-- GET_VENDOR_DEFINED_MESSAGE_SUPPORT: one set, PCI vendor ID 0xB3DC. -/
def execGetVendorDefinedMessageSupport (s : State) : Res := s.on fun d => d.serve (isCtl 6) fun d m =>
  if m.byte 3 = 0 then d.ctlReply m 0 [0xFF, 0, 0xB3, 0xDC, 0, 0] else d.ctlReply m 2 []

/-! ### Vendor commands that need no bus (Table 23-3) -/

/-- The steward state of IDENTIFY: 0 BOOT_ROM, 1 RUNNING, 2 SECURE_HOLD. -/
def Dev.stewardState (d : Dev) : Nat :=
  if d.flag F.FUSE_STATUS_SECURE_HOLD then 2 else if d.stw.running then 1 else 0

/-- IDENTIFY (R506): served in every steward state. -/
def execIdentify (s : State) : Res := s.on fun d => d.serve (isVendor 1) fun d m =>
  let w := if d.flag F.FUSE_STATUS_SECURE_HOLD then d.get F.FUSE_STATUS_FAIL_WORD else 0xFFFF
  d.vendorReply m 0 (toLe 2 0x4832 ++ [0xB1, d.get F.GRP_STATUS_ID, d.get F.PWR_STATE_STATE, d.stewardState] ++ toLe 2 w)

/-- HEALTH (R506): served in every steward state. -/
def execHealth (s : State) : Res := s.on fun d => d.serve (isVendor 2) fun d m =>
  d.vendorReply m 0 (toLe 4 (d.rd .FCOL_STATUS 0) ++ toLe 4 (d.rd .FCOL_FPSW 0) ++ toLe 4 (d.rd .GRP_STATUS 0))

/-- A vendor command that the running firmware serves: NOT_AVAILABLE outside RUNNING (R506). -/
def Dev.vendor (d : Dev) (c : Nat) (f : Dev → MctpMsg → Dev) : Dev := d.serve (isVendor c) fun d m =>
  if d.stewardState = 1 then f d m else d.vendorReply m ccNOT_AVAILABLE []

/-- The bytes of the log entry that holds a SEQ; those for a SEQ that none holds are open. -/
def Dev.logBytes (d : Dev) (seq : Nat) : List Nat :=
  match d.fc.log.cells.findSome? fun c => match c.2 with | some e => if e.seq = seq then some e else none | none => none with
  | some e => e.bytes
  | none => slice (Config.noLogEntry seq) 0 32

/-- LOG_READ (R506): COUNT entries from a first SEQ on; SEQ skips 0. -/
def execLogRead (s : State) : Res := s.on fun d => d.vendor 3 fun d m =>
  let first := leNat (slice m.bytes 6 2)
  let n := m.byte 8
  if n = 0 ∨ 8 < n then d.vendorReply m ccBAD_FIELD []
  else d.vendorReply m 0 ((List.range n).foldl (fun l i =>
    let q := first + i
    l ++ d.logBytes (if 0xFFFF < q then q - 0xFFFF else q)) [])

/-- MODULE_STATUS (R506). -/
def execModuleStatus (s : State) : Res := s.on fun d => d.vendor 4 fun d m =>
  let k := m.byte 6
  if 31 < k then d.vendorReply m ccBAD_FIELD []
  else d.vendorReply m 0 (toLe 4 (d.rd .MGT_MOD_STATUS k) ++ toLe 8 (d.rd .MGT_MOD_FLAGS k))

/-- The result area of a steward window, bytes 0x200 to 0x2FF. -/
def Win.stmBytes (w : Win) : List Nat := (List.range 32).foldl (fun l i => l ++ toLe 8 (w.word (0x200 + 8 * i))) []

/-- A request whose command has completed: channel and message. -/
def Dev.stmReady (d : Dev) : Option (Fin 16 × MctpMsg) :=
  [(12 : Fin 16), 13, 14, 15].findSome? fun w => match d.mgt.stm.get w.val with
    | some m => if (d.win (.stm w)).st = 2 then some (w, m) else none
    | none => none

/-- A window of a secure channel is empty for the next command of its session. -/
def Dev.stmFree (d : Dev) (w : Fin 16) : Dev :=
  let x := d.win (.stm w)
  if x.st = 2 then d.setWin (.stm w) { x with st := 0 } else d

/-- STEWARD_CMD (R506): the result of a command that has completed goes back to the BMC; or the next request opens the window of its
session's secure channel for the steward command that it carries, which is a command of its own. -/
def execStewardCmd (s : State) : Res := s.on fun d => d.onIsland 24 fun d =>
  match d.stmReady with
  | some (w, m) =>
    let d := (d.vendorReply m 0 (d.win (.stm w)).stmBytes).stmFree w
    d.setMgt fun x => { x with stm := x.stm.set w.val none }
  | none => d.vendor 7 fun d m =>
    match m.session with
    | none => d.secRefused.vendorReply m ccREFUSED []
    | some c =>
      if h : c + 8 < 16 then
        if (d.mgt.stm.get (c + 8)).isSome then d.vendorReply m ccBUSY []
        else (d.stmFree ⟨c + 8, h⟩).setMgt fun x => { x with stm := x.stm.set (c + 8) (some m) }
      else d

/-! ### SPDM (R506, R573, R574) -/

/-- An SPDM request is taken: on MCTP the first that waits with request code `c`, served by the running firmware; on DOE as it
arrives. `f` gives the response from the SPDM version on, to the request from there on. -/
def Dev.spdm (d : Dev) (via : SpdmVia) (c : Nat) (f : Dev → Option MctpMsg → List Nat → Dev × List Nat) : Dev :=
  match via with
  | .mctp =>
    if !d.stw.running then d
    else d.serve (fun m => m.byte 0 == 5 && m.byte 2 == c && m.session.isNone) fun d m =>
      let r := f d (some m) (m.bytes.drop 1)
      r.1.reply m (5 :: r.2)
  | .doe p b => d.onIsland 20 fun d =>
      if !d.isUp 24 || !d.stw.running || !d.pfExists p.val || b.getD 1 0 != c then d
      else
        let r := f d none b
        r.1.emit (.pcie (d.portOfPf p.val) 5 (p.val :: r.2))

/-- An SPDM error response. -/
def spdmError (e : Nat) : List Nat := [0x12, 0x7F, e, 0]

/-- SPDM error codes: InvalidRequest, Busy, Unspecified. -/
def spInvalid : Nat := 1
def spBusy : Nat := 3
def spUnspecified : Nat := 5

/-- The DIGEST fields of the images bound to slots 0 to 255, 48 zero bytes for an unbound slot. -/
def Dev.slotDigests (d : Dev) : List Nat :=
  ((List.range 256).map fun sl =>
    match if d.activeVer sl = 0 then none else (d.slots.get (sl * 256 + d.activeVer sl)).bind fun v => d.image v.image with
    | some x => slice (imageDigest x.bytes) 0 48
    | none => List.replicate 48 0).flatten

/-- The measurement blocks (Table 26-8): whether a block is raw, and its value. -/
def Dev.measurement (d : Dev) : Nat → Bool × List Nat
  | 1 => (false, slice Config.bootRomDigest 0 48)
  | 2 => (false, slice d.stw.digest 0 48)
  | 3 => (true, toLe 2 d.stw.index ++ toLe 2 d.rollbackV)
  | 4 => (true, toLe 4 (d.get F.FUSE_STATUS_LC) ++ toLe 4 (d.fuseVal 3) ++ toLe 4 (d.fuseVal 4))
  | 5 => (false, slice (Config.sha384 d.stw.applied) 0 48)
  | _ => (false, slice (Config.sha384 d.slotDigests) 0 48)

/-- A measurement block as DSP0274 lays it out: index, specification, size, then value type, size and value. -/
def Dev.measureBlock (d : Dev) (i : Nat) : List Nat :=
  let r := d.measurement i
  [i, 1] ++ toLe 2 (3 + r.2.length) ++ [b2n r.1 * 128 + i % 128] ++ toLe 2 r.2.length ++ r.2

/-- The response to GET_MEASUREMENTS: index 0 asks for their number, 0xFF for all. -/
def Dev.measures (d : Dev) (q : List Nat) : List Nat :=
  let i := q.getD 3 0
  let l := if i = 0xFF then (List.range 6).map (· + 1) else if i = 0 then [] else [i]
  if i ≠ 0xFF ∧ 6 < i then spdmError spInvalid
  else
    let rec_ := (l.map d.measureBlock).flatten
    [0x12, 0x60, if i = 0 then 6 else 0, 0] ++ [l.length] ++ toLe 3 rec_.length ++ rec_ ++ Config.spdmRest 0x60 q d.mono

/-- GET_MEASUREMENTS (R574). -/
def execGetMeasurements (via : SpdmVia) (s : State) : Res := s.on fun d => d.spdm via 0xE0 fun d _ q => (d, d.measures q)

/-- A portion of the certificate chain: slot, offset and length of the request; at most what a message of 1,024 bytes holds. -/
def Dev.certPortion (d : Dev) (q : List Nat) : List Nat :=
  let c := Config.certChain d.serial d.stw.digest d.stw.index
  let off := leNat (slice q 4 2)
  let n := min (min (leNat (slice q 6 2)) 1008) (c.length - off)
  if q.getD 2 0 % 16 ≠ 0 ∨ c.length ≤ off then spdmError spInvalid
  else [0x12, 0x02, 0, 0] ++ toLe 2 n ++ toLe 2 (c.length - off - n) ++ slice c off n

/-- GET_CERTIFICATE (R573): Unspecified in BLANK and RETIRED. -/
def execGetCertificate (via : SpdmVia) (s : State) : Res := s.on fun d => d.spdm via 0x82 fun d _ q =>
  (d, if d.noSecrets then spdmError spUnspecified else d.certPortion q)

/-- CHALLENGE (R573): a response signed with the Alias key. -/
def execChallenge (via : SpdmVia) (s : State) : Res := s.on fun d => d.spdm via 0x83 fun d _ q =>
  (d, if d.noSecrets then spdmError spUnspecified
      else if q.getD 2 0 ≠ 0 then spdmError spInvalid
      else [0x12, 0x03, 0, 1] ++ Config.spdmRest 0x03 q d.mono)

/-- The sessions in SMB_STATUS. -/
def Dev.showSessions (d : Dev) : Dev := d.put F.MGT_SMB_STATUS_SESSIONS 0 d.stw.sessions.length

/-- A session of an endpoint opens on a secure channel. -/
def Dev.bindSession (d : Dev) (c src : Nat) : Dev :=
  let d : Dev := { d with stw := { d.stw with sessions := d.stw.sessions ++ [c] } }
  (d.setMgt fun x => { x with eids := x.eids.set c (src + 1) }).showSessions

/-- KEY_EXCHANGE (R506, R573): on MCTP the session takes the lowest free channel from 4 on; a fifth is answered Busy. -/
def execKeyExchange (via : SpdmVia) (s : State) : Res := s.on fun d => d.spdm via 0xE4 fun d m q =>
  if d.noSecrets then (d, spdmError spUnspecified)
  else match m with
    | none => (d, [0x12, 0x64, 0, 0] ++ Config.spdmRest 0x64 q d.mono)
    | some m => match [4, 5, 6, 7].find? fun c => !d.stw.sessions.contains c with
      | none => (d, spdmError spBusy)
      | some c => (d.bindSession c m.src, [0x12, 0x64, 0, 0] ++ toLe 2 c ++ Config.spdmRest 0x64 q d.mono)

/-- SPDM_SESSION_END (R506): the session on a channel ends; its channel is free. An END_SESSION request that waits in the session is
answered within it first. -/
def execSpdmSessionEnd (c : Fin 4) (s : State) : Res := s.on fun d => d.onIsland 24 fun d =>
  let ch := c.val + 4
  if !d.stw.sessions.contains ch then d
  else
    let d := match d.mgt.msgs.find? fun m => m.byte 0 == 5 && m.session == some ch with
      | some m => d.reply m [5, 0x12, 0x6C, 0, 0]
      | none => d
    let d : Dev := { d with stw := { d.stw with sessions := d.stw.sessions.erase ch } }
    (d.setMgt fun x => { x with eids := x.eids.set ch 0, stm := x.stm.set (ch + 8) none, msgs := x.msgs.filter fun m => m.session != some ch }).showSessions

end Sys2Proof.Machine
end

