-- ==== Sys2Proof/Machine/I2c.lean ====
section
/-!
DEFINITION. The I2C port engines (R509 to R513), modules (R514 to R516), pod rails (R517, R518), the management transaction window
(R519) and the vendor commands that read and write modules.
-/
namespace Sys2Proof.Machine

/-! ### Statuses (Table 23-6) -/

def i2cOK : Nat := 0
def i2cADDR_NAK : Nat := 1
def i2cDATA_NAK : Nat := 2
def i2cARB_EXHAUSTED : Nat := 3
def i2cBUS_TIMEOUT : Nat := 4
def i2cBUS_STUCK : Nat := 5
def i2cPEC_ERR : Nat := 6
def i2cNOT_PRESENT : Nat := 7
def i2cPAGE_CONFLICT : Nat := 8
def i2cBUSY : Nat := 9
def i2cPORT_OFF : Nat := 10

/-! ### Rails -/

/-- AVS_PMBUS_FAIL of a rail. -/
def Dev.railFault (d : Dev) (r : Nat) : Dev := d.fault 6 5 24 r

/-- The VF_TRIM points of a pod. -/
def Dev.vfPoints (d : Dev) (p : Nat) : List Nat := (List.range 4).map fun k => d.fuseVal (136 + 4 * p + k)

/-- A VF_TRIM point of a pod is DEFAULTED: its CAP_MHZ is held at 1,600 (R556). -/
def Dev.vfDefaulted (d : Dev) (p : Nat) : Bool := (List.range 4).any fun k => d.get F.FUSE_WORD_STATE_STATE (136 + 4 * p + k) == 2

/-- The limit of CAP_MHZ of a pod (R535, R556, R609): 1,600 where its rail is not usable or a trim point is DEFAULTED; after a failed
command, what the trim gives for CONFIRMED_MV; and the throttle where the pod is capped. -/
def Dev.capLimit (d : Dev) (p : Nat) : Nat :=
  let r := p / 4
  let a := if !d.flag F.PWR_AVS_STATUS_USABLE r || d.vfDefaulted p then 1600
    else if d.mgt.railBad.get r then min 2200 (Config.vfFreq (d.vfPoints p) (d.get F.PWR_AVS_STATUS_CONFIRMED_MV r)) else 2200
  if bit d.eye.capped p then min a (d.get F.EYE_THROT_THROTTLE_MHZ) else a

/-- CAP_MHZ of the pods of a rail falls to its limit where it lies above. -/
def Dev.lowerCaps (d : Dev) (r : Nat) : Dev :=
  (List.range 4).foldl (fun d k =>
    let p := 4 * r + k
    if d.capLimit p < d.get F.POD_CLK_CFG_CAP_MHZ p then d.put F.POD_CLK_CFG_CAP_MHZ p (d.capLimit p) else d) d

/-- A command of a rail has failed twice (R518, R535): the rail stays at its last confirmed value. -/
def Dev.railFails (d : Dev) (r : Nat) : Dev :=
  let d := d.setMgt fun x => { x with railBad := x.railBad.set r true }
  (d.railFault r).lowerCaps r

/-- A rail does not pass the check of R517. -/
def Dev.railUnusable (d : Dev) (r : Nat) : Dev :=
  let d := (d.put F.PWR_AVS_STATUS_USABLE r 0).setMgt fun x => { x with exps := x.exps.set r none, want := x.want.set r none }
  (d.railFault r).lowerCaps r

/-- The mantissa of a voltage in mV for exponent N: round(V × 2^(−N)) (R518). -/
def mantissa (mv : Nat) (n : Int) : Nat :=
  if n ≤ 0 then (mv * 2 ^ (-n).toNat * 2 + 1000) / 2000 else (mv * 2 + 1000 * 2 ^ n.toNat) / (2000 * 2 ^ n.toNat)

/-! ### Modules -/

/-- MOD_STATUS follows a poll or a change of MOD_FLAGS: a change sets CHANGE and raises MODULE_CHANGE (R515). -/
def Dev.modShow (d : Dev) (m present state : Nat) : Dev :=
  let fs := b2n (d.rd .MGT_MOD_FLAGS m != 0)
  if d.get F.MGT_MOD_STATUS_PRESENT m = present ∧ d.get F.MGT_MOD_STATUS_STATE m = state ∧ d.get F.MGT_MOD_STATUS_FLAGS_SET m = fs then d
  else
    let d := ((d.put F.MGT_MOD_STATUS_PRESENT m present).put F.MGT_MOD_STATUS_STATE m state).put F.MGT_MOD_STATUS_FLAGS_SET m fs
    let d := d.put F.MGT_MOD_STATUS_CHANGE m 1
    d.raiseLocal 24 32 m (d.rd .MGT_MOD_STATUS m)

/-- A module that does not acknowledge is not present; its identifier is recorded anew at the next insertion. -/
def Dev.modGone (d : Dev) (m : Nat) : Dev := (d.setMgt fun x => { x with ids := x.ids.set m none }).modShow m 0 0

/-- A poll returns bytes 3 to 11 of the lower page: the state, and the flags of bytes 8 to 11 (R515). -/
def Dev.modPolled (d : Dev) (m : Nat) (b : List Nat) : Dev :=
  let d := d.wr .MGT_MOD_FLAGS m (Nat.lor (d.rd .MGT_MOD_FLAGS m) (leNat (slice b 5 4)))
  d.modShow m 1 (b.getD 0 0 / 2 % 8)

/-! ### Requests -/

/-- A request completes with a status of Table 23-6 and what it read. -/
def Dev.i2cDone (d : Dev) (q : I2cReq) (status : Nat) (data : List Nat) : Dev :=
  match q.by_, q.op with
  | .poll, .poll m =>
    if status = i2cOK then d.modPolled m data else if status = i2cADDR_NAK then d.modGone m else d
  | .window, _ =>
    (d.winDone .tw ((0x200, status) :: (List.range (ceilDiv data.length 8)).map fun i => (0x208 + 8 * i, leNat (slice data (8 * i) 8)))).raiseLocal
      24 35 status
  | .vendor m, _ => d.vendorReply m (if status = i2cOK then 0 else ccI2C_ERROR) (status :: data)
  | .rail, .vout r mv =>
    if status = i2cOK then
      let d := (d.put F.PWR_AVS_STATUS_CONFIRMED_MV r mv).raiseLocal 25 19 r mv
      d.setMgt fun x => { x with railBad := x.railBad.set r false }
    else d.railFails r
  | .rail, .telemetry r =>
    if status = i2cOK then
      ((d.put F.MGT_AVS_READ_VOUT r (leNat (slice data 0 2))).put F.MGT_AVS_READ_IOUT r (leNat (slice data 2 2))).put
        F.MGT_AVS_READ_STATUS_WORD r (leNat (slice data 4 2))
    else d
  | .rail, .mode r =>
    let v := data.getD 0 0
    if status = i2cOK ∧ v / 32 % 8 = 0 then
      (d.put F.PWR_AVS_STATUS_USABLE r 1).setMgt fun x => { x with exps := x.exps.set r (some (signed 5 v)) }
    else d.railUnusable r
  | _, _ => d

/-- The requests that wait at a port. -/
def Dev.i2cQueue (d : Dev) (p : Nat) : List I2cReq := d.mgt.reqs.get p

/-- Store the requests of a port. -/
def Dev.setI2c (d : Dev) (p : Nat) (l : List I2cReq) : Dev := d.setMgt fun x => { x with reqs := x.reqs.set p l }

/-- The first request of a port completes and leaves its queue. -/
def Dev.i2cEnds (d : Dev) (p status : Nat) (data : List Nat) : Dev :=
  match d.i2cQueue p with
  | [] => d
  | q :: t => (d.setI2c p t).i2cDone q status data

/-- A request joins the queue of a port, or completes at once: PORT_OFF, or BUSY where 16 wait (R509, R513). -/
def Dev.i2cRequest (d : Dev) (p : Nat) (q : I2cReq) : Dev :=
  if d.get F.MGT_I2C_CFG_ROLE p = 0 ∨ d.flag F.MGT_I2C_STATUS_FAILED p then d.i2cDone q i2cPORT_OFF []
  else if 16 ≤ (d.i2cQueue p).length then d.i2cDone q i2cBUSY []
  else d.setI2c p (d.i2cQueue p ++ [q])

/-- A request to module `m`: it must be in use, behind a CMIS port and, but for a poll, present. -/
def Dev.modRequest (d : Dev) (m : Nat) (q : I2cReq) : Dev :=
  let p := d.get F.MGT_MOD_MAP_PORT m
  if !d.flag F.MGT_MOD_MAP_VALID m then d.i2cDone q i2cNOT_PRESENT []
  else if d.get F.MGT_I2C_CFG_ROLE p ≠ 1 then d.i2cDone q i2cPORT_OFF []
  else if q.by_ ≠ .poll ∧ ¬ d.flag F.MGT_MOD_STATUS_PRESENT m then d.i2cDone q i2cNOT_PRESENT []
  else d.i2cRequest p q

/-- A request to rail `r`: its port has ROLE PMBUS. -/
def Dev.railRequest (d : Dev) (r : Nat) (q : I2cReq) : Dev :=
  let p := d.get F.MGT_AVS_RAIL_PORT r
  if d.get F.MGT_I2C_CFG_ROLE p ≠ 2 then d.i2cDone q i2cPORT_OFF [] else d.i2cRequest p q

/-- The VOUT_MODE of each VALID rail is read at start (R517). -/
def Dev.railsStart (d : Dev) : Dev :=
  (List.range 4).foldl (fun d r => if d.flag F.MGT_AVS_RAIL_VALID r then d.railRequest r { by_ := .rail, op := .mode r } else d) d

/-! ### Transactions -/

/-- The module that an operation reaches. -/
def I2cOp.module : I2cOp → Option Nat
  | .poll m | .read m _ _ _ _ | .write m _ _ _ _ => some m
  | _ => none

/-- The transactions of an operation as the controller sends them: address and bytes written (R514 to R518). -/
def Dev.i2cSends (d : Dev) (p : Nat) (op : I2cOp) : List Out :=
  let rail (r : Nat) (cmds : List (List Nat)) : List Out :=
    let a := d.get F.MGT_AVS_RAIL_ADDR r
    (([0x00, d.get F.MGT_AVS_RAIL_PAGE r] :: cmds).map fun c => .i2c p a c)
  let page (bank pg off : Nat) : List Out := if 128 ≤ off then [.i2c p 0x50 [126, bank, pg]] else []
  match op with
  | .poll _ => [.i2c p 0x50 [3]]
  | .read _ bank pg off _ => page bank pg off ++ [.i2c p 0x50 [off]]
  | .write _ bank pg off data => page bank pg off ++ [.i2c p 0x50 (off :: data)]
  | .vout r mv =>
    let v := mantissa mv ((d.mgt.exps.get r).getD 0)
    rail r [0x21 :: toLe 2 v, [0x21]]
  | .telemetry r => rail r [[0x8B], [0x8C], [0x79]]
  | .mode r => rail r [[0x20]]

/-- The address of the multiplexer before a module, where it has one (R514). -/
def Dev.muxOf (d : Dev) (m : Nat) : Option Nat :=
  let p := d.get F.MGT_MOD_MAP_PORT m
  if d.flag F.MGT_MOD_MAP_USE_MUX m then
    some (if d.flag F.MGT_MOD_MAP_MUX m then d.get F.MGT_I2C_CFG_MUX1_ADDR p else d.get F.MGT_I2C_CFG_MUX0_ADDR p)
  else none

/-- An operation goes out, a module's behind a multiplexer between its selection and deselection. -/
def Dev.i2cEmit (d : Dev) (p : Nat) (op : I2cOp) : Dev :=
  let l := d.i2cSends p op
  let l := match op.module with
    | some m => match d.muxOf m with
      | some a => [.i2c p a [2 ^ d.get F.MGT_MOD_MAP_CHANNEL m]] ++ l ++ [.i2c p a [0]]
      | none => l
    | none => l
  { d with out := d.out ++ l }

/-- The head of an access shows another page than the one selected, or, behind a multiplexer, another module (R516). -/
def Dev.pageRace (d : Dev) (op : I2cOp) (ident bank page : Nat) : Bool :=
  let other := match op.module with
    | some m => (d.muxOf m).isSome && (match d.mgt.ids.get m with | some k => k != ident | none => false)
    | none => false
  let moved := match op with
    | .read _ b p off _ => decide (128 ≤ off) && (b != bank || p != page)
    | .write _ b p off _ => decide (128 ≤ off) && (b != bank || p != page)
    | _ => false
  other || moved

/-- The bytes that an operation reads. -/
def I2cOp.reads : I2cOp → Nat
  | .poll _ => 9
  | .read _ _ _ _ n => n
  | .write _ _ _ _ _ => 0
  | .vout _ _ => 2
  | .telemetry _ => 6
  | .mode _ => 1

/-- A failed attempt of a rail's request is repeated once (R518), then it ends with its status. -/
def Dev.railAgain (d : Dev) (p : Nat) (q : I2cReq) (t : List I2cReq) (status : Nat) : Dev :=
  if q.by_ = .rail ∧ ¬ q.redo then d.setI2c p ({ q with redo := true } :: t) else (d.setI2c p t).i2cDone q status []

/-- The transaction of the first request of a port has run (R509, R514 to R518). -/
def Dev.i2cAnswered (d : Dev) (p : Nat) (q : I2cReq) (t : List I2cReq) (a : I2cAnswer) : Dev :=
  match a with
  | .addrNak => d.railAgain p q t i2cADDR_NAK
  | .dataNak => d.railAgain p q t i2cDATA_NAK
  | .pecErr => if q.by_ = .rail then d.railAgain p q t i2cPEC_ERR else d
  | .data ident bank page b =>
    if d.pageRace q.op ident bank page then
      let d := d.count .MGT_PAGE_RACE p
      if q.races < 3 then d.setI2c p ({ q with races := q.races + 1 } :: t) else (d.setI2c p t).i2cDone q i2cPAGE_CONFLICT []
    else
      let b := slice b 0 q.op.reads
      match q.op with
      | .vout r mv =>
        if leNat b = mantissa mv ((d.mgt.exps.get r).getD 0) % 2 ^ 16 then (d.setI2c p t).i2cDone q i2cOK [] else d.railAgain p q t i2cDATA_NAK
      | .poll m =>
        let d := if (d.mgt.ids.get m).isNone then d.setMgt fun x => { x with ids := x.ids.set m (some ident) } else d
        (d.setI2c p t).i2cDone q i2cOK b
      | _ => (d.setI2c p t).i2cDone q i2cOK b

/-- I2C_TRANSACTION (R509): the engine of port `p` issues its first request that does not wait after lost arbitration, and the bus
answers; port 4 is SMB, where the device's own first packet goes to the BMC. -/
def execI2cTransaction (p : Fin 5) (a : I2cAnswer) (s : State) : Res := s.on fun d => d.onIsland 24 fun d =>
  if p.val = 4 then
    match d.mgt.smb with
    | [] => d
    | b :: t =>
      if d.mgt.smbWait.isSome then d
      else
        let d := d.setMgt fun x => { x with smb := t, smbLost := 0 }
        d.emit (.i2c 4 (b.getD 0 0 / 2) (b.drop 1))
  else if d.flag F.MGT_I2C_STATUS_FAILED p.val then d
  else match d.i2cQueue p.val with
    | [] => d
    | q :: t => if q.wait.isSome then d else (d.i2cEmit p.val q.op).i2cAnswered p.val q t a

/-! ### Arbitration (R510) -/

/-- The loss is recorded and counted. -/
def Dev.arbLog (d : Dev) (p byte_ bit_ try_ : Nat) : Dev :=
  let d := ((d.put F.MGT_ARB_LOG_BYTE p byte_).put F.MGT_ARB_LOG_BIT p bit_).put F.MGT_ARB_LOG_TRY p try_
  (d.put F.MGT_ARB_LOG_VALID p 1).count .MGT_ARB_LOST p

/-- A ninth loss ends the request with ARB_EXHAUSTED. -/
def Dev.arbExhausted (d : Dev) (p : Nat) : Dev :=
  let d := d.raiseLocal 24 33 p (d.rd .MGT_ARB_LOG p)
  if p = 4 then d.setMgt fun x => { x with smb := x.smb.drop 1, smbLost := 0 }
  else
    let d := if d.get F.MGT_I2C_CFG_ROLE p = 1 then d.fault 3 0x0A 24 p else d
    let r := match d.i2cQueue p with
      | q :: _ => (match q.op with | .vout r _ => r | .telemetry r => r | .mode r => r | _ => 0)
      | [] => 0
    let vout := match d.i2cQueue p with | q :: _ => (match q.op with | .vout _ _ | .mode _ => true | _ => false) | [] => false
    -- A command or check of a rail raises AVS_PMBUS_FAIL as it ends.
    let d := if d.get F.MGT_I2C_CFG_ROLE p = 2 && !vout then d.railFault r else d
    d.i2cEnds p i2cARB_EXHAUSTED []

/-- ARBITRATION_LOST (R510): the transaction in progress on port `p` loses at a bit of a byte. -/
def execArbitrationLost (p : Fin 5) (byte_ : BitVec 8) (bit_ : Fin 8) (s : State) : Res := s.on fun d => d.onIsland 24 fun d =>
  if p.val = 4 then
    if d.mgt.smb.isEmpty || d.mgt.smbWait.isSome then d
    else
      let n := d.mgt.smbLost + 1
      let d := d.arbLog 4 byte_.toNat bit_.val n
      if n = 9 then d.arbExhausted 4 else d.setMgt fun x => { x with smbLost := n, smbWait := some d.mono }
  else match d.i2cQueue p.val with
    | [] => d
    | q :: t =>
      if q.wait.isSome || d.flag F.MGT_I2C_STATUS_FAILED p.val then d
      else
        let d := d.arbLog p.val byte_.toNat bit_.val (q.lost + 1)
        if q.lost = 8 then d.arbExhausted p.val
        else d.setI2c p.val ({ q with lost := q.lost + 1, wait := some d.mono } :: t)

/-- ARB_BACKOFF_EXPIRY (R510): the bus has been free for 50 us and the backoff of `draw` us has ended. -/
def execArbBackoffExpiry (p : Fin 5) (draw : BitVec 8) (s : State) : Res := s.on fun d => d.onIsland 24 fun d =>
  let after (t : Nat) : Nat := t + 50000 + draw.toNat * 1000
  if p.val = 4 then
    match d.mgt.smbWait with
    | none => d
    | some t => (d.reach (after t)).setMgt fun x => { x with smbWait := none }
  else match d.i2cQueue p.val with
    | [] => d
    | q :: l => match q.wait with
      | none => d
      | some t => (d.reach (after t)).setI2c p.val ({ q with wait := none } :: l)

/-! ### SCL held low and stuck buses (R512, R513) -/

/-- BUS_TIMEOUT (R512): SCL has been low for 25 ms. As a controller the device ends the transaction, which is not retried; as the
target on SMB (`target`) it lets the partial packet go. -/
def execBusTimeout (p : Fin 5) (target : Bool) (s : State) : Res := s.on fun d => d.onIsland 24 fun d =>
  if p.val = 4 then
    if target then d else d.setMgt fun x => { x with smb := x.smb.drop 1, smbLost := 0, smbWait := none }
  else if (d.i2cQueue p.val).isEmpty || d.flag F.MGT_I2C_STATUS_FAILED p.val then d
  else (d.count .MGT_BUS_TMO p.val).i2cEnds p.val i2cBUS_TIMEOUT []

/-- The port fails: its first request is BUS_STUCK, the others PORT_OFF. -/
def Dev.portFails (d : Dev) (p : Nat) : Dev :=
  let d := (d.put F.MGT_I2C_STATUS_FAILED p 1).raiseLocal 24 34 p
  let d := d.setMgt fun x => { x with failAt := x.failAt.set p d.mono }
  let l := d.i2cQueue p
  let d := d.i2cEnds p i2cBUS_STUCK []
  (l.drop 1).foldl (fun d _ => d.i2cEnds p i2cPORT_OFF []) d

/-- BUS_RECOVERY (R513): SDA is stuck and the engine clocks SCL; `clears`: SDA reads high again. A FAILED port repeats it every
second. -/
def execBusRecovery (p : Fin 4) (clears : Bool) (s : State) : Res := s.on fun d => d.onIsland 24 fun d =>
  if d.get F.MGT_I2C_CFG_ROLE p.val = 0 then d
  else if d.flag F.MGT_I2C_STATUS_FAILED p.val then
    let d := d.reach (d.mgt.failAt.get p.val + 1000000000)
    if clears then (d.count .MGT_BUS_RECOVER p.val).put F.MGT_I2C_STATUS_FAILED p.val 0
    else d.setMgt fun x => { x with failAt := x.failAt.set p.val d.mono }
  else if clears then d.count .MGT_BUS_RECOVER p.val
  else d.portFails p.val

/-! ### Polling and the module commands -/

/-- MODULE_POLL (R515): POLL_MS after its last poll, a VALID module is polled. -/
def execModulePoll (m : Fin 32) (s : State) : Res := s.on fun d => d.onIsland 24 fun d =>
  let p := d.get F.MGT_MOD_MAP_PORT m.val
  if !d.stw.running || !d.flag F.MGT_MOD_MAP_VALID m.val || d.get F.MGT_I2C_CFG_ROLE p != 1 then d
  else
    let d := d.reach (d.mgt.polled.get m.val + d.get F.MGT_I2C_CFG_POLL_MS p * 1000000)
    let d := d.setMgt fun x => { x with polled := x.polled.set m.val d.mono }
    d.modRequest m.val { by_ := .poll, op := .poll m.val }

/-- A submission of the management transaction window (R519): an LEN out of range leaves the command ignored. -/
def Dev.twSubmit (d : Dev) (len top : Nat) (f : Dev → Dev) : Dev :=
  d.onIsland 24 fun d =>
    if len = 0 ∨ top < len then d.winIgnored .tw 0x10 cBAD_ENUM
    else d.submit .tw fun d => f (d.winBusy .tw)

/-- MOD_READ (R519). -/
def execModRead (m : Fin 32) (bank page off : BitVec 8) (len : BitVec 8) (s : State) : Res := s.on fun d =>
  d.twSubmit len.toNat 128 fun d =>
    d.modRequest m.val { by_ := .window, op := .read m.val bank.toNat page.toNat off.toNat len.toNat }

/-- MOD_WRITE (R519): `data` is what TW_DATA holds. -/
def execModWrite (m : Fin 32) (bank page off : BitVec 8) (len : BitVec 8) (data : List (BitVec 8)) (s : State) : Res := s.on fun d =>
  d.twSubmit len.toNat 8 fun d =>
    d.modRequest m.val
      { by_ := .window, op := .write m.val bank.toNat page.toNat off.toNat (slice (data.map (·.toNat)) 0 len.toNat) }

/-- MODULE_READ (R506). -/
def execModuleRead (s : State) : Res := s.on fun d => d.vendor 5 fun d m =>
  let k := m.byte 6
  let n := m.byte 10
  if 31 < k ∨ n = 0 ∨ 128 < n then d.vendorReply m ccBAD_FIELD []
  else d.modRequest k { by_ := .vendor m, op := .read k (m.byte 7) (m.byte 8) (m.byte 9) n }

/-- MODULE_WRITE (R506): only in a secured session; outside one it is REFUSED under R441. -/
def execModuleWrite (s : State) : Res := s.on fun d => d.vendor 6 fun d m =>
  let k := m.byte 6
  let n := m.byte 10
  if m.session.isNone then d.secRefused.vendorReply m ccREFUSED []
  else if 31 < k ∨ n = 0 ∨ 8 < n then d.vendorReply m ccBAD_FIELD []
  else d.modRequest k { by_ := .vendor m, op := .write k (m.byte 7) (m.byte 8) (m.byte 9) (slice m.bytes 11 n) }

/-! ### Rails (R518, R534, R535) -/

/-- VOUT_COMMAND (R518): the command of a rail that waits is sent, within 650 to 900 mV and at most one per 1 ms. -/
def execVoutCommand (r : Fin 4) (s : State) : Res := s.on fun d => d.onIsland 24 fun d =>
  match d.mgt.want.get r.val with
  | none => d
  | some mv =>
    let d := d.reach (d.mgt.sentAt.get r.val + 1000000)
    let d := d.setMgt fun x => { x with want := x.want.set r.val none, sentAt := x.sentAt.set r.val d.mono }
    d.railRequest r.val { by_ := .rail, op := .vout r.val (min 900 (max 650 mv)) }

/-- AVS_TELEMETRY (R518): every 10 ms. -/
def execAvsTelemetry (r : Fin 4) (s : State) : Res := s.on fun d => d.onIsland 24 fun d =>
  if !d.stw.running || !d.flag F.MGT_AVS_RAIL_VALID r.val then d
  else
    let d := d.reach (d.mgt.readAt.get r.val + 10000000)
    let d := d.setMgt fun x => { x with readAt := x.readAt.set r.val d.mono }
    d.railRequest r.val { by_ := .rail, op := .telemetry r.val }

/-- The voltage the AVS loop works toward before its limits (R534): FIXED_MV, or the trim for the highest TARGET_MHZ of the rail's pods
and a guardband of 5 mV for each 10 C of the quadrant's sensor above 25 C. -/
def Dev.railRaw (d : Dev) (r : Nat) : Nat :=
  if d.flag F.PWR_AVS_CFG_MODE r then d.get F.PWR_AVS_CFG_FIXED_MV r
  else
    let pods := (List.range 4).map fun k => 4 * r + k
    let top := (pods.map fun p => d.get F.POD_CLK_CFG_TARGET_MHZ p).foldl max 0
    let trim := (pods.map fun p => Config.vfTrim (d.vfPoints p) top).foldl max 0
    let t := signed 16 (d.rd .EYE_GOOD r)
    trim + ((t - 400).toNat / 160) * 5

/-- A step of at most 10 mV from CONFIRMED_MV toward the target; the first command of a rail goes to the target. -/
def avsStep (from_ to_ : Nat) : Nat :=
  if from_ = 0 then to_ else if from_ < to_ then min to_ (from_ + 10) else max to_ (from_ - 10)

/-- CAP_MHZ of the pods of a rail rises to its limit. -/
def Dev.raiseCaps (d : Dev) (r : Nat) : Dev :=
  (List.range 4).foldl (fun d k => d.put F.POD_CLK_CFG_CAP_MHZ (4 * r + k) (d.capLimit (4 * r + k))) d

/-- AVS_TARGET_UPDATE (R518, R534, R535): CAP_MHZ falls first; the next step of the voltage is due; CAP_MHZ rises once the voltage is
confirmed. After a failed command no rise is due. -/
def execAvsTargetUpdate (r : Fin 4) (s : State) : Res := s.on fun d => d.onIsland 24 fun d =>
  let r := r.val
  if !d.stw.running then d
  else
    let d := d.lowerCaps r
    if !d.flag F.PWR_AVS_STATUS_USABLE r then d.raiseCaps r
    else
      let raw := d.railRaw r
      let tgt := min 900 (max 650 raw)
      let d := if raw = tgt then d else d.fault 6 6 24 r
      let d := d.put F.PWR_AVS_STATUS_TARGET_MV r tgt
      let now := d.get F.PWR_AVS_STATUS_CONFIRMED_MV r
      let next := avsStep now tgt
      let d := if next = now ∨ (d.mgt.railBad.get r ∧ now < next) then d
        else d.setMgt fun x => { x with want := x.want.set r (some next) }
      if tgt ≤ now then d.raiseCaps r else d

end Sys2Proof.Machine
end

