-- ==== Sys2Proof/Machine/Registers.lean ====
section
/-!
DEFINITION. Register Conventions (03): clearing reads, the acknowledgement of a result window, reserved accesses, and
the statistics epoch. Half reads are in Look.lean, writes of registers in RegWrite.lean.
-/
namespace Sys2Proof.Machine

/-- What a read returns leaves the device towards its requester. -/
def Dev.readReturns (d : Dev) (q : Requester) (v : Nat) : Dev := d.emit (.rsp q.code [v])

/-- RC_READ (R65, R453): the supervisor of the pod reads POD.SUPV_EVT and the read clears the field; any other requester
reads 0 and clears nothing. -/
def execRcRead (q : Requester) (pod : Fin 16) (j : Fin 48) (s : State) : Res := s.on fun d =>
  d.onIsland pod.val fun d =>
    let i := pod.val * 48 + j.val
    if q = .pod pod then (d.readReturns q (d.rd .POD_SUPV_EVT i)).wr .POD_SUPV_EVT i 0 else d.readReturns q 0

/-- RESULT_ACK (R88): a DONE window whose SEQ matches becomes IDLE, its result staying readable; any other
acknowledgement is ignored with cause ACK_MISMATCH. -/
def execResultAck (w : WinId) (ack : BitVec 16) (s : State) : Res := s.on fun d =>
  d.onIsland w.island fun d =>
    let x := d.win w
    if d.halted && !w.survives then d.winIgnored w 0x08 cLOCKED
    else if x.st = 2 ∧ x.seq = ack.toNat then d.setWin w { x with st := 0 } else d.winIgnored w 0x08 cACK_MISMATCH

/-- RESERVED_ACCESS (R655): a read returns 0, a write is discarded; HOST.BAD_ACCESS counts. -/
def execReservedAccess (f : Fin 2052) (isWrite : Bool) (s : State) : Res := s.on fun d =>
  d.onIsland 20 fun d =>
    let d := if isWrite then d else d.readReturns (.fn f) 0
    d.count .HOST_BAD_ACCESS (d.hostPortOf f.val)

/-! ### Statistics epochs (R80 to R84) -/

/-- A SWITCH request (R81, R84): it sets SWITCH; a request made while one is pending joins it; a request made while
CLOSING is 1 is held; otherwise T_sw is 500 ns after the request. -/
def Dev.epochRequest (d : Dev) : Dev :=
  if d.flag F.STATS_EPOCH_CTL_SWITCH then d
  else
    let d := d.put F.STATS_EPOCH_CTL_SWITCH 0 1
    if d.flag F.STATS_EPOCH_CTL_CLOSING then { d with epoch := { d.epoch with held := true } }
    else { d with epoch := { d.epoch with tsw := some (d.mono + 500) } }

/-- EPOCH_SWITCH_REQUEST (R84): only the PF0 manager driver and the steward firmware may request switches; a write by PF1 to
PF3 is ignored with cause LOCKED (R656). A VF does not reach the STATS block. -/
def execEpochSwitchRequest (q : Requester) (s : State) : Res := s.on fun d =>
  d.onIsland 21 fun d => d.byWrite .STATS_EPOCH_CTL 0 fun d =>
    if q = .steward ∨ q = .fn 0 then d.epochRequest
    else match q with
      | .fn i => if i.val < 4 then d.ignored .STATS_EPOCH_CTL 0 cLOCKED else d
      | _ => d

/-- EPOCH_PERIOD_EXPIRY (R80): at T_last + N ms, where N is not 0, an automatic request is made as a write of SWITCH. -/
def execEpochPeriodExpiry (s : State) : Res := s.on fun d =>
  d.onIsland 21 fun d =>
    let n := d.rd .STATS_EPOCH_PERIOD 0
    if n = 0 ∨ d.epoch.tsw.isSome ∨ d.epoch.held then d
    else (d.reach (d.epoch.tlast + n * 1000000)).epochRequest

/-- EPOCH_SWITCH_INSTANT (R81): at T_sw the closing bank becomes the closed bank and the other opens with a copy of it;
SWITCH clears, CLOSING is 1, EPOCH increments and EPOCH_SWITCH_DTB holds the instant. -/
def execEpochSwitchInstant (s : State) : Res := s.on fun d =>
  match d.epoch.tsw with
  | none => d
  | some t =>
    let d := d.reach t
    let close (e : Entry) : Entry := { e with cHits := e.hits, cAcc := e.acc }
    let es := d.tbl.entries.mapListed (fun _ e => e.map close)
    let d : Dev := { d with tbl := { d.tbl with entries := es } }
    let d := { d with closed := d.ctrs, epoch := { d.epoch with tsw := none, last := some t, tlast := t } }
    let d := d.put F.STATS_EPOCH_CTL_SWITCH 0 0
    let d := d.put F.STATS_EPOCH_CTL_CLOSING 0 1
    let d := d.put F.STATS_EPOCH_CTL_OPEN_BANK 0 (1 - d.get F.STATS_EPOCH_CTL_OPEN_BANK)
    let d := d.put F.STATS_EPOCH_CTL_EPOCH 0 (d.get F.STATS_EPOCH_CTL_EPOCH + 1)
    d.wr .STATS_EPOCH_SWITCH_DTB 0 (t + d.sys.steps)

/-- EPOCH_CLOSE (R81, R84): 2 µs after T_sw the closed bank stops taking updates, CLOSING clears, EPOCH_CLOSED is set and
its event raised; a held request takes effect in the cycle after. -/
def execEpochClose (s : State) : Res := s.on fun d =>
  match d.epoch.last with
  | none => d
  | some t =>
    if d.flag F.STATS_EPOCH_CTL_CLOSING then
      let d := d.reach (t + 2000)
      let d := d.put F.STATS_EPOCH_CTL_CLOSING 0 0
      let d := d.put F.STATS_EPOCH_CTL_EPOCH_CLOSED 0 1
      let d := d.raiseLocal 21 0 0 (d.get F.STATS_EPOCH_CTL_EPOCH)
      if d.epoch.held then { d with epoch := { d.epoch with held := false, tsw := some (d.mono + 500) } } else d
    else d

/-- The closed bank takes the same update (R81). -/
def Dev.countClosed (d : Dev) (c : Ctr) (i n : Nat) : Dev :=
  { d with closed := d.closed.set (c.key i) ((d.closed.get (c.key i) + n) % 2 ^ 64) }

/-- COUNTER_UPDATE (R81, R83): an update carries the DTB at which its source issued it. An update issued before T_sw is
applied to both banks while the bank closes, and after that to the open bank only, counted in LATE_UPDATES with an L0
PROTOCOL fault; any other is applied to the open bank. An update that arrives before the switch instant is in the copy. -/
def execCounterUpdate (c : Ctr) (i : Nat) (n : Nat) (issued : Nat) (s : State) : Res := s.on fun d =>
  d.onIsland (c.place.island i) fun d =>
    let d' := d.count c i n
    if !c.banked then d' else
    match d.epoch.last with
    | none => d'
    | some t =>
      if issued < t + d.sys.steps then
        if d.flag F.STATS_EPOCH_CTL_CLOSING then d'.countClosed c i n
        else (d'.count .STATS_LATE_UPDATES).fault 3 3 (c.place.island i)
      else d'

end Sys2Proof.Machine
end

