-- ==== Sys2Proof/Machine/Look.lean ====
section
/-!
DEFINITION. What a read of a register returns: the registers that report a quantity of another part of the device are
computed here, the others are read as they stand. And the half reads of R75.
-/
namespace Sys2Proof.Machine

/-- TM.SHAPE_TOKENS (R275): a bucket in bytes, a signed 32-bit value. -/
def Dev.tokensReg (d : Dev) (lv n : Nat) : Nat := unsigned 32 (d.bucketNow lv n / 8000)

/-- The walks in flight at a lookup unit. -/
def Dev.walksAt (d : Dev) (u : Nat) : Nat := (d.tbl.walks.filter (·.unit == u)).length

/-- The Chrysalis ports that are UP (RST.CHRY_STATUS). -/
def Dev.chryUp (d : Dev) : Nat :=
  ((d.stw.chry.ports.mapIdx fun j x => (j, x)).filter fun x => match x.2 with
    | some c => let s := d.get F.NET_PORT_STATUS_STATE c.lane; s == 4 || s == 5
    | none => false).foldl (fun a x => a + 2 ^ x.1) 0

/-- CLK.PLL_STATUS: the clock of a pod that runs, and the PLL of an island that is up (notes/assumptions/73.md). -/
def Dev.pllStatus (d : Dev) : Nat :=
  (List.range 25).foldl (fun a n =>
    a + if d.isUp n && (decide (16 ≤ n) || d.get F.POD_PARK_CTL_STATE n < 2) then 2 ^ n else 0) 0

/-- HBM.PC_STATUS: RETIRED, TRAINED from start step 8 on, else UNTRAINED; PART is free once the partitions exist, since R28
interleaves both over every pseudo-channel (notes/assumptions/125.md). -/
def Dev.pcStatus (d : Dev) (pc : Nat) : Nat :=
  let st := if bit (d.get F.FCOL_PC_RETIRED_PCS) pc then 2 else if 8 ≤ d.stw.start.step then 1 else 0
  st + b2n (st != 0 && Config.pcPart (d.get F.BUF_HBM_PARTITION_ACTIVE_GIB) pc) * 4

/-- The value of a register as a read returns it. -/
def Dev.look (d : Dev) (r : Reg) (i : Nat) : Nat :=
  match r with
  | .TM_TOKENS1 => d.tokensReg 1 i
  | .TM_TOKENS2 => d.tokensReg 2 i
  | .TM_TOKENS3 => d.tokensReg 3 i
  | .TM_TOKENS4 => d.tokensReg 4 i
  | .TM_TOKENS5 => d.tokensReg 5 i
  | .BUF_ONCHIP_FREE => d.onchipFree
  | .BUF_DEEP_FREE_PAGES => d.deepFree
  | .BUF_SLOT_STATE =>
    let v := d.get F.BUF_SLOT_STATE_RETIRING i
    setBits (d.rd r i) 32 16 (if v = 0 then 0 else d.verCount i v)
  | .INST_INFLIGHT => d.inflightCur i % 2 ^ 17 + d.inflightPrev i % 2 ^ 17 * 2 ^ 32
  | .INST_SUB_TOKENS => unsigned 32 (d.descTokens i / 1000000) + unsigned 32 (d.byteTokens i / 8000) * 2 ^ 32
  | .ROB_USED => d.robEntries + d.robKeys.length * 2 ^ 32
  | .TOK_POD_LOAD => d.podLoad i % 512 + d.podReport i % 512 * 2 ^ 16
  | .LU_STATUS => b2n (bit (d.get F.FCOL_PART_ISO_LU) i) + d.walksAt i % 4096 * 2
  | .HBM_PC_STATUS => d.pcStatus i
  | .XSPI_STATUS =>
    let x := d.stw.flash
    if d.get F.RST_START_PHASE < 2 then 0 else x.clock.1 + x.clock.2 % 256 * 4 + x.mib % 2 ^ 16 * 2 ^ 10
  | .RST_CHRY_STATUS => setBits (d.rd r i) 0 4 d.chryUp
  | .GRP_STATUS => setBits (d.rd r i) 17 4 (maskOf (members.filter d.inContact))
  | .CLK_PLL_STATUS => d.pllStatus
  | .MGT_SMB_STATUS => setBits (d.rd r i) 0 7 (0x30 + d.get F.RST_STRAPS_GID)
  | _ => d.rd r i

/-- A register of a result window (Table 03-9, R85, R87): WIN_STATUS, the command and argument registers, and the result area;
RESULT_ACK reads 0. -/
def Win.reg (x : Win) (off : Nat) : Nat :=
  if off = 0 then x.seq + x.st * 2 ^ 16
  else if off = 8 then 0
  else if off = 0x10 then x.cmd
  else if 0x100 ≤ off ∧ off < 0x200 then x.arg.get off
  else x.word off

/-- What a read of 64 bits returns. -/
def Dev.lookAt (d : Dev) (t : Target) : Nat :=
  match t with
  | .reg r i => d.look r i
  | .ctr c i => d.cnt c i
  | .closed c i => d.closed.get (c.key i)
  | .win w off => (d.win w).reg off
  | .log slot word => match d.fc.log.get slot.val with
    | some e => leNat (slice e.bytes (8 * word.val) 8)
    | none => 0

/-! ### Half accesses (R75, R76) -/

/-- The island of the block that holds what an access names. -/
def Target.island : Target → Nat
  | .reg r i => r.place.island i
  | .ctr c i | .closed c i => c.place.island i
  | .win w _ => w.island
  | .log _ _ => 25

/-- Its ignored-access header. -/
def Target.header : Target → Nat
  | .reg r i => r.place.header i
  | .ctr c i | .closed c i => c.place.header i
  | .win w _ => w.header
  | .log _ _ => 15 + 31

/-- Its offset within the block. -/
def Target.blockOffset : Target → Nat
  | .reg r i => r.place.blockOffset i
  | .ctr c i => c.place.blockOffset i
  | .closed c i => c.place.blockOffset i + 8
  | .win w off => w.offset + off
  | .log slot word => 0x1000 + 32 * slot.val + 8 * word.val

/-- The key of a half latch: the block (by its header) and the requester (R75). -/
def latchKey (t : Target) (q : Requester) : Nat := t.header * 4096 + q.code

/-- HALF_READ_LOW (R75): bits [31:0] are returned, and bits [63:32] are latched and tagged. -/
def execHalfReadLow (q : Requester) (t : Target) (s : State) : Res := s.on fun d =>
  d.onIsland t.island fun d =>
    let v := d.lookAt t
    let d := d.readReturns q (v % 2 ^ 32)
    { d with rlatch := d.rlatch.set (latchKey t q) (some ⟨t.blockOffset, v / 2 ^ 32⟩) }

/-- HALF_READ_HIGH (R75): the latched half where the tag matches, clearing the tag; otherwise the live half, counted as
an ignored access of cause NONE. -/
def execHalfReadHigh (q : Requester) (t : Target) (s : State) : Res := s.on fun d =>
  d.onIsland t.island fun d =>
    let live := (d.readReturns q (d.lookAt t / 2 ^ 32)).ignoredAt t.header t.blockOffset 0
    match d.rlatch.get (latchKey t q) with
    | some l =>
      if l.tag = t.blockOffset then
        let d := d.readReturns q l.val
        { d with rlatch := d.rlatch.set (latchKey t q) none }
      else live
    | none => live

/-- HALF_WRITE_LOW (R76): held in the write latch, with no effect on the register. -/
def execHalfWriteLow (q : Requester) (t : Target) (v : BitVec 32) (s : State) : Res := s.on fun d =>
  d.onIsland t.island fun d =>
    { d with wlatch := d.wlatch.set (latchKey t q) (some ⟨t.blockOffset, v.toNat⟩) }

end Sys2Proof.Machine
end

