-- ==== Sys2Proof/Machine/MailCmds.lean ====
section
/-!
DEFINITION. The commands of instance mailboxes (19): SEND, CANCEL, the take, and the timeout. `up` names the uplink, whose
sender is the tenant end.
-/
namespace Sys2Proof.Machine

/-- SEND (R431): TX_CTL.SEND is written at the sending end. -/
def execSend (inst : Fin 2052) (up : Bool) (s : State) : Res := s.on fun d =>
  d.onIsland 20 fun d => d.byWrite (Reg.atEnd .MBX_TX_CTL up) inst.val fun d => d.mbxSend inst.val up

/-- CANCEL (R433). -/
def execCancel (inst : Fin 2052) (up : Bool) (s : State) : Res := s.on fun d =>
  d.onIsland 20 fun d => d.byWrite (Reg.atEnd .MBX_TX_CTL up) inst.val fun d => d.mbxCancel inst.val up

/-- RX_TAKE (R432): the read of RX_TAKE at the receiving end. -/
def execRxTake (q : Requester) (inst : Fin 2052) (up : Bool) (s : State) : Res := s.on fun d =>
  d.onIsland 20 fun d => let r := d.mbxTake inst.val up; r.2.emit (.rsp q.code [r.1])

/-- MAILBOX_TIMEOUT (R434): TMO_MS have passed since the SEND of a PENDING message. -/
def execMailboxTimeout (inst : Fin 2052) (up : Bool) (s : State) : Res := s.on fun d =>
  d.onIsland 20 fun d =>
    match d.hst.mbxDue.get (mbxKey inst.val up) with
    | some t => (d.reach t).mbxTimeout inst.val up 1
    | none => d

end Sys2Proof.Machine
end

