-- ==== Sys2Proof/Machine/RegWrite.lean ====
section
/-!
DEFINITION. A software write of a register: who reaches it (R656, R657, Table 17-9, R651), what each register's write sets off, and the
commands REGISTER_WRITE and HALF_WRITE_HIGH.
-/
namespace Sys2Proof.Machine

/-! ### Reach -/

/-- Whose an element is: every function's, a PF's, an instance's (its area, or a resource of its range of a kind), a DMA channel's
owner's, PF0's and the steward's, or the steward's alone. -/
inductive Own where
  | all
  | pf (p : Nat)
  | inst (i : Nat)
  | tenant (i : Nat)
  | ctx (kind n : Nat)
  | chan (c : Nat)
  | top
  | stew
deriving DecidableEq, Repr

/-- The owner of an element of a register. -/
def Reg.own (r : Reg) (i : Nat) : Own :=
  match r with
  | .TABLE_BULK_BASE | .TABLE_BULK_CFG | .TABLE_BULK_PI | .TABLE_BULK_CI | .TABLE_BULK_STATUS | .TABLE_NOTE_BASE
  | .TABLE_NOTE_CFG | .TABLE_NOTE_PI | .TABLE_NOTE_CI | .CRYPTO_NOTE_BASE | .CRYPTO_NOTE_CFG | .CRYPTO_NOTE_PI
  | .CRYPTO_NOTE_CI | .QE_LEDGER_BASE | .QE_LEDGER_SIZE | .QE_LEDGER_ACK | .QE_LEDGER_STATUS | .QE_LEDGER_SEQ
  | .INST_PF_MODE | .INST_EQUAL_NODE => .pf i
  | .INST_PF_ALLOT | .INST_EQUAL_RSV => .pf (i / 16)
  | .EVT_VEC_MOD => .pf (i / 2048)
  | .QE_INST_ARB | .INST_STATE | .INST_SUB_CFG | .INST_INFLIGHT | .INST_SUB_TOKENS | .TM_INST_NODE | .TM_RQ_QUEUE
  | .DMA_INST_CHAN | .MIG_STATE | .MBX_TX_CFG | .MBX_TX_CTL | .MBX_TX_STATUS | .MBX_RX_INFO | .MBX_RX_TAKE => .inst i
  | .INST_RANGE => .inst (i / 16)
  | .MBX_TX_MSG | .MBX_RX_MSG => .inst (i / 8)
  | .QE_QPAGE | .QE_DB_LAST_REJECT | .NVME_CPAGE | .MBX_SHM_BASE | .MBX_SHM_CFG => .tenant i
  | .MBX_T_TX_CFG | .MBX_T_TX_CTL | .MBX_T_TX_STATUS | .MBX_T_RX_INFO | .MBX_T_RX_TAKE => .tenant i
  | .MBX_T_TX_MSG | .MBX_T_RX_MSG => .tenant (i / 8)
  | .EVT_IROUTE | .EVT_VF_VEC_MOD => .tenant (i / 64)
  | .QE_QCTX_CFG | .QE_QCTX_ARB | .QE_QCTX_STATE | .QE_QCTX_CTL | .QE_QCTX_BASE | .QE_QCTX_HWB | .QE_QCTX_PI
  | .QE_QCTX_CI | .QE_QCTX_DONE => .ctx 0 i
  | .QE_CQCTX_BASE | .QE_CQCTX_CFG | .QE_CQCTX_FLAGS | .QE_CQCTX_STATE => .ctx 1 i
  | .QE_EQCTX_BASE | .QE_EQCTX_CFG | .QE_EQCTX_FLAGS | .QE_EQCTX_STATE => .ctx 2 i
  | .NVME_CONN_CFG | .NVME_CONN_RESYNC => .ctx 5 i
  | .DMA_CHAN_CFG | .DMA_CHAN_CTL | .DMA_CHAN_STATE | .DMA_CHAN_STATUS_ADDR => .chan i
  | .POD_PARK_CTL | .FCOL_ACK | .PWR_CTL | .PWR_WAKE_CFG | .TIME_STEP | .TIME_ADJ | .TIME_CTL | .RST_WARM_CTL
  | .EYE_CH_CFG => .top
  | .EVT_ROUTE => if evtIsland i = 24 ∨ evtIsland i = 25 then .stew else .top
  | .FCOL_PART_ISO => .stew
  | .BLK_STATUS => if 64 ≤ i then .tenant ((i - 64) % 4096) else .all
  | _ => .all

/-- The bits of a register that only PF0 and the steward firmware may set (R84, R157). -/
def Reg.topBits (r : Reg) : Nat :=
  match r with | .STATS_EPOCH_CTL => 1 | .POD_SUPERVISOR => 2 ^ 30 | _ => 0

/-- The elements that do not exist: an index beyond the array, and the lanes and link that NET0 lacks. -/
def Reg.has (r : Reg) (i : Nat) : Bool :=
  match r with
  | .NET_EL_CFG | .NET_EL_STATUS => decide (1 ≤ i ∧ i < 4)
  | .NET_LANE_CFG | .NET_LANE_STATUS | .NET_LANE_PRBS | .NET_LANE_MARGIN => decide (i < 48) && hasLane (i / 12) (i % 12)
  | .EVT_ROUTE => decide (0x40 ≤ i ∧ i < 0x570)
  | .BLK_STATUS | .BLK_ID | .BLK_IGNORED | .BLK_LAST_ADDR => true
  | _ => (dimOffset r.place.dims i).isSome

/-- How a write is received: it reaches the element; it is ignored with cause LOCKED, beside a count of VIEW_WRITE of a PF; it is
discarded and counted in VIEW_WRITE only; or the address is reserved to its requester. -/
inductive Reach where
  | ok
  | locked (view : Option Nat)
  | discard (pf : Nat)
  | absent
deriving DecidableEq, Repr

/-- What a PF reaches (R656, Table 17-9). -/
def Dev.pfReach (d : Dev) (p : Nat) (r : Reg) : Own → Reach
  | .all => .ok
  | .pf q => if q = p then .ok else .locked none
  | .inst j => if d.pfOf j = p then .ok else .locked (some p)
  | .tenant j =>
    if j = p then .ok
    else if r.atEnd true = r ∧ r.atEnd false ≠ r then .absent
    else if d.pfOf j = p then .ok else .locked (some p)
  | .ctx k n => match d.rangeOwner k n with
    | some j => if j = p then .ok else if d.pfOf j = p then .discard p else .locked none
    | none => .locked none
  | .chan c => if d.get F.DMA_CHAN_CFG_OWNER_PF c = p then .ok else .locked none
  | .top => if p = 0 then .ok else .locked none
  | .stew => .locked none

/-- What a VF reaches (Table 31-3, R651): its own instance's registers and the resources of its ranges. -/
def Dev.vfReach (d : Dev) (v : Nat) : Own → Reach
  | .tenant j => if j = v then .ok else .absent
  | .ctx k n => if d.ownsRange v k n then .ok else .absent
  | _ => .absent

/-- What a requester reaches. A program's CSR write reaches any instance (Table 05-12), and what PF0 and the steward keep to
themselves is locked to it. -/
def Dev.reach? (d : Dev) (q : Requester) (r : Reg) (i : Nat) : Reach :=
  if !r.has i then .absent
  else match q with
    | .steward => .ok
    | .pod _ => (match r.own i with | .top | .stew => .locked none | _ => .ok)
    | .fn f => if f.val < 4 then d.pfReach f.val r (r.own i) else d.vfReach f.val (r.own i)

/-- The requester may set the bits kept to PF0 and the steward. -/
def Requester.isTop : Requester → Bool
  | .steward => true
  | .fn f => f.val == 0
  | .pod _ => false

/-- The blocks whose registers stay writable while the device is HALTED (R468): FCOL, EVT, the steward mailboxes, and RST.WARM_CTL,
which ends it. -/
def Reg.writableInHalt (r : Reg) : Bool :=
  r.place.blk == 31 || r.place.blk == 10 || r.place.blk == 26 || r == .RST_WARM_CTL

/-! ### What the writes set off -/

/-- A write of CORE_CTL (R143, R147); `own` is the thread whose cycle it is. -/
def Dev.coreWrite (d : Dev) (core v be own : Nat) (hw : List (Nat × Nat)) : Dev :=
  let was := d.get F.POD_CORE_CTL_MODE core
  let d := d.writeFields .POD_CORE_CTL core v be hw
  let d := if was = 0 ∧ d.get F.POD_CORE_CTL_MODE core = 1 then
      { d with cores := d.cores.set core { owner := own % 8, borrow := none } } else d
  d.applyThreadEn core

/-- A write of PARK_CTL (R161). -/
def Dev.parkWrite (d : Dev) (p v be : Nat) (hw : List (Nat × Nat)) : Dev :=
  let was := d.get F.POD_PARK_CTL_PARK_REQ p
  let d := d.writeFields .POD_PARK_CTL p v be hw
  let now := d.get F.POD_PARK_CTL_PARK_REQ p
  if was = now then d else if now = 1 then d.parkRequest p else d.parkRelease p

/-- A write of PORT_CFG (Table 09-4): ENABLE, or LANE_MODE in mode PER_LANE, begins the port anew; RESTORE. -/
def Dev.portCfgWrite (d : Dev) (p v be : Nat) (hw : List (Nat × Nat)) : Dev :=
  let en := d.get F.NET_PORT_CFG_ENABLE p
  let lm := d.get F.NET_PORT_CFG_LANE_MODE p
  let rs := d.get F.NET_PORT_CFG_RESTORE p
  let d := d.writeFields .NET_PORT_CFG p v be hw
  let en' := d.get F.NET_PORT_CFG_ENABLE p
  let d := if en ≠ en' ∨ (en' = 1 ∧ lm ≠ d.get F.NET_PORT_CFG_LANE_MODE p ∧ d.get F.NET_GROUP_CFG_MODE (p / 8) = 6) then d.portBegin p
    else d
  if rs = 0 ∧ d.flag F.NET_PORT_CFG_RESTORE p then d.restorePort p else d

/-- A write of HOST.PORT_CFG: a change of LTR_US sends an LTR message (R326). -/
def Dev.hostCfgWrite (d : Dev) (h v be : Nat) (hw : List (Nat × Nat)) : Dev :=
  let was := d.get F.HOST_PORT_CFG_LTR_US h
  let d := d.writeFields .HOST_PORT_CFG h v be hw
  let us := d.get F.HOST_PORT_CFG_LTR_US h
  if was ≠ us ∧ (d.pfsOn h).any (fun p => (d.fn p).ltr) then d.emit (.pcie h 1 [us]) else d

/-- A write of CHAN_CFG (R375, R376): ENABLE cleared on a channel that an instance names is ignored; ENABLE set makes the channel
IDLE. -/
def Dev.chanCfgWrite (d : Dev) (c v be : Nat) (hw : List (Nat × Nat)) : Dev :=
  let was := d.flag F.DMA_CHAN_CFG_ENABLE c
  let named := d.hst.live.any fun i => d.chanOf i == c
  let keep := was && named && bit be 0 && !bit v 0 && !d.regLocked .DMA_CHAN_CFG c
  let d := d.writeWith .DMA_CHAN_CFG c (if keep then setBits v 0 1 1 else v) be hw false keep
  let on := d.flag F.DMA_CHAN_CFG_ENABLE c
  if !was && on then d.put F.DMA_CHAN_STATE_STATE c 1
  else if was && !on then d.put F.DMA_CHAN_STATE_STATE c 0
  else d

/-- A write of CHAN_CTL (R386, R388, R389). -/
def Dev.chanCtlWrite (d : Dev) (c v be : Nat) : Dev :=
  if !bit be 0 then d
  else
    let d := if bit v 0 then d.flushSet c else d
    let d := if bit v 1 then d.abortSet c else d
    if bit v 2 then d.resumeSet c else d

/-- A write of TM.INST_NODE (R277): a NODE that its LEVEL does not have is refused. -/
def Dev.instNodeWrite (d : Dev) (i v be : Nat) (hw : List (Nat × Nat)) : Dev :=
  let x := d.writeFields .TM_INST_NODE i v be hw
  if !x.flag F.TM_INST_NODE_LEVEL i && decide (4096 ≤ x.get F.TM_INST_NODE_NODE i) then d.ignored .TM_INST_NODE i cBAD_ENUM else x

/-- A write of WRED_PROF (R279): one that sets ENABLE with MIN_KB not below MAX_KB leaves ENABLE. -/
def Dev.wredWrite (d : Dev) (k v be : Nat) (hw : List (Nat × Nat)) : Dev :=
  let x := d.writeFields .TM_WRED_PROF k v be hw
  if bit be 5 && bit v 44 && decide (x.get F.TM_WRED_PROF_MAX_KB k ≤ x.get F.TM_WRED_PROF_MIN_KB k) then
    d.writeWith .TM_WRED_PROF k (setBits v 44 1 (d.get F.TM_WRED_PROF_ENABLE k)) be hw true false
  else x

/-- The register that configures node `n` of a level, and the nodes of the level above (Table 11-3). -/
def nodeReg (lv : Nat) : Reg × Nat := match lv with
  | 2 => (.TM_NODE2, 40) | 3 => (.TM_NODE3, 512) | 4 => (.TM_NODE4, 4096) | _ => (.TM_Q_CFG, 16384)

/-- The root of node `n` of level 4. -/
def Dev.rootOf4 (d : Dev) (n : Nat) : Nat := d.parentOf 2 (d.parentOf 3 (d.parentOf 4 n))

/-- A queue is the host-delivery queue of an instance that is not VACANT (R277). -/
def Dev.rqOf (d : Dev) (q : Nat) : Option Nat :=
  d.hst.live.find? fun i => decide (2 ≤ d.get F.INST_STATE_STATE i) && d.rd .TM_RQ_QUEUE i == q

/-- A PARENT that a node may take (R273, R277). -/
def Dev.parentOk (d : Dev) (lv n p : Nat) : Bool :=
  decide (p < (nodeReg lv).2) && (lv != 5 || match d.rqOf n with
    | some i => d.rootOf4 p == 32 + d.hostPortOf i
    | none => true)

/-- A write of Q_CFG or NODE_CFG (R273, R276, R277): a queue that changes PARENT starts there with deficit 0. -/
def Dev.nodeWrite (d : Dev) (lv n v be : Nat) (hw : List (Nat × Nat)) : Dev :=
  let r := (nodeReg lv).1
  let was := d.enabledOf lv n
  let old := d.parentOf lv n
  let m := beMask be
  let p := bits (Nat.land v m + Nat.land (d.rd r n) (2 ^ 64 - 1 - m)) 0 14
  let bad := p != old && !d.parentOk lv n p
  let d := d.writeWith r n (if bad then setBits v 0 14 old else v) be hw bad false
  let d : Dev := if d.parentOf lv n = old then d else { d with buf := { d.buf with deficit := d.buf.deficit.set (nodeKey lv n) 0 } }
  if !was && d.enabledOf lv n then d.enableNode lv n else d

/-- A write of SHAPE (R276): the tokens gained so far stand, clamped to the new burst. -/
def Dev.shapeWrite (d : Dev) (lv n : Nat) (r : Reg) (v be : Nat) (hw : List (Nat × Nat)) : Dev :=
  let now := d.bucketNow lv n
  let d := d.writeFields r n v be hw
  d.setBucket lv n (min now (d.burstOf lv n))

/-- A write of SUB_CFG (R412). -/
def Dev.subWrite (d : Dev) (i v be : Nat) (hw : List (Nat × Nat)) : Dev :=
  let a := d.descTokens i
  let b := d.byteTokens i
  let d := d.writeFields .INST_SUB_CFG i v be hw
  d.setBuckets i (min a (d.descCap i)) (min b (d.byteCap i))

/-- A write of EPOCH_CTL (R80, R81): SWITCH makes a request. -/
def Dev.epochCtlWrite (d : Dev) (v be : Nat) (hw : List (Nat × Nat)) : Dev :=
  let d := d.writeFields .STATS_EPOCH_CTL 0 (setBits v 0 1 0) be hw
  if bit v 0 && bit be 0 then d.epochRequest else d

/-- A write of EPOCH_PERIOD (R80). -/
def Dev.periodWrite (d : Dev) (v be : Nat) (hw : List (Nat × Nat)) : Dev :=
  let d := d.writeFields .STATS_EPOCH_PERIOD 0 v be hw
  if be % 16 = 0 ∨ d.rd .STATS_EPOCH_PERIOD 0 ≠ v % 2 ^ 32 ∨ v % 2 ^ 32 = 0 then d
  else { d with epoch := { d.epoch with tlast := max d.epoch.tlast d.mono } }

/-- A write of T1_CFG (R165). -/
def Dev.t1Write (d : Dev) (v be : Nat) (hw : List (Nat × Nat)) : Dev :=
  let was := d.rd .TABLE_T1_CFG 0 % 16
  let d := d.writeFields .TABLE_T1_CFG 0 v be hw
  let step := d.rd .TABLE_T1_CFG 0 % 16
  if step = was then d
  else
    let d := d.put F.TABLE_T1_CFG_CACHE_MIB 0 (48 - 4 * step)
    { d with tbl := { d.tbl with cache := {} } }

/-- A write of GRP.CFG (R477, R494, R497): an enabled member listens, and its rendezvous begins. -/
def Dev.grpCfgWrite (d : Dev) (v be : Nat) (hw : List (Nat × Nat)) : Dev :=
  let was := d.flag F.GRP_CFG_ENABLE
  let d := d.writeFields .GRP_CFG 0 v be hw
  let on := d.flag F.GRP_CFG_ENABLE
  if !was && on then
    let d := d.grpSet 1 0 (d.get F.GRP_STATUS_CURRENT)
    { d with gbl := { base := d.mono, rend := some d.mono } }
  else if was && !on then d.grpSet 0 0 0
  else d

/-- A write of QCTX_CTL (R349, R350, R357). -/
def Dev.qctlWrite (d : Dev) (q v be : Nat) (hw : List (Nat × Nat)) : Dev :=
  let was := d.flag F.QE_QCTX_CTL_ENABLE q
  let d := d.writeFields .QE_QCTX_CTL q (setBits (setBits v 0 1 (b2n was)) 1 1 0) be hw
  let d := if !bit be 0 then d
    else if bit v 0 && !was then d.enableQueue q
    else if !bit v 0 && was then d.disableQueue q
    else d
  if bit be 0 && bit v 1 then d.resumeQueue q (d.get F.QE_QCTX_CTL_RESUME_INDEX q) else d

/-- A write of CQCTX_CFG or EQCTX_CFG (R367): the fields, then ENABLE. -/
def Dev.cqCfgWrite (d : Dev) (c v be : Nat) (hw : List (Nat × Nat)) : Dev :=
  let was := d.get F.QE_CQCTX_CFG_ENABLE c
  let d := d.writeFields .QE_CQCTX_CFG c (setBits v 5 1 was) be hw
  if bit be 0 && b2n (bit v 5) != was then d.setCq c (bit v 5) else d

def Dev.eqCfgWrite (d : Dev) (e v be : Nat) (hw : List (Nat × Nat)) : Dev :=
  let was := d.get F.QE_EQCTX_CFG_ENABLE e
  let d := d.writeFields .QE_EQCTX_CFG e (setBits v 5 1 was) be hw
  if bit be 0 && b2n (bit v 5) != was then d.setEq e (bit v 5) else d

/-- A write of TX_CTL (Table 19-2): where both bits are written, SEND is what remains to do after the withdrawal. -/
def Dev.txCtlWrite (d : Dev) (i : Nat) (up : Bool) (v be : Nat) : Dev :=
  if !bit be 0 then d
  else
    let d := if bit v 1 then d.mbxCancel i up else d
    if bit v 0 then d.mbxSend i up else d

/-- A write of EVT.ROUTE (R449): one that names an EQ that is not the PF's instance's, or a PF that does not exist, leaves the
entry. -/
def Dev.routeWrite (d : Dev) (id v be : Nat) (hw : List (Nat × Nat)) : Dev :=
  let x := d.writeFields .EVT_ROUTE id v be hw
  let pf := x.get F.EVT_ROUTE_PF id
  let touched := bit be 0 || bit be 1 || bit be 2 || bit be 3
  let named := x.flag F.EVT_ROUTE_EN_EQ id || x.get F.EVT_ROUTE_EQ id != d.get F.EVT_ROUTE_EQ id
  if touched && (!d.pfExists pf || (named && !d.ownsRange pf 2 (x.get F.EVT_ROUTE_EQ id))) then d.ignored .EVT_ROUTE id cBAD_ENUM
  else x

/-- A write of EVT.IROUTE (R450): the same for the instance; a VF has 64 vectors. -/
def Dev.irouteWrite (d : Dev) (k v be : Nat) (hw : List (Nat × Nat)) : Dev :=
  let i := k / 64
  let x := d.writeFields .EVT_IROUTE k v be hw
  let named := x.flag F.EVT_IROUTE_EN_EQ k || x.get F.EVT_IROUTE_EQ k != d.get F.EVT_IROUTE_EQ k
  if (decide (4 ≤ i) && decide (64 ≤ x.get F.EVT_IROUTE_VECTOR k)) || (named && !d.ownsRange i 2 (x.get F.EVT_IROUTE_EQ k)) then
    d.ignored .EVT_IROUTE k cBAD_ENUM
  else x

/-- A write of MOD_FLAGS (R515): FLAGS_SET follows. -/
def Dev.modFlagsWrite (d : Dev) (m v be : Nat) (hw : List (Nat × Nat)) : Dev :=
  let d := d.writeFields .MGT_MOD_FLAGS m v be hw
  d.modShow m (d.get F.MGT_MOD_STATUS_PRESENT m) (d.get F.MGT_MOD_STATUS_STATE m)

/-- A write of EYE.CH_CFG (R601): GAIN 1 is refused on channels 0 to 15. -/
def Dev.chCfgWrite (d : Dev) (c v be : Nat) (hw : List (Nat × Nat)) : Dev :=
  let bad := decide (c < 16) && bit be 0 && bit v 0
  d.writeWith .EYE_CH_CFG c (if bad then setBits v 0 1 0 else v) be hw bad false

/-- A clear of PART_ISO by the firmware ends the isolation of each pod named (R475). -/
def Dev.isoWrite (d : Dev) (v be : Nat) : Dev :=
  let m := Nat.land (Nat.land v (beMask be)) (d.get F.FCOL_PART_ISO_POD)
  (List.range 16).foldl (fun d p => if bit m p then d.clearIso p else d) d

/-- A write that reaches an element: the fields take their values and the write's effects follow. `hw` holds the hardware updates of
the same cycle (R69). -/
def Dev.regSet (d : Dev) (q : Requester) (r : Reg) (i v be : Nat) (hw : List (Nat × Nat)) : Dev :=
  match r with
  | .POD_CORE_CTL => d.coreWrite i v be (Config.cycleThread i d.mono) hw
  | .POD_SUPERVISOR => d.supervisorWrite i v be
  | .POD_PARK_CTL => d.parkWrite i v be hw
  | .NET_GROUP_CFG => d.groupCfgWrite i v be
  | .NET_PORT_CFG => d.portCfgWrite i v be hw
  | .NET_LANE_CFG => d.laneCfgWrite (i / 12) (i % 12) v be
  | .NET_LANE_PRBS => d.prbsWrite (i / 12) (i % 12) v be
  | .NET_EL_CFG => d.elCfgWrite (i - 1) v be
  | .HOST_PORT_CFG => d.hostCfgWrite i v be hw
  | .DMA_CHAN_CFG => d.chanCfgWrite i v be hw
  | .DMA_CHAN_CTL => d.chanCtlWrite i v be
  | .DMA_INST_CHAN => if bit be 0 then d.instChanWrite i (v % 64) else d
  | .TM_INST_NODE => d.instNodeWrite i v be hw
  | .TM_WRED_PROF => d.wredWrite i v be hw
  | .TM_NODE2 => d.nodeWrite 2 i v be hw
  | .TM_NODE3 => d.nodeWrite 3 i v be hw
  | .TM_NODE4 => d.nodeWrite 4 i v be hw
  | .TM_Q_CFG => d.nodeWrite 5 i v be hw
  | .TM_SHAPE1 => d.shapeWrite 1 i r v be hw
  | .TM_SHAPE2 => d.shapeWrite 2 i r v be hw
  | .TM_SHAPE3 => d.shapeWrite 3 i r v be hw
  | .TM_SHAPE4 => d.shapeWrite 4 i r v be hw
  | .TM_SHAPE5 => d.shapeWrite 5 i r v be hw
  | .STATS_EPOCH_CTL => d.epochCtlWrite v be hw
  | .STATS_EPOCH_PERIOD => d.periodWrite v be hw
  | .TABLE_T1_CFG => d.t1Write v be hw
  | .EYE_CH_CFG => d.chCfgWrite i v be hw
  | .MGT_MOD_FLAGS => d.modFlagsWrite i v be hw
  | .FCOL_ACK => if be % 4 = 3 then d.ackFault (v % 2 ^ 16) else d
  | .FCOL_PART_ISO => d.isoWrite v be
  | .GRP_CFG => d.grpCfgWrite v be hw
  | .PWR_CTL => if bit v 0 && bit be 0 then d.cocoonReq else d
  | .TIME_STEP => if v % 2 ^ 64 = 0 ∨ be ≠ 255 then d else (d.reach (d.mono + 2000)).dtbStep (v % 2 ^ 64)
  | .TIME_ADJ => d.adjWrite v be
  | .TIME_CTL => d.timeCtlWrite v be hw
  | .RST_WARM_CTL => d.warmWrite v be (if q = .steward then 3 else 2)
  | .QE_LEDGER_ACK => if be % 16 = 15 then d.ledgerAck i (v % 2 ^ 32) else d
  | .INST_SUB_CFG => d.subWrite i v be hw
  | .QE_QCTX_CTL => d.qctlWrite i v be hw
  | .QE_CQCTX_CFG => d.cqCfgWrite i v be hw
  | .QE_EQCTX_CFG => d.eqCfgWrite i v be hw
  | .MBX_TX_CTL => d.txCtlWrite i false v be
  | .MBX_T_TX_CTL => d.txCtlWrite i true v be
  | .EVT_ROUTE => d.routeWrite i v be hw
  | .EVT_IROUTE => d.irouteWrite i v be hw
  | .NVME_CONN_CFG => d.connCfgWrite i v be
  | .NVME_CONN_RESYNC => d.resyncWrite i v be
  | _ => d.writeFields r i v be hw

/-- A write of a register by a requester (R64 to R72, R656, R657). -/
def Dev.regWrite (d : Dev) (q : Requester) (r : Reg) (i v be : Nat) (hw : List (Nat × Nat)) : Dev :=
  d.onIsland (r.place.island i) fun d =>
    if d.halted && !r.writableInHalt then d.ignored r i cLOCKED
    else match d.reach? q r i with
      | .absent => match q with | .fn f => d.count .HOST_BAD_ACCESS (d.hostPortOf f.val) | _ => d
      | .discard p => d.count .INST_VIEW_WRITE p
      | .locked view => (match view with | some p => d.count .INST_VIEW_WRITE p | none => d).ignored r i cLOCKED
      | .ok =>
        let kept := Nat.land (Nat.land v (beMask be)) r.topBits
        if kept ≠ 0 ∧ ¬ q.isTop then (d.regSet q r i (v - kept) be hw).ignored r i cLOCKED else d.regSet q r i v be hw

/-! ### Counters -/

/-- The instance of an element of a per-instance counter, and its context. -/
def Ctr.own (c : Ctr) (i : Nat) : Own :=
  match c with
  | .QE_CQ_FULL_CNT => .ctx 1 i
  | .QE_EQ_DROP => .ctx 2 i
  | .QE_DB_REJECT | .QE_Q_ERROR_CNT => .tenant i
  | _ => match c.place.dims with
    | (2052, _) :: rest => .tenant (i / rest.foldl (fun a x => a * x.1) 1)
    | [(4, _)] => if c.place.isl = 20 ∧ c.place.blk ≠ 5 ∧ c.place.blk ≠ 7 ∨ c = .TABLE_NOTE_DROP ∨ c = .CRYPTO_NOTE_DROP then .pf i else .all
    | _ => .all

/-- The counters of queues and dispositions, which a manager driver reads and does not change (Table 17-9). -/
def Ctr.queueCtr : Ctr → Bool
  | .QE_DB_REJECT | .QE_Q_ERROR_CNT | .QE_CQ_FULL_CNT | .QE_EQ_DROP => true
  | _ => false

/-- How a write of a counter is received. -/
def Dev.ctrReach (d : Dev) (q : Requester) (c : Ctr) (i : Nat) : Reach :=
  if (dimOffset c.place.dims i).isNone then .absent
  else match q with
    | .steward | .pod _ => .ok
    | .fn f =>
      if f.val < 4 then
        (match c.own i with
          | .tenant j => if j = f.val then .ok else if d.pfOf j ≠ f.val then .locked (some f.val)
            else if c.queueCtr then .discard f.val else .ok
          | o => d.pfReach f.val .BLK_ID o)
      else d.vfReach f.val (c.own i)

/-- A write of a counter (R77, R78, Table 03-2): the value written plus the increment of the same cycle. A banked counter and a gauge
are read-only; a saturated counter's event is armed again by a write that leaves it below its maximum. -/
def Dev.ctrWrite (d : Dev) (q : Requester) (c : Ctr) (i v be inc : Nat) : Dev :=
  d.onIsland (c.place.island i) fun d =>
    let h := c.place.header i
    let off := c.place.blockOffset i
    if d.halted && !(c.place.blk == 31 || c.place.blk == 10 || c.place.blk == 26) then d.ignoredAt h off cLOCKED
    else match d.ctrReach q c i with
      | .absent => match q with | .fn f => d.count .HOST_BAD_ACCESS (d.hostPortOf f.val) | _ => d
      | .discard p => d.count .INST_VIEW_WRITE p
      | .locked view => (match view with | some p => d.count .INST_VIEW_WRITE p | none => d).ignoredAt h off cLOCKED
      | .ok =>
        let d := if c.banked || c.cls == .gauge then d
          else
            let m := beMask be
            let w := Nat.land v m + Nat.land (d.cnt c i) (2 ^ 64 - 1 - m)
            d.setCnt c i (match c.cls with | .sat16 => w % 2 ^ 16 | .sat32 => w % 2 ^ 32 | _ => w % 2 ^ 64)
        if inc = 0 then d else d.count c i inc

/-! ### Result windows (R85 to R88, R190) -/

/-- The bits of a window's command register that hold fields, but for GO. -/
def WinId.cmdMask : WinId → Nat
  | .taw _ => 2 ^ 52 - 1 - 15 * 2 ^ 20
  | .cw _ | .tw => 2 ^ 45 - 1
  | .iw _ | .stm _ | .pw => 2 ^ 22 - 1
  | .mw _ => 2 ^ 27 - 1
  | .gw => 2 ^ 8 - 1
  | .sw => 2 ^ 14 - 1
  | .eye _ => 2 ^ 26 - 1

/-- An OPCODE of a window is assigned; EYE.SW and NET.EYE have none. -/
def WinId.hasOpcode (w : WinId) (o : Nat) : Bool :=
  let upTo (n : Nat) : Bool := o != 0 && decide (o ≤ n)
  match w with
  | .taw _ => upTo 12
  | .cw _ => upTo 6
  | .iw _ => upTo 4
  | .mw _ => upTo 7
  | .gw | .pw => upTo 3
  | .tw => upTo 2
  | .stm _ => upTo 0x0A || (decide (0x10 ≤ o) && decide (o ≤ 0x16))
  | .sw | .eye _ => true

/-- The bytes of a window's argument area, from 0x100. -/
def WinId.argBytes : WinId → Nat
  | .taw _ => 240
  | .cw _ | .iw _ | .tw => 128
  | .mw _ => 64
  | .gw => 12
  | .pw => 96
  | .stm _ => 256
  | .sw | .eye _ => 0

/-- Who reaches a window (R189, R291, R399, R417, R440, R489, R519, R564, R605); NET.EYE as the NET block. -/
def Dev.reachWin (d : Dev) (q : Requester) (w : WinId) : Bool :=
  let own (p : Nat) : Bool := match q with | .fn f => f.val == p | _ => false
  match w with
  | .taw k | .cw k => if k.val = 4 then q == .steward else own k.val
  | .iw p | .mw p => own p.val
  | .gw | .sw | .pw => own 0 || q == .steward
  | .tw => own 0
  | .eye n => match d.reach? q .NET_GROUP_CFG n.val with | .ok => true | _ => false
  | .stm m => if m.val < 8 then own (m.val / 2) else if m.val < 12 then own (m.val - 8) else false

/-- The command register takes a write: GO reads 0 and reserved bits keep 0; a reserved OPCODE leaves OPCODE as it was, and is counted,
but in the steward windows (R8, R190, R440). -/
def Dev.winCmd (d : Dev) (w : WinId) (v : Nat) : Dev :=
  let x := d.win w
  let f := Nat.land v w.cmdMask
  let any := match w with | .stm _ | .sw | .eye _ => true | _ => false
  if any || f % 256 == 0 || w.hasOpcode (f % 256) then d.setWin w { x with cmd := f }
  else (d.setWin w { x with cmd := f - f % 256 + x.cmd % 256 }).winIgnored w 0x10 cBAD_ENUM

/-- A write of a register of a window. WIN_STATUS and the result area take none. A submission of an assigned command is that command's
row; one that is reserved is ignored, and in a steward window completes BAD_OPCODE. -/
def Dev.winWrite (d : Dev) (q : Requester) (w : WinId) (off v be : Nat) : Dev :=
  d.onIsland w.island fun d =>
    let x := d.win w
    let merged (old : Nat) : Nat := Nat.land v (beMask be) + Nat.land old (2 ^ 64 - 1 - beMask be)
    if !d.reachWin q w then
      match q with | .fn f => d.count .HOST_BAD_ACCESS (d.hostPortOf f.val) | _ => d
    else if d.halted && !w.survives then d.winIgnored w off cLOCKED
    else if off = 8 then
      if be % 4 ≠ 3 then d
      else if x.st = 2 ∧ x.seq = v % 2 ^ 16 then d.setWin w { x with st := 0 } else d.winIgnored w 8 cACK_MISMATCH
    else if off = 0x10 then
      let n := merged x.cmd
      let go := bit (Nat.land v (beMask be)) 63
      let o := n % 256
      if !go then d.winCmd w n
      else if w.hasOpcode o then (if x.st = 0 then d else (d.winCmd w n).winIgnored w 0x10 cWINDOW_HELD)
      else match w with
        | .stm _ => if x.st = 0 then (d.winCmd w n).winDone w [(0x200, 1)] else (d.winCmd w n).winIgnored w 0x10 cWINDOW_HELD
        | _ => (d.setWin w { x with cmd := Nat.land n w.cmdMask - o + x.cmd % 256 }).winIgnored w 0x10 cBAD_ENUM
    else if 0x100 ≤ off ∧ off < 0x100 + w.argBytes ∧ off % 8 = 0 then d.setWin w { x with arg := x.arg.set off (merged (x.arg.get off)) }
    else d

/-- A write of what a register access names. -/
def Dev.write (d : Dev) (q : Requester) (t : Target) (v be : Nat) (hw : List (Nat × Nat)) : Dev :=
  match t with
  | .reg r i => d.regWrite q r i v be hw
  | .ctr c i => d.ctrWrite q c i v be ((hw.map (·.2)).foldl (· + ·) 0)
  | .closed _ _ | .log _ _ => d
  | .win w off => d.winWrite q w off v be

/-- REGISTER_WRITE (R64 to R72): a write with byte enables, and the hardware updates that reach the register in the same cycle (lowest
bit of the field, value). -/
def execRegisterWrite (q : Requester) (t : Target) (v : BitVec 64) (be : BitVec 8) (hw : List (Nat × Nat)) (s : State) : Res :=
  s.on fun d => d.write q t v.toNat be.toNat hw

/-- HALF_WRITE_HIGH (R76): with the held low half where the write latch's tag matches, clearing the tag; otherwise the high half
alone. -/
def execHalfWriteHigh (q : Requester) (t : Target) (v : BitVec 32) (s : State) : Res := s.on fun d =>
  d.onIsland t.island fun d =>
    let hi := v.toNat * 2 ^ 32
    match d.wlatch.get (latchKey t q) with
    | some l =>
      if l.tag = t.blockOffset then
        let d : Dev := { d with wlatch := d.wlatch.set (latchKey t q) none }
        d.write q t (hi + l.val) 0xFF []
      else d.write q t hi 0xF0 []
    | none => d.write q t hi 0xF0 []

end Sys2Proof.Machine
end

