-- ==== Sys2Proof/Machine/Csr.lean ====
section
/-!
DEFINITION. CSR addresses of programs (Table 05-12, R646, R650 to R652): what an address names, and its read and write.
-/
namespace Sys2Proof.Machine

/-- What a block offset of a CSR address names: element `i` of a register or counter and the byte within it, or a value of the
instance's own view; `gap` is reserved. -/
inductive CsrHit where
  | reg (r : Reg) (i rem : Nat)
  | ctr (c : Ctr) (i rem : Nat)
  | val (v rem : Nat)
  | gap
deriving DecidableEq, Repr

/-- The element over dimensions `ds` at an offset, and the bytes beyond its start. -/
def unOffset : List (Nat × Nat) → Nat → Option (Nat × Nat)
  | [], o => some (0, o)
  | (n, s) :: t, o =>
    if o / s < n then (unOffset t (o % s)).map fun x => (o / s * t.foldl (fun a y => a * y.1) 1 + x.1, x.2) else none

/-- A block whose registers stand per instance (R650). -/
def perInstance (blk : Nat) : Bool := blk == 6 || blk == 8 || blk == 9 || blk == 10 || blk == 11

/-- The element of a place that a CSR address reaches: `pod` issues it; `glob` takes the offset as one of the block's global part. A
per-instance block is reached at an instance-layout offset, MBX at its manager end. -/
def Place.csr (p : Place) (pod blk inst off : Nat) (glob : Bool) : Option (Nat × Nat) :=
  let at_ (ds : List (Nat × Nat)) (base copy : Nat) : Option (Nat × Nat) :=
    if off < base then none
    else (unOffset ds (off - base)).map fun x => (copy * ds.foldl (fun a y => a * y.1) 1 + x.1, x.2)
  if p.blk ≠ (if 1 ≤ blk ∧ blk ≤ 4 then 1 else blk) then none
  else if glob then at_ p.dims p.off 0
  else if blk = 0 then at_ (p.dims.drop 1) p.off pod
  else if blk ≤ 4 then at_ (p.dims.drop 1) p.off (blk - 1)
  else if perInstance blk then
    match p.dims with
    | (2052, st) :: rest =>
      if (st = 512 ∨ st = 1024) ∧ ¬ (blk = 9 ∧ 0x201000 ≤ p.off) then at_ rest (p.off % st) inst else none
    | _ => none
  else at_ p.dims p.off 0

/-- The bytes of one element of a counter (R648): its slot, both banks. -/
def Ctr.bytes (c : Ctr) : Nat := if c.banked then 16 else match c.cls with | .sat16 | .sat32 => 4 | _ => 8

/-- The register or counter at an offset. -/
def csrFind (pod blk inst off : Nat) (glob : Bool) : CsrHit :=
  let rs := Reg.all.filter fun r => r != .BLK_ID && r != .BLK_STATUS && r != .BLK_IGNORED && r != .BLK_LAST_ADDR
  match rs.findSome? fun r => match r.place.csr pod blk inst off glob with
      | some (i, rem) => if rem < r.width / 8 then some (CsrHit.reg r i rem) else none
      | none => none with
  | some h => h
  | none =>
    match Ctr.all.findSome? fun c => match c.place.csr pod blk inst off glob with
        | some (i, rem) => if rem < c.bytes then some (CsrHit.ctr c i rem) else none
        | none => none with
    | some h => h
    | none => .gap

/-- The header that a CSR address reaches (R73). -/
def csrHeader (pod blk inst : Nat) : Nat :=
  if blk = 0 then pod else if perInstance blk then 64 + 4096 * blk + inst else 15 + blk

/-- A paged area (R651): entry `j` of an area of `n` entries shows resource `page` × n + j of the instance's range. -/
def Dev.paged (d : Dev) (blk inst kind page n base stride j sub : Nat) : CsrHit :=
  let k := page * n + j
  if d.rangeCount inst kind ≤ k then .gap else csrFind 0 blk inst (base + stride * (d.rangeBase inst kind + k) + sub) true

/-- What a CSR address names. -/
def Dev.csrAt (d : Dev) (pod blk inst off : Nat) : CsrHit :=
  if off < 0x20 then
    let h := csrHeader pod blk inst
    if off < 4 then .reg .BLK_ID h off
    else if off < 8 then .gap
    else if off < 0x10 then (if off < 0xC then .reg .BLK_STATUS h (off - 8) else .gap)
    else if off < 0x14 then .reg .BLK_IGNORED h (off - 0x10)
    else if 0x18 ≤ off ∧ off < 0x1C then .reg .BLK_LAST_ADDR h (off - 0x18)
    else .gap
  else if perInstance blk ∧ 2052 ≤ inst then .gap
  else if blk = 6 ∧ 0x1000 ≤ off ∧ off < 0x9000 then
    d.paged 6 inst 0 (d.get F.QE_QPAGE_SQRQ inst) 512 0x100000 64 ((off - 0x1000) / 64) (off % 64)
  else if blk = 6 ∧ 0x9000 ≤ off ∧ off < 0xB000 then
    d.paged 6 inst 1 (d.get F.QE_QPAGE_CQ inst) 256 0x500000 32 ((off - 0x9000) / 32) (off % 32)
  else if blk = 6 ∧ 0xB000 ≤ off ∧ off < 0xB800 then
    d.paged 6 inst 2 (d.get F.QE_QPAGE_EQ inst) 64 0x600000 32 ((off - 0xB000) / 32) (off % 32)
  else if blk = 11 ∧ 0x2000 ≤ off ∧ off < 0x4000 then
    d.paged 11 inst 5 (d.get F.NVME_CPAGE_CONN inst) 512 0x100000 16 ((off - 0x2000) / 16) (off % 16)
  else if blk = 8 ∧ 0x40 ≤ off ∧ off < 0x44 then
    .val (inst + d.gen inst % 2 ^ 12 * 2 ^ 12 + d.get F.INST_STATE_STATE inst * 2 ^ 24) (off - 0x40)
  else if blk = 8 ∧ 0x80 ≤ off ∧ off < 0x100 then .val (d.rd .INST_RANGE (inst * 16 + (off - 0x80) / 8)) (off % 8)
  else csrFind pod blk inst off false

/-! ### Reads -/

/-- Four bytes at a CSR address, and the effects of reading them (R65, R432): `sup` says that the supervisor of the pod reads. -/
def Dev.csrWord (d : Dev) (pod blk inst off : Nat) (sup : Bool) : Nat × Dev :=
  match d.csrAt pod blk inst off with
  | .reg .POD_SUPV_EVT i _ => if sup then (d.rd .POD_SUPV_EVT i, d.wr .POD_SUPV_EVT i 0) else (0, d)
  | .reg .MBX_RX_TAKE i _ => d.mbxTake i true
  | .reg r i rem => (d.look r i / 256 ^ rem % 2 ^ 32, d)
  | .ctr c i rem => ((if rem < 8 then d.cnt c i else d.closed.get (c.key i)) / 256 ^ (rem % 8) % 2 ^ 32, d)
  | .val v rem => (v / 256 ^ rem % 2 ^ 32, d)
  | .gap => (0, d)

/-- The requester of a pod's CSR port. -/
def podReq (pod : Nat) : Requester := .pod (Fin.ofNat 16 pod)

/-- A CSR read: 64 bits at once, or 32 bits, a half of a 64-bit register going through the read latch of the port (R74, R75). -/
def Dev.csrRead (d : Dev) (pod blk inst off : Nat) (is64 sup : Bool) : Nat × Dev :=
  if is64 then
    let a := d.csrWord pod blk inst off sup
    let b := a.2.csrWord pod blk inst (off + 4) sup
    (a.1 + b.1 * 2 ^ 32, b.2)
  else match d.csrAt pod blk inst off with
    | .reg r i rem =>
      if r.width ≠ 64 then d.csrWord pod blk inst off sup
      else
        let key := latchKey (.reg r i) (podReq pod)
        let v := d.look r i
        if rem = 0 then
          (v % 2 ^ 32, { d with rlatch := d.rlatch.set key (some ⟨r.place.blockOffset i, v / 2 ^ 32⟩) })
        else match d.rlatch.get key with
          | some l =>
            if l.tag = r.place.blockOffset i then (l.val, { d with rlatch := d.rlatch.set key none })
            else (v / 2 ^ 32, d.ignored r i 0)
          | none => (v / 2 ^ 32, d.ignored r i 0)
    | _ => d.csrWord pod blk inst off sup

/-! ### Writes -/

/-- A write of 32 bits, a half of a 64-bit register going through the write latch of the port (R76). -/
def Dev.csrWrite32 (d : Dev) (pod blk inst off v : Nat) : Dev :=
  let q := podReq pod
  match d.csrAt pod blk inst off with
  | .reg r i rem =>
    if r.width ≠ 64 then d.regWrite q r i v 0xF []
    else
      let key := latchKey (.reg r i) q
      if rem = 0 then { d with wlatch := d.wlatch.set key (some ⟨r.place.blockOffset i, v⟩) }
      else match d.wlatch.get key with
        | some l =>
          if l.tag = r.place.blockOffset i then
            ({ d with wlatch := d.wlatch.set key none } : Dev).regWrite q r i (v * 2 ^ 32 + l.val) 0xFF []
          else d.regWrite q r i (v * 2 ^ 32) 0xF0 []
        | none => d.regWrite q r i (v * 2 ^ 32) 0xF0 []
  | .ctr c i rem => if rem = 4 then d.ctrWrite q c i (v * 2 ^ 32) 0xF0 0 else d.ctrWrite q c i v 0xF 0
  | _ => d

/-- A CSR write (R74, R99). -/
def Dev.csrWrite (d : Dev) (pod blk inst off v : Nat) (is64 : Bool) : Dev :=
  if !is64 then d.csrWrite32 pod blk inst off (v % 2 ^ 32)
  else match d.csrAt pod blk inst off with
    | .reg r i rem =>
      if r.width = 64 ∧ rem = 0 then d.regWrite (podReq pod) r i (v % 2 ^ 64) 0xFF []
      else (d.csrWrite32 pod blk inst off (v % 2 ^ 32)).csrWrite32 pod blk inst (off + 4) (v / 2 ^ 32 % 2 ^ 32)
    | .ctr c i 0 => d.ctrWrite (podReq pod) c i (v % 2 ^ 64) 0xFF 0
    | _ => d

end Sys2Proof.Machine
end

