-- ==== Sys2Proof/Machine/Complete.lean ====
section
/-!
DEFINITION. A ticket becomes READY (R131 to R133), and a destination applies an effect (R51, R99).
-/
namespace Sys2Proof.Machine

/-! ### Tickets -/

/-- The answer of a REACH (R95): bytes beyond LENGTH are 0 and the status is SHORT. -/
def reachResp (x : Item) (off len : Nat) : TkResp :=
  let n := min len (x.tok.len - off)
  { status := if n < len then 3 else 0, aux := n, bytes := slice x.data off n ++ List.replicate (len - n) 0 }

/-- The answer that a request has by now; none while the unit asked has not answered. `ue`: an uncorrectable error in the item's data. -/
def Dev.tkAnswer (d : Dev) (th tk : Nat) (ue : Bool) : Option (TkResp × Dev) :=
  let t := d.th th
  let k := t.tks.get tk
  match k.resp with
  | some r => some (r, d)
  | none =>
    match k.req with
    | .reach off len _ =>
      if !d.isUp 21 then none
      else some (if ue then { status := 5 } else reachResp (d.itemOf t) off len, d)
    | .csrrd is64 blk inst off _ =>
      let pod := th / 128
      if !d.isUp (if blk = 0 then pod else blkIsland blk) then none
      else
        let r := d.csrRead pod blk inst off is64 (d.isSup th)
        some ({ status := 0, bytes := toLe 8 r.1 }, r.2)
    | .hrd _ _ len _ =>
      match d.answeredOp fun o => o.fin == .hrd th tk && o.id + 1 == k.sent with
      | some o =>
        some (match d.opData o with
          | some b => { status := 0, bytes := slice b 0 len }
          | none => { status := 4, bytes := List.replicate len 0 }, d.takeOp o)
      | none => none
    | _ => none

/-- The bytes that a status writes (R133). -/
def TkResp.writes (r : TkResp) : Bool := r.status == 0 || r.status == 3 || r.status == 4

/-- The result bytes land: a VERDICT's 32 bytes at its destination and the rest at PLAIN_DST (R297). -/
def Thread.land (t : Thread) (req : TkReq) (dst : Nat) (b : List Nat) : Thread :=
  match req with
  | .verdict q _ => (t.putLocal dst (b.take 32)).putLocal (bits (leNat (slice q 12 4)) 0 16) (b.drop 32)
  | _ => t.putLocal dst b

/-- TICKET_COMPLETE (R131 to R133): the ticket of a request that has been answered becomes READY, and its bytes land in LOCAL. -/
def execTicketComplete (th : Fin 2048) (tk : Fin 8) (ue : Bool) (s : State) : Res := s.on fun d =>
  d.onIsland (th.val / 128) fun d =>
    let t := d.th th.val
    let k := t.tk tk
    if k.st ≠ 1 then d
    else match d.tkAnswer th.val tk.val ue with
      | none => d
      | some (r, d) =>
        let t := d.th th.val
        let t := if r.writes then t.land k.req k.dst r.bytes else t
        d.setTh th.val (t.setTk tk { t.tk tk with st := 2, resp := none, status := r.status, aux := r.aux })

/-! ### Effects -/

/-- The island that applies an effect (Table 04-5). -/
def EffReq.island (e : EffReq) : Nat :=
  match e.eff with
  | .tableWrite .. | .cntEntry .. | .atomic .. => 22
  | .cntProg .. => 21
  | .csr _ blk _ _ _ => if blk = 0 then e.pod else blkIsland blk
  | .saUpdate .. => 23
  | _ => 20

/-- The instance of a DMA_WRITE exists (R395). -/
def Dev.dmaInst (d : Dev) (i : Nat) : Bool := decide (2 ≤ d.get F.INST_STATE_STATE i)

/-- A destination applies an effect; none where it is not acknowledged (R202). -/
def Dev.effApply (d : Dev) (e : EffReq) : Option Dev :=
  match e.eff with
  | .cntProg i n => some (d.count .BUF_PROG_CNT i n)
  | .dmaImm addr inst data => some (if d.dmaInst inst then d.hostWrite inst 8 addr data else d.count .DMA_WR_NO_INST)
  | .dmaRange addr len inst off =>
    some (if d.dmaInst inst then
        d.hostWrite inst 8 addr (slice (((d.item e.stamp).map (·.data)).getD []) off len) (.range e.stamp)
      else d.count .DMA_WR_NO_INST)
  | .mbox inst dir msg => some (d.mbxPost inst (dir == 1) msg (d.gen inst) (e.stamp % 2 ^ 16))
  | .csr is64 blk inst off v => some (d.csrWrite e.pod blk inst off v is64)
  | .saUpdate sa pn => some (d.saUpdate e.stamp sa pn)
  | .event n =>
    some (if e.tenant then d.raiseInst 0x009 e.inst n (e.stamp % 2 ^ 32) else d.raise (0x40 + n) e.inst (e.stamp % 2 ^ 32))
  | eff => d.effTable eff

/-- EFFECT_APPLY (R25, R51, R186): the `k`-th effect in flight reaches its destination, which applies it once; `ack` says that its answer
reaches the commit unit. The effects of a batch reach one destination in staging order. A forwarded effect goes to the member that owns
the shard, whose answer is REMOTE_RESPONSE. -/
def execEffectApply (k : Nat) (ack : Bool) (s : State) : Res := s.on fun d =>
  match d.effq[k]? with
  | none => d
  | some e =>
    if !d.isUp e.island || !d.isUp 21 then d
    else if (d.effq.take k).any fun x => x.stamp == e.stamp && x.island == e.island && !x.applied && !d.effRemote x then d
    else if d.effRemote e then
      let o := d.ownerOf (.effect e.stamp e.index e.eff)
      if d.isCurrent o then d.emit (.tableReq o e.reqId (.effect e.stamp e.index e.eff)) else d
    else if e.applied then (if ack then d.effAck e else d)
    else match (d.reach (d.heldTill 21 e.island e.sent)).effApply e with
      | none => d
      | some d =>
        if ack then d.effAck e
        else ({ d with effq := d.effq.map fun x => if x.stamp == e.stamp && x.index == e.index then { x with applied := true } else x } : Dev).tidy
          e.stamp

end Sys2Proof.Machine
end

