-- ==== Sys2Proof/Machine/Migration.lean ====
section
/-!
DEFINITION. Live migration of instances (18): dirty tracking (R418 to R421), freezing and thawing (R422 to R425), the state
image (R426, R427) and its restoration (R428, R429).
-/
namespace Sys2Proof.Machine

/-- A command of the migration window: NOT_OWNER first, then what `f` does. -/
def Dev.mwSubmit (d : Dev) (p : Fin 4) (inst opc : Nat) (f : Dev → Dev) : Dev :=
  d.submit (.mw p) fun d => if d.pfOf inst ≠ p.val then d.mwDone p.val inst opc 1 else f d

/-- MSTATE of an instance. -/
def Dev.mstate (d : Dev) (inst : Nat) : Nat := d.get F.MIG_STATE_MSTATE inst

/-- The command stays outstanding. -/
def Dev.mwWaits (d : Dev) (p : Fin 4) (inst opc : Nat) : Dev :=
  (d.setMig inst { d.mig inst with win := some p.val, opc := opc }).winBusy (.mw p)

/-! ### Dirty tracking (R418 to R421) -/

/-- DIRTY_START (R418). -/
def execDirtyStart (p : Fin 4) (inst : Fin 2052) (bank0 bank1 base : BitVec 64) (lg : BitVec 8) (s : State) : Res :=
  s.window (.mw p) (.dirtyStart p inst bank0 bank1 base lg) fun d => d.mwSubmit p inst.val 1 fun d =>
    let n := inst.val
    if !d.instEnabled n || d.flag F.MIG_STATE_TRACKING n then d.mwDone p.val n 1 2
    else if bank0.toNat % 4096 ≠ 0 ∨ bank1.toNat % 4096 ≠ 0 ∨ base.toNat % 4096 ≠ 0 ∨ lg.toNat < 12 ∨ 26 < lg.toNat then
      d.mwDone p.val n 1 3
    else if (d.fn n).ats then d.mwDone p.val n 1 4
    else
      let m := { d.mig n with bank0 := bank0.toNat, bank1 := bank1.toNat, base := base.toNat, lg := lg.toNat, marks := [] }
      (((d.setMig n m).put F.MIG_STATE_TRACKING n 1).put F.MIG_STATE_BANK n 0).mwDone p.val n 1 0

/-- The write operations of an instance that have marked and not left, with their channels. -/
def Dev.markers (d : Dev) (inst : Nat) : List (Nat × Nat) :=
  d.hst.chans.cells.flatMap fun c =>
    (c.2.ops.filter fun o => o.inst == inst && !o.read && decide (6 ≤ o.src ∧ o.src ≤ 8) && decide (0 < o.done)).map
      fun o => (c.1, o.id)

/-- The active bank closes (R421): the swap cycle, and a flush read on each channel that carried its marks. -/
def Dev.closeBank (d : Dev) (p : Fin 4) (inst opc : Nat) : Dev :=
  let m := d.mig inst
  let l := d.markers inst
  let m := { m with pages := m.marks.length, marks := [], ops := l.map (·.2) }
  let d := (d.setMig inst m).put F.MIG_STATE_BANK inst (1 - d.get F.MIG_STATE_BANK inst)
  let chans := (d.chanOf inst :: l.map (·.1)).eraseDups
  let d := chans.foldl (fun d c =>
    d.addOp c { inst := p.val, gen := d.gen p.val, src := 0xC, read := true, addr := d.rd .DMA_CHAN_STATUS_ADDR c,
                fin := .migFlush inst }) d
  d.mwWaits p inst opc

/-- DIRTY_SWAP (R421). -/
def execDirtySwap (p : Fin 4) (inst : Fin 2052) (s : State) : Res := s.window (.mw p) (.dirtySwap p inst) fun d =>
  d.mwSubmit p inst.val 2 fun d =>
    if !d.flag F.MIG_STATE_TRACKING inst.val then d.mwDone p.val inst.val 2 2 else d.closeBank p inst.val 2

/-- DIRTY_STOP (R421): the active bank closes and tracking is off. -/
def execDirtyStop (p : Fin 4) (inst : Fin 2052) (s : State) : Res := s.window (.mw p) (.dirtyStop p inst) fun d =>
  d.mwSubmit p inst.val 3 fun d =>
    if !d.flag F.MIG_STATE_TRACKING inst.val then d.mwDone p.val inst.val 3 2
    else (d.closeBank p inst.val 3).put F.MIG_STATE_TRACKING inst.val 0

/-- The operations that wait on channels. -/
def Dev.chanOps (d : Dev) : List DmaOp := d.hst.chans.cells.flatMap fun c => c.2.ops

/-- DIRTY_SWAP_COMPLETE (R421): every operation that marked the closed bank has left and the flush reads have completed. -/
def execDirtySwapComplete (inst : Fin 2052) (s : State) : Res := s.on fun d =>
  d.onIsland 20 fun d =>
    let n := inst.val
    let m := d.mig n
    let isFlush (o : DmaOp) : Bool := o.fin == .migFlush n
    let waits := d.chanOps.any (fun o => m.ops.contains o.id || isFlush o) || d.hst.rdOps.any fun o => isFlush o && !d.opAnswered o
    match m.win with
    | none => d
    | some p =>
      if (m.opc ≠ 2 ∧ m.opc ≠ 3) ∨ waits = true then d
      else
        let d := (d.hst.rdOps.filter isFlush).foldl (fun d o => d.takeOp o) d
        let d := d.setMig n { m with win := none, ops := [] }
        d.mwDone p n m.opc 0 [(0x208, m.pages + (1 - d.get F.MIG_STATE_BANK n) * 2 ^ 32)]

/-! ### Freeze and thaw (R422 to R425) -/

/-- FREEZE with MODE QUIESCE (R422, R423): from NONE in ENABLED, or from FROZEN_IN_PLACE, whose held work is released. The
descriptors fetched and not accepted are dropped and read again after THAW. -/
def execFreezeQuiesce (p : Fin 4) (inst : Fin 2052) (kek : Fin 64) (s : State) : Res := s.window (.mw p) (.freezeQuiesce p inst kek) fun d =>
  d.mwSubmit p inst.val 4 fun d =>
    let n := inst.val
    if !d.instEnabled n || (d.mstate n != 0 && d.mstate n != 3) then d.mwDone p.val n 4 2
    else
      let d := (d.put F.MIG_STATE_MSTATE n 1).resumeFn n
      let d := (d.instQs n).foldl (fun d q => d.dropFetched q) d
      (d.setMig n { d.mig n with kek := kek.val }).mwWaits p n 4

/-- A host item or copy of the instance is on its way (R422). -/
def Dev.quiesceWaits (d : Dev) (inst : Nat) : Bool :=
  let qs := d.instQs inst
  qs.any (fun q => !d.isRq q && d.qDone q != d.qCi q)
    || qs.any (fun q => (d.q q).pend.any fun x => x.out.isSome)
    || (d.itemList.any fun x => x.copies.any fun k => k.dtype == 1 && d.ownsRange inst 0 k.dest &&
          (k.st == .onchip || k.st == .deep || k.st == .sending))
    || (d.chanOps.any fun o => o.inst == inst && !o.read && o.gen == d.gen inst && decide (6 ≤ o.src ∧ o.src ≤ 8))
    || (d.evq.any fun e => e.inst == inst && decide (e.id < 0x80))
    || (d.hst.vecs.cells.any fun c => c.1 / 2048 == inst && c.2.pend && !c.2.mask && (d.fn inst).msixEn && !(d.fn inst).fmask)

/-- QUIESCED (R422). -/
def execQuiesced (inst : Fin 2052) (s : State) : Res := s.on fun d =>
  d.onIsland 20 fun d =>
    let n := inst.val
    match (d.mig n).win with
    | none => d
    | some p =>
      if d.mstate n ≠ 1 ∨ d.quiesceWaits n then d
      else ((d.put F.MIG_STATE_MSTATE n 2).setMig n { d.mig n with win := none }).mwDone p n 4 0

/-- FREEZE with MODE IN_PLACE (R423): the instance's work is set aside as for Bus Master Enable 0. -/
def execFreezeInPlace (p : Fin 4) (inst : Fin 2052) (kek : Fin 64) (s : State) : Res := s.window (.mw p) (.freezeInPlace p inst kek) fun d =>
  d.mwSubmit p inst.val 4 fun d =>
    let n := inst.val
    if !d.instEnabled n || d.mstate n != 0 then d.mwDone p.val n 4 2
    else
      let d := (d.put F.MIG_STATE_MSTATE n 3).pauseFn n (d.fn n)
      (d.setMig n { d.mig n with kek := kek.val }).mwDone p.val n 4 0

/-- THAW (R425): work resumes in its previous order. -/
def execThaw (p : Fin 4) (inst : Fin 2052) (s : State) : Res := s.window (.mw p) (.thaw p inst) fun d =>
  d.mwSubmit p inst.val 7 fun d =>
    let n := inst.val
    if d.mstate n < 2 then d.mwDone p.val n 7 2
    else ((d.put F.MIG_STATE_MSTATE n 0).resumeFn n).mwDone p.val n 7 0

/-! ### The state image (R426, R427) -/

/-- A section: header and data (Table 18-5). -/
def sectionOf (ty count : Nat) (b : List Nat) : List Nat :=
  toLe 2 ty ++ [0, 0] ++ toLe 4 count ++ toLe 4 b.length ++ toLe 4 (crc32c b) ++ b

/-- The elements of an instance's range of kind `k` that the list names, in order. -/
def Dev.inRange (d : Dev) (inst k : Nat) (l : List Nat) : List Nat :=
  sortBy id (l.filter (d.ownsRange inst k))

/-- INSTANCE. -/
def Dev.imgInstance (d : Dev) (i : Nat) : List Nat :=
  toLe 8 (d.rd .INST_SUB_CFG i) ++ toLe 4 (d.rd .QE_INST_ARB i) ++ toLe 4 0
    ++ (List.range 10).flatMap (fun k => toLe 8 (d.rd .INST_RANGE (i * 16 + k))) ++ List.replicate 32 0

/-- A record of SQRQ. -/
def Dev.imgQueue (d : Dev) (q : Nat) : List Nat :=
  toLe 4 q ++ toLe 4 (d.rd .QE_QCTX_CFG q) ++ toLe 4 (d.rd .QE_QCTX_ARB q) ++ toLe 4 0 ++ toLe 8 (d.rd .QE_QCTX_BASE q)
    ++ toLe 8 (d.rd .QE_QCTX_HWB q) ++ toLe 4 (d.qPi q) ++ toLe 4 (d.qCi q) ++ toLe 4 (d.qDone q) ++ toLe 4 0

/-- The accepted, unfilled buffers of a queue. -/
def Dev.imgBufs (d : Dev) (q : Nat) : List (List Nat) :=
  ((d.q q).pend.filter fun x => x.kind == 3 && x.out.isNone).map fun x =>
    toLe 8 x.addr ++ toLe 4 x.len ++ toLe 4 (q % 2 ^ 16 + x.index % 2 ^ 16 * 2 ^ 16)

/-- A record of CQEQ. -/
def Dev.imgCq (d : Dev) (c : Nat) : List Nat :=
  toLe 4 c ++ toLe 4 (d.rd .QE_CQCTX_CFG c) ++ toLe 8 (d.rd .QE_CQCTX_BASE c) ++ toLe 4 (d.get F.QE_CQCTX_STATE_WPI c)
    ++ toLe 4 (d.get F.QE_CQCTX_STATE_RCI c) ++ toLe 4 (d.rd .QE_CQCTX_FLAGS c) ++ toLe 4 0
def Dev.imgEq (d : Dev) (e : Nat) : List Nat :=
  toLe 4 (e + 2 ^ 16) ++ toLe 4 (d.rd .QE_EQCTX_CFG e) ++ toLe 8 (d.rd .QE_EQCTX_BASE e) ++ toLe 4 (d.get F.QE_EQCTX_STATE_WPI e)
    ++ toLe 4 (d.get F.QE_EQCTX_STATE_RCI e) ++ toLe 4 (d.rd .QE_EQCTX_FLAGS e) ++ toLe 4 0

/-- A record of NVME. -/
def Dev.imgConn (d : Dev) (c : Nat) : List Nat :=
  toLe 4 c ++ toLe 4 0 ++ toLe 8 (d.rd .NVME_CONN_CFG c) ++ toLe 8 (d.rd .NVME_CONN_RESYNC c)
    ++ toLe 4 ((d.conn c).txNext.getD 0) ++ toLe 4 ((d.conn c).rxNext.getD 0)

/-- A record of KEY, wrapped under a KEK (R306). -/
def Dev.imgKey (d : Dev) (kek : List Nat) (k : Nat) : List Nat :=
  let b := (d.cry.keys.get k).key
  toLe 2 k ++ [0, 0] ++ toLe 4 (kcvOf b) ++ Config.kwWrap kek b

/-- The MSIX section of a VF. -/
def Dev.imgMsix (d : Dev) (i : Nat) : List Nat :=
  (List.range 64).flatMap (fun v => let x := d.vec i v
    toLe 8 x.addr ++ toLe 4 x.data ++ toLe 4 (b2n x.mask))
    ++ toLe 8 ((List.range 64).foldl (fun a v => a + b2n (d.vec i v).pend * 2 ^ v) 0)

/-- The VALID SAs of an instance, in order. -/
def Dev.instSas (d : Dev) (i : Nat) : List Nat := (d.inRange i 3 d.cry.sas.keys).filter fun n => (d.sa n).valid

/-- The sections of an instance's image, in ascending TYPE order: SECTION_COUNT and bytes. -/
def Dev.imgSections (d : Dev) (i : Nat) : Nat × List Nat :=
  let kek := (d.cry.keks.get (d.mig i).kek).key
  let qs := sortBy id (d.instQs i)
  let bufs := qs.flatMap d.imgBufs
  let cqs := (d.inRange i 1 (d.listedOf .QE_CQCTX_CFG)).filter fun c => d.flag F.QE_CQCTX_CFG_ENABLE c
  let eqs := (d.inRange i 2 (d.listedOf .QE_EQCTX_CFG)).filter fun e => d.flag F.QE_EQCTX_CFG_ENABLE e
  let cs := (d.inRange i 5 (d.listedOf .NVME_CONN_CFG)).filter fun c => d.flag F.NVME_CONN_CFG_VALID c
  let sas := d.instSas i
  let wide := sas.filter fun n => (d.sa n).wide.isSome
  let keys := sortBy id (sas.map fun n => (d.sa n).keySlot).eraseDups
  let pc := (List.range (d.rangeCount i 4)).flatMap fun j => toLe 8 (d.cnt .BUF_PROG_CNT (d.rangeBase i 4 + j))
  let b := sectionOf 1 1 (d.imgInstance i) ++ sectionOf 2 qs.length (qs.flatMap d.imgQueue)
    ++ sectionOf 3 bufs.length bufs.flatten
    ++ sectionOf 4 (cqs.length + eqs.length) (cqs.flatMap d.imgCq ++ eqs.flatMap d.imgEq)
    ++ sectionOf 5 cs.length (cs.flatMap d.imgConn)
    ++ sectionOf 6 sas.length (sas.flatMap (fun n => (d.sa n).bytes) ++ wide.flatMap fun n => toLe 128 (d.sa n).bitmap)
    ++ sectionOf 7 keys.length (keys.flatMap (d.imgKey kek)) ++ sectionOf 8 (d.rangeCount i 4) pc
  if 4 ≤ i then (9, b ++ sectionOf 9 64 (d.imgMsix i)) else (8, b)

/-- The header (Table 18-4). -/
def Dev.imgHeader (d : Dev) (i n size : Nat) : List Nat :=
  let h := toLe 4 0x4D59444D ++ toLe 2 1 ++ toLe 2 (d.get F.STM_FW_STATUS_RUN_INSTAR) ++ toLe 2 n
    ++ toLe 2 (1 + 2 * d.get F.MIG_STATE_OVERFLOW i) ++ toLe 4 size ++ toLe 2 i ++ toLe 2 (d.gen i)
    ++ toLe 4 (kcvOf (d.cry.keks.get (d.mig i).kek).key) ++ toLe 8 d.now ++ List.replicate 28 0
  h ++ toLe 4 (crc32c h)

/-- SAVE (R427): sections, then the header, then a flush, on the PF's channel. -/
def execSave (p : Fin 4) (inst : Fin 2052) (addr : BitVec 64) (size : BitVec 32) (s : State) : Res := s.window (.mw p) (.save p inst addr size) fun d =>
  d.mwSubmit p inst.val 5 fun d =>
    let n := inst.val
    let k := d.cry.keks.get (d.mig n).kek
    let x := d.imgSections n
    let req := 64 + x.2.length
    if d.mstate n ≠ 2 then d.mwDone p.val n 5 2
    else if k.key.isEmpty || !k.export_ then d.mwDone p.val n 5 5
    else if size.toNat < req then d.mwDone p.val n 5 6 [(0x208, req)]
    else
      let a := addr.toNat
      let d := ((cut64k x.2).mapIdx fun i b => (i, b)).foldl (fun d e =>
        d.hostWrite p.val 9 (a + 64 + 65536 * e.1) e.2 (.image n)) d
      let d := d.hostWrite p.val 9 a (d.imgHeader n x.1 req) (.image n)
      let c := d.chanOf p.val
      let d := d.addOp c { inst := p.val, gen := d.gen p.val, src := 0xC, read := true, addr := d.rd .DMA_CHAN_STATUS_ADDR c,
                           fin := .saveFlush n }
      (d.setMig n { d.mig n with pages := req }).mwWaits p n 5

/-- The flush of a SAVE has its answer: the command completes (R427). -/
def Dev.savesOver (d : Dev) : Dev :=
  match d.hst.rdOps.find? fun o => (match o.fin with | .saveFlush _ => true | _ => false) && d.opAnswered o with
  | some o => match o.fin with
    | .saveFlush n =>
      let m := d.mig n
      let ok := (d.opData o).isSome
      let d := (d.takeOp o).setMig n { m with win := none }
      (match m.win with | some p => d.mwDone p n 5 (if ok then 0 else 7) [(0x208, m.pages)] | none => d)
    | _ => d
  | none => d

/-! ### Restore (R428, R429, R306) -/

/-- A section as it was read: TYPE, COUNT, CRC and data. -/
structure Sect where
  type  : Nat
  count : Nat
  crc   : Nat
  data  : List Nat
deriving DecidableEq, Repr

/-- The sections of an image, by fuel; none where the bytes end early. -/
def sectsOf : Nat → List Nat → Option (List Sect)
  | 0, l => if l.isEmpty then some [] else none
  | n + 1, l =>
    let size := leNat (slice l 8 4)
    if l.length < 16 + size ∨ size % 8 ≠ 0 ∨ leNat (slice l 2 2) ≠ 0 then none
    else (sectsOf n (l.drop (16 + size))).map fun t =>
      ⟨leNat (slice l 0 2), leNat (slice l 4 4), leNat (slice l 12 4), slice l 16 size⟩ :: t

/-- The record size of a section (Table 18-6), 0 where it is not fixed. -/
def recSize (ty : Nat) : Nat := match ty with
  | 1 => 128 | 2 => 48 | 3 => 16 | 4 => 32 | 5 => 32 | 7 => 64 | 8 => 8 | _ => 0

/-- The sections are of ascending known TYPE, with data of their COUNT. -/
def sectsOk : Nat → List Sect → Bool
  | _, [] => true
  | lo, x :: t => decide (lo < x.type ∧ x.type ≤ 9) && (recSize x.type == 0 || x.data.length == recSize x.type * x.count)
      && sectsOk x.type t

/-- The header passes the first check of R428; `size` is what the command names. -/
def headerOk (b : List Nat) (size : Nat) : Bool :=
  let n := leNat (slice b 0xC 4)
  leNat (slice b 0 4) == 0x4D59444D && leNat (slice b 4 2) == 1 && leNat (slice b 0x3C 4) == crc32c (slice b 0 0x3C)
    && bit (leNat (slice b 0xA 2)) 0 && decide (64 ≤ n ∧ n ≤ size ∧ n ≤ b.length)

/-- The data of a section, empty where the image has none of it. -/
def sect (l : List Sect) (ty : Nat) : List Nat := ((l.find? (·.type == ty)).map (·.data)).getD []

/-- Records of `n` bytes. -/
def recsOf (n : Nat) (b : List Nat) : List (List Nat) := (List.range (b.length / n)).map fun i => slice b (n * i) n

/-- The SA records of an image, each with the SA it restores and its bitmap. -/
def Dev.imgSas (d : Dev) (i : Nat) (l : List Sect) : List (Nat × SA) :=
  let x := sect l 6
  let n := ((l.find? (·.type == 6)).map (·.count)).getD 0
  let base := d.rangeBase i 3
  let cnt := max 1 (d.rangeCount i 3)
  let recs := recsOf 32 (slice x 0 (32 * n))
  let step (a : List (Nat × SA) × Nat) (r : List Nat) : List (Nat × SA) × Nat :=
    let w0 := leNat (slice r 0 4)
    let y : SA := { SA.ofBytes r with softHit := bit w0 23, exh := bit w0 24 }
    let wide := y.inbound && decide (32 < y.win)
    let y := if wide then { y with bitmap := leNat (slice x (32 * n + 128 * a.2) 128) } else y
    (a.1 ++ [(base + Config.saIndex x a.1.length % cnt, y)], a.2 + b2n wide)
  (recs.foldl step ([], 0)).1

/-- A queue is restored, ACTIVE with its indices. -/
def Dev.restoreQueue (d : Dev) (r : List Nat) : Dev :=
  let q := leNat (slice r 0 4)
  let d := (d.wr .QE_QCTX_CFG q (leNat (slice r 4 4))).wr .QE_QCTX_ARB q (leNat (slice r 8 4))
  let d := (d.wr .QE_QCTX_BASE q (leNat (slice r 16 8))).wr .QE_QCTX_HWB q (leNat (slice r 24 8))
  let d := ((d.wr .QE_QCTX_PI q (leNat (slice r 32 4))).wr .QE_QCTX_CI q (leNat (slice r 36 4))).wr .QE_QCTX_DONE q (leNat (slice r 40 4))
  let d := (d.put F.QE_QCTX_CTL_ENABLE q 1).put F.QE_QCTX_STATE_STATE q 1
  d.setQ q { fetch := leNat (slice r 36 4) }

/-- An accepted buffer is restored at its place between DONE and CI. -/
def Dev.restoreBuf (d : Dev) (r : List Nat) : Dev :=
  let w := leNat (slice r 12 4)
  let q := w % 2 ^ 16
  let k := (w / 2 ^ 16 + 2 ^ 16 - d.qDone q % 2 ^ 16) % 2 ^ 16
  let x : Pend := { index := idxAdd (d.qDone q) k, kind := 3, len := leNat (slice r 8 4), addr := leNat (slice r 0 8) }
  d.setQ q { d.q q with pend := (d.q q).pend ++ [x] }

/-- A completion or event queue is restored, its phase following WPI. -/
def Dev.restoreCqEq (d : Dev) (r : List Nat) : Dev :=
  let w := leNat (slice r 0 4)
  let n := w % 2 ^ 16
  let cfg := leNat (slice r 4 4)
  let base := leNat (slice r 8 8)
  let st := leNat (slice r 16 8)
  let fl := leNat (slice r 24 4)
  if bit w 16 then (((d.wr .QE_EQCTX_CFG n cfg).wr .QE_EQCTX_BASE n base).wr .QE_EQCTX_STATE n st).wr .QE_EQCTX_FLAGS n fl
  else (((d.wr .QE_CQCTX_CFG n cfg).wr .QE_CQCTX_BASE n base).wr .QE_CQCTX_STATE n st).wr .QE_CQCTX_FLAGS n fl

/-- An NVMe/TCP context is restored. -/
def Dev.restoreConn (d : Dev) (r : List Nat) : Dev :=
  let c := leNat (slice r 0 4)
  let d := (d.wr .NVME_CONN_CFG c (leNat (slice r 8 8))).wr .NVME_CONN_RESYNC c (leNat (slice r 16 8))
  d.setConn c { txNext := some (leNat (slice r 24 4)), rxNext := some (leNat (slice r 28 4)) }

/-- A key slot is unwrapped under the KEK (R306). -/
def Dev.restoreKey (d : Dev) (p : Nat) (kek r : List Nat) : Dev :=
  let k := leNat (slice r 0 2)
  let x : KeySlot := { key := (Config.kwUnwrap kek (slice r 8 56)).getD [], owner := p, refs := 0 }
  { d with cry := { d.cry with keys := d.cry.keys.set k x } }

/-- An SA is restored: an outbound PN advances by 2^20, at most to HARD (R306). -/
def Dev.restoreSa (d : Dev) (n : Nat) (a : SA) : Dev :=
  let pn := min (a.pn + 2 ^ 20) a.hard
  let a := if a.inbound then a else { a with pn := pn, exh := a.exh || pn == a.hard }
  let d : Dev := { d with cry := { d.cry with keys := d.cry.keys.modify a.keySlot fun k => { k with refs := k.refs + 1 } } }
  if a.inbound && decide (32 < a.win) then
    let i := d.freeWide
    ({ d with cry := { d.cry with wideUsed := d.cry.wideUsed ++ i.toList } } : Dev).setSa n { a with wide := i }
  else
    let d := d.setSa n { a with wide := none }
    if a.inbound then d else d.writeDir n (if a.esp then 2 else 1)

/-- The MSI-X table and PBA of a VF are restored. -/
def Dev.restoreMsix (d : Dev) (i : Nat) (b : List Nat) : Dev :=
  let pba := leNat (slice b 1024 8)
  (List.range 64).foldl (fun d v =>
    d.setVec i v { addr := leNat (slice b (16 * v) 8), data := leNat (slice b (16 * v + 8) 4),
                   mask := bit (leNat (slice b (16 * v + 12) 4)) 0, pend := bit pba v }) d

/-- Every section is applied (R429). -/
def Dev.restore (d : Dev) (p i : Nat) (kek : List Nat) (gen : Nat) (l : List Sect) : Dev :=
  let sas := d.imgSas i l
  let c := sect l 1
  let d := d.put F.INST_STATE_GENERATION i gen
  let d := (d.wr .INST_SUB_CFG i (leNat (slice c 0 8))).wr .QE_INST_ARB i (leNat (slice c 8 4))
  let d := (recsOf 48 (sect l 2)).foldl (fun d r => d.restoreQueue r) d
  let d := (recsOf 16 (sect l 3)).foldl (fun d r => d.restoreBuf r) d
  let d := (recsOf 32 (sect l 4)).foldl (fun d r => d.restoreCqEq r) d
  let d := (recsOf 32 (sect l 5)).foldl (fun d r => d.restoreConn r) d
  let d := (recsOf 64 (sect l 7)).foldl (fun d r => d.restoreKey p kek r) d
  let d := sas.foldl (fun d e => d.restoreSa e.1 e.2) d
  let d := ((recsOf 8 (sect l 8)).mapIdx fun j r => (j, r)).foldl (fun d e =>
    d.setCnt .BUF_PROG_CNT (d.rangeBase i 4 + e.1) (leNat e.2)) d
  let d := if 4 ≤ i ∧ l.any (·.type == 9) then d.restoreMsix i (sect l 9) else d
  (d.put F.INST_STATE_STATE i 3).put F.MIG_STATE_MSTATE i 4

/-- The first failing check of R428: status and SECTION. -/
def Dev.restoreFault (d : Dev) (i : Nat) (kek : Kek) (instar size : Nat) (b : List Nat) : Option (Nat × Nat) :=
  let n := leNat (slice b 0xC 4)
  let body := slice b 64 (n - 64)
  if !headerOk b size then some (8, 0)
  else match sectsOf (leNat (slice b 8 2)) body with
    | none => some (8, 0)
    | some l =>
      match l.find? fun x => crc32c x.data != x.crc with
      | some x => some (8, x.type)
      | none =>
        if !sectsOk 0 l then some (8, 0)
        else if d.get F.STM_FW_STATUS_RUN_INSTAR < instar then some (9, 0)
        else if (List.range 10).any fun k => leNat (slice (sect l 1) (16 + 8 * k) 8) != d.rd .INST_RANGE (i * 16 + k) then some (0xA, 0)
        else if kek.key.isEmpty || kcvOf kek.key != leNat (slice b 0x14 4) then some (5, 0)
        else if (d.imgSas i l).any fun e => (d.cry.retiring.get e.1).isSome then some (0xB, 0)
        else if d.inflightCur i ≠ 0 ∨ d.inflightPrev i ≠ 0 then some (2, 0)
        else none

/-- MIGRATION_RESTORE (R428, R429): `img` is what the reads of the image return, none where one failed. -/
def execMigrationRestore (p : Fin 4) (inst : Fin 2052) (kek : Fin 64) (size : BitVec 32) (img : Option (List Nat)) (s : State) :
    Res := s.window (.mw p) (.migrationRestore p inst kek size img) fun d =>
  d.mwSubmit p inst.val 6 fun d =>
    let n := inst.val
    let k := d.cry.keks.get kek.val
    if d.get F.INST_STATE_STATE n ≠ 2 ∨ d.mstate n ≠ 0 then d.mwDone p.val n 6 2
    else match img with
      | none => d.mwDone p.val n 6 7
      | some raw =>
        let instar := leNat (slice raw 6 2)
        let b := if instar < d.get F.STM_FW_STATUS_RUN_INSTAR then
            Config.convertImage instar (d.get F.STM_FW_STATUS_RUN_INSTAR) raw else raw
        let req := leNat (slice b 0xC 4)
        match d.restoreFault n k instar size.toNat b with
        | some (st, sec) => d.mwDone p.val n 6 st [(0x208, req + sec * 2 ^ 32)]
        | none =>
          let l := (sectsOf (leNat (slice b 8 2)) (slice b 64 (req - 64))).getD []
          (d.restore p.val n k.key (leNat (slice b 0x12 2)) l).mwDone p.val n 6 0 [(0x208, req)]

end Sys2Proof.Machine
end

