-- ==== Sys2Proof/Machine/DmaCmds.lean ====
section
/-!
DEFINITION. The commands of the DMA engine and the completions of reads (chapters 13, 14 and 16).
-/
namespace Sys2Proof.Machine

/-- BURST_GRANT (R381, R382): the next burst of a group's issue port; `ue` says that the item data it carries has an uncorrectable error,
1 in HBM, 2 in on-chip SRAM. -/
def execBurstGrant (g : Fin 8) (ue : Fin 3) (s : State) : Res := s.on fun d => d.onIsland 20 fun d => d.grant g.val ue.val

/-- FLUSH (R386, R387). -/
def execFlush (c : Fin 64) (s : State) : Res := s.on fun d =>
  d.onIsland 20 fun d => d.byWrite .DMA_CHAN_CTL c.val fun d => d.flushSet c.val

/-- FLUSH_COMPLETE (R386): the pending flush read has its answer. -/
def execFlushComplete (c : Fin 64) (s : State) : Res := s.on fun d =>
  d.onIsland 20 fun d =>
    match d.answeredOp fun o => o.fin == .flush c.val with
    | some o => d.flushDone o c.val
    | none => d

/-- ABORT (R388). -/
def execAbort (c : Fin 64) (s : State) : Res := s.on fun d =>
  d.onIsland 20 fun d => d.byWrite .DMA_CHAN_CTL c.val fun d => d.abortSet c.val

/-- CHANNEL_STOPPED (R388): a STOPPING channel has passed its current burst. -/
def execChannelStopped (c : Fin 64) (s : State) : Res := s.on fun d =>
  d.onIsland 20 fun d => if d.get F.DMA_CHAN_STATE_STATE c.val = 3 then d.chanStopped c.val else d

/-- RESUME (R389). -/
def execResume (c : Fin 64) (s : State) : Res := s.on fun d =>
  d.onIsland 20 fun d => d.byWrite .DMA_CHAN_CTL c.val fun d => d.resumeSet c.val

/-- CHANNEL_MOVE (R376, R377): the manager driver writes INST_CHAN. -/
def execChannelMove (inst : Fin 2052) (c : Fin 64) (s : State) : Res := s.on fun d =>
  d.onIsland 20 fun d => d.byWrite .DMA_INST_CHAN inst.val fun d => d.instChanWrite inst.val c.val

/-- CHANNEL_MOVE_COMPLETE (R377). -/
def execChannelMoveComplete (inst : Fin 2052) (s : State) : Res := s.on fun d =>
  d.onIsland 20 fun d =>
    if d.flag F.DMA_INST_CHAN_MOVING inst.val ∧ d.moveOver inst.val then d.put F.DMA_INST_CHAN_MOVING inst.val 0 else d

/-- CHANNEL_FAIL (R392): a channel in service suffers an internal fault. -/
def execChannelFail (c : Fin 64) (s : State) : Res := s.on fun d =>
  d.onIsland 20 fun d =>
    let x := d.get F.DMA_CHAN_STATE_STATE c.val
    if x = 0 ∨ x = 5 then d else d.chanFails c.val

/-- READ_COMPLETION (R334, R336, R341, R379): a completion arrives at a port for a tag, with its data where its status is
successful. One that no outstanding read awaits is unexpected; a stale one is discarded; a poisoned one counts. -/
def execReadCompletion (port : Fin 2) (tag : Fin 16384) (ok poisoned : Bool) (data : List Nat) (s : State) : Res := s.on fun d =>
  d.onIsland 20 fun d =>
    let d := if poisoned then (d.count .HOST_POISON_RX port.val).fault 3 6 20 port.val else d
    match d.hst.reads.find? fun (r : Rd) => r.tag == some tag.val && r.port == port.val with
    | none => d.fault 3 5 20 port.val
    | some r =>
      let stale := r.gen != d.gen r.inst
      let d := (d.answerRead r (if ok && !poisoned then some data else none)).savesOver
      if stale then d.count .HOST_STALE_CPL port.val else d

/-- COMPLETION_TIMEOUT (R334, R341): the outstanding read of a tag times out; it completes as for UR, and its tag is free. -/
def execCompletionTimeout (tag : Fin 16384) (s : State) : Res := s.on fun d =>
  d.onIsland 20 fun d =>
    match d.hst.reads.find? fun (r : Rd) => r.tag == some tag.val with
    | none => d
    | some r =>
      let d := ((d.reach r.due).count .HOST_CPL_TIMEOUT r.port).fault 4 1 20 r.port
      (d.answerRead r none).savesOver

/-- CID_FETCH_COMPLETE (R319): a CID table entry that was being read has its answer. -/
def execCidFetchComplete (c : BitVec 14) (cid : BitVec 16) (s : State) : Res := s.on fun d =>
  d.onIsland 20 fun d =>
    match d.answeredOp fun o => o.fin == .cid c.toNat cid.toNat with
    | some o => (d.takeOp o).cidFetched c.toNat cid.toNat (d.opData o)
    | none => d

end Sys2Proof.Machine
end

