-- ==== Sys2Proof/Machine/Eye.lean ====
section
/-!
DEFINITION. Eyespot (28): the scan, the sample words, the comparator, single conversions and the throttle.
-/
namespace Sys2Proof.Machine

/-- Change Eyespot's part. -/
def Dev.setEye (d : Dev) (f : Eye → Eye) : Dev := { d with eye := f d.eye }

/-- A channel's runs. -/
def Dev.eyeCh (d : Dev) (c : Nat) : EyeCh := d.eye.chs.get c

/-- Store them. -/
def Dev.setEyeCh (d : Dev) (c : Nat) (x : EyeCh) : Dev := d.setEye fun e => { e with chs := e.chs.set c x }

/-! ### Settings (Table 28-3): GAIN in bit 0, OSR in bits 3 to 1, CHOP in bit 4 -/

/-- The settings of a channel. -/
def Dev.eyeCfg (d : Dev) (c : Nat) : Nat := d.rd .EYE_CH_CFG c % 32

/-- SETTLE_N under settings (R601). -/
def settleN (cfg : Nat) : Nat := if bit cfg 4 then 4 else 3

/-- The sample period in ns (R601). -/
def samplePeriod (cfg : Nat) : Nat := 5120 * 2 ^ bits cfg 1 3

/-- The nominal of a supply channel in mV; none while it is unknown (Table 28-1). -/
def Dev.nominal (d : Dev) (c : Nat) : Option Nat :=
  match c with
  | 20 => some 750 | 21 => some 800 | 22 => some 750 | 23 => some 750
  | _ => let v := d.get F.PWR_AVS_STATUS_CONFIRMED_MV (c - 16); if v = 0 then none else some v

/-- The range of a channel's values under a gain (R600). -/
def Dev.eyeRange (d : Dev) (c : Nat) (gain : Bool) : Int × Int :=
  if c < 16 then (-640, 2400)
  else if gain then
    let n : Int := ((d.nominal c).getD 0 : Nat) * 10
    (max 0 (n - 1750), n + 1750)
  else (0, 14000)

/-- A reading saturated at its range, and CLIP. -/
def Dev.saturate (d : Dev) (c : Nat) (gain : Bool) (v : Int) : Int × Bool :=
  let r := d.eyeRange c gain
  if v < r.1 then (r.1, true) else if r.2 < v then (r.2, true) else (v, false)

/-- The sample word (Table 28-4). -/
def sampleWord (v : Int) (valid : Bool) (settle : Nat) (clip : Bool) (cfg seq : Nat) : Nat :=
  unsigned 16 v + b2n valid * 2 ^ 16 + settle * 2 ^ 17 + b2n clip * 2 ^ 20 + bits cfg 0 1 * 2 ^ 21 + bits cfg 1 3 * 2 ^ 22
    + bits cfg 4 1 * 2 ^ 25 + seq * 2 ^ 32

/-! ### The comparator (R606 to R608) -/

/-- FAILED, by kind of channel. -/
def failedCond (c : Nat) : Nat := if c < 16 then 4 else 5

/-- The fault that entering a condition raises: class and kind (Table 28-6). -/
def condFault (c cond : Nat) : Nat × Nat :=
  if cond = failedCond c then (7, 4)
  else if c < 14 then (7, cond)
  else if c < 16 then (7, if cond = 1 then 1 else cond + 4)
  else (6, cond)

/-- A channel changes its condition: EYE_ALERT, and where a step is entered its fault and CROSS_CNT. -/
def Dev.setCond (d : Dev) (c cond value : Nat) (entered : Bool) : Dev :=
  if d.get F.EYE_COND_COND c = cond then d
  else
    let d := (d.put F.EYE_COND_COND c cond).raiseLocal 24 8 c (cond + value % 2 ^ 16 * 2 ^ 16)
    if entered then
      let f := condFault c cond
      (d.count .EYE_CROSS_CNT c).fault f.1 f.2 24 c value
    else d

/-- A temperature threshold (1 WARN, 2 THROT, 3 CRIT) in 1/16 C. -/
def Dev.tempThr (d : Dev) (c k : Nat) : Int :=
  16 * signed 8 (match k with | 1 => d.get F.EYE_THR_WARN c | 2 => d.get F.EYE_THR_THROT c | _ => d.get F.EYE_THR_CRIT c)

/-- The step that a temperature is beyond. -/
def Dev.tempStep (d : Dev) (c : Nat) (v : Int) : Nat :=
  if d.tempThr c 3 < v then 3 else if d.tempThr c 2 < v then 2 else if d.tempThr c 1 < v then 1 else 0

/-- The condition that a supply sample is beyond: 0 none, else LOW, HIGH, LOW_CRIT or HIGH_CRIT. With no nominal only the fixed bounds of
600 and 950 mV apply. -/
def Dev.supplyStep (d : Dev) (c : Nat) (v : Int) : Nat :=
  match d.nominal c with
  | none => if v < 6000 then 3 else if 9500 < v then 4 else 0
  | some n =>
    let n : Int := (n * 10 : Nat)
    let t (x : Nat) : Int := (x * 10 : Nat)
    if v < n - t (d.get F.EYE_THR_CRIT c) then 3
    else if n + t (d.get F.EYE_THR_CRIT c) < v then 4
    else if v < n - t (d.get F.EYE_THR_WARN c) then 1
    else if n + t (d.get F.EYE_THR_THROT c) < v then 2 else 0

/-- A supply sample lies at least HYST inside LOW and HIGH. -/
def Dev.supplyInside (d : Dev) (c : Nat) (v : Int) : Bool :=
  let h : Int := (d.get F.EYE_THR_HYST c * 10 : Nat)
  match d.nominal c with
  | none => decide (6000 + h ≤ v) && decide (v ≤ 9500 - h)
  | some n =>
    let n : Int := (n * 10 : Nat)
    decide (n - (d.get F.EYE_THR_WARN c * 10 : Nat) + h ≤ v) && decide (v ≤ n + (d.get F.EYE_THR_THROT c * 10 : Nat) - h)

/-- Two supply steps in a row: the one whose threshold both are beyond. -/
def bothSupply (a b : Nat) : Nat :=
  if a % 2 = b % 2 && a != 0 && b != 0 then min a b else 0

/-- A supply step `u` is beyond the condition `cur`: a change to the other side or to the critical bound. -/
def supplyAbove (cur u : Nat) : Bool := u != 0 && (cur == 0 || u % 2 != cur % 2 || decide (cur < u))

/-- A valid sample that is not of a FAILED channel meets the thresholds (R607): two in a row beyond a threshold enter its condition, two
below the release point leave it. -/
def Dev.compare (d : Dev) (c : Nat) (v : Int) (word : Nat) : Dev :=
  let x := d.eyeCh c
  let cur := d.get F.EYE_COND_COND c
  let temp := decide (c < 16)
  let u := if temp then d.tempStep c v else d.supplyStep c v
  let above (k u : Nat) : Bool := if temp then decide (k < u) else supplyAbove k u
  let down := cur != 0 && (if temp then decide (v < d.tempThr c cur - 16 * (d.get F.EYE_THR_HYST c : Nat)) else d.supplyInside c v)
  let goes := above cur u || down
  let run := if goes then (if (above cur u && above cur x.up) || (down && x.down) then x.run + 1 else 1) else 0
  let far := if temp then min x.up u else bothSupply x.up u
  let d := d.put F.EYE_COND_RUN c (min 15 run)
  if above cur far then (d.setEyeCh c { x with up := u, down := false, run := b2n (above far u) }).setCond c far word true
  else if down && x.down then
    (d.setEyeCh c { x with up := u, down := false, run := 0 }).setCond c (if temp then cur - 1 else 0) word false
  else d.setEyeCh c { x with up := u, down := down, run := run }

/-- A channel fails (R608). -/
def Dev.eyeFails (d : Dev) (c value : Nat) : Dev :=
  ((d.setEyeCh c { clips := (d.eyeCh c).clips }).put F.EYE_COND_RUN c 0).setCond c (failedCond c) value true

/-- A valid scan sample reaches the comparator (R607, R608, R610). -/
def Dev.eyeValid (d : Dev) (c : Nat) (v : Int) (clip : Bool) : Dev :=
  let w := unsigned 16 v
  let d := if clip then d.count .EYE_CLIP_CNT c else d
  let x := d.eyeCh c
  let x := { x with clips := if clip then min 16 (x.clips + 1) else 0, clean := if clip then 0 else min 16 (x.clean + 1) }
  let d := d.setEyeCh c x
  if d.get F.EYE_COND_COND c = failedCond c then
    if x.clean = 16 then (d.setEyeCh c { clean := 16 }).setCond c 0 w false else d
  else if x.clips = 16 then (d.eyeFails c w).setEyeCh c { clips := 16 }
  else d.compare c v w

/-! ### The sequencer (R601 to R605) -/

/-- The visit to a channel begins, settling first. -/
def Dev.eyeVisit (d : Dev) (c : Nat) : Dev :=
  let cfg := d.eyeCfg c
  d.setEye fun e => { e with ch := c, cfg := cfg, left := settleN cfg, taken := 0, runs := false }

/-- A visit ends: a single conversion that waits comes next, with no invalid samples where it follows the same channel under the same
settings; otherwise the next channel. -/
def Dev.visitEnds (d : Dev) : Dev :=
  match d.eye.single with
  | some q =>
    let cfg := q.gain + q.osr * 2 + q.chop * 16
    let left := if q.ch = d.eye.ch ∧ cfg = d.eye.cfg then 0 else settleN cfg
    d.setEye fun e => { e with runs := true, single := some { q with left := left } }
  | none => d.eyeVisit ((d.eye.ch + 1) % 24)

/-- The mean of the samples of a single conversion, rounded toward zero. -/
def meanOf (sum : Int) (n : Nat) : Int := Int.tdiv sum n

/-- A single conversion completes: SW_RES and EYE_SW_DONE. -/
def Dev.swDone (d : Dev) (status : Nat) (clip : Bool) (v : Nat) : Dev :=
  (d.winDone .sw [(0x200, status + b2n clip * 2 ^ 8 + v * 2 ^ 16)]).raiseLocal 24 10 status v

/-- A sample of the single conversion. -/
def Dev.singleSample (d : Dev) (q : Single) (v : Int) : Dev :=
  let r := d.saturate q.ch (q.gain == 1) v
  if 0 < q.left then d.setEye fun e => { e with single := some { q with left := q.left - 1 } }
  else
    let q := { q with taken := q.taken + 1, sum := q.sum + r.1, clip := q.clip || r.2 }
    if q.taken < q.count then d.setEye fun e => { e with single := some q }
    else
      let d := d.swDone 0 q.clip (unsigned 16 (meanOf q.sum q.count))
      (d.setEye fun e => { e with single := none }).eyeVisit ((d.eye.ch + 1) % 24)

/-- A sample of the scan. -/
def Dev.scanSample (d : Dev) (v : Int) : Dev :=
  let e := d.eye
  let c := e.ch
  let r := d.saturate c (bit e.cfg 0) v
  let valid := e.left == 0
  let n := d.get F.EYE_LAST_SEQ c
  let w := sampleWord r.1 valid e.left r.2 e.cfg (if n = 0xFFFF then 1 else n + 1)
  let d := d.wr .EYE_LAST c w
  let d := if valid then (d.wr .EYE_GOOD c w).eyeValid c r.1 r.2 else d
  let taken := e.taken + b2n valid
  if d.get F.EYE_CH_CFG_SAMPLES c ≤ taken then (d.setEye fun e => { e with taken := taken }).visitEnds
  else if d.eyeCfg c ≠ e.cfg then
    -- A write to CH_CFG takes effect at this boundary (R602).
    let cfg := d.eyeCfg c
    d.setEye fun e => { e with cfg := cfg, left := settleN cfg, taken := taken }
  else d.setEye fun e => { e with left := e.left - 1, taken := taken }

/-- SAMPLE (R603): one output sample of the converter, `v` in units of R600 before saturation. -/
def execSample (v : Int) (s : State) : Res := s.on fun d => d.onIsland 24 fun d =>
  match (if d.eye.runs then d.eye.single else none) with
  | some q =>
    let d := d.reach (d.eye.last + samplePeriod (q.osr * 2))
    (d.setEye fun e => { e with last := d.mono }).singleSample q v
  | none =>
    let d := d.reach (d.eye.last + samplePeriod d.eye.cfg)
    (d.setEye fun e => { e with last := d.mono }).scanSample v

/-- SAMPLE_TIMEOUT (R608): no sample of the channel under conversion within 10 sample periods. -/
def execSampleTimeout (s : State) : Res := s.on fun d => d.onIsland 24 fun d =>
  if d.eye.runs then d
  else
    let d := d.reach (d.eye.last + 10 * samplePeriod d.eye.cfg)
    if d.get F.EYE_COND_COND d.eye.ch = failedCond d.eye.ch then d
    else d.eyeFails d.eye.ch (d.get F.EYE_LAST_VALUE d.eye.ch)

/-- SINGLE_CONVERSION (R605). -/
def execSingleConversion (ch : BitVec 5) (gain : BitVec 1) (osr : BitVec 3) (chop : BitVec 1) (count : BitVec 4) (s : State) : Res :=
  s.on fun d => d.submit .sw fun d =>
    let c := ch.toNat
    if 23 < c ∨ 4 < osr.toNat ∨ count.toNat = 0 ∨ (c < 16 ∧ gain.toNat = 1) then d.swDone 1 false 0
    else
      let q : Single := { ch := c, gain := gain.toNat, osr := osr.toNat, chop := chop.toNat, count := count.toNat }
      (d.winBusy .sw).setEye fun e => { e with single := some q }

/-! ### Throttling (R609) -/

/-- A channel is in THROT, CRIT or FAILED. -/
def Dev.throttles (d : Dev) (c : Nat) : Bool := decide (2 ≤ d.get F.EYE_COND_COND c)

/-- The pods that a condition caps, bit n for pod n. -/
def Dev.throttleMask (d : Dev) : Nat :=
  if (List.range 10).any fun k => d.throttles (4 + k) then 0xFFFF
  else (List.range 4).foldl (fun a r => if d.throttles r then a + 15 * 16 ^ r else a) 0

/-- A rail whose pods are released: the voltage is raised first (its target confirmed), then CAP_MHZ. -/
def Dev.releaseRail (d : Dev) (r : Nat) : Dev :=
  let d := if d.get F.PWR_AVS_STATUS_TARGET_MV r ≤ d.get F.PWR_AVS_STATUS_CONFIRMED_MV r then d.raiseCaps r else d
  d.fault 7 5 24 r (d.get F.EYE_GOOD_VALUE r)

/-- THROTTLE_APPLY (R609): the AVS loop caps or releases pods; the firmware must run. -/
def execThrottleApply (s : State) : Res := s.on fun d => d.onIsland 24 fun d =>
  if !d.stw.running then d
  else
    let was := d.eye.capped
    let m := d.throttleMask
    let mhz := d.get F.EYE_THROT_THROTTLE_MHZ
    let changed := m != was || (m != 0 && mhz != d.eye.mhz)
    let d := d.setEye fun e => { e with capped := m, mhz := mhz }
    let d := (List.range 4).foldl (fun d r => d.lowerCaps r) d
    let d := (List.range 4).foldl (fun d r =>
      if bit m (4 * r) then (if d.get F.PWR_AVS_STATUS_TARGET_MV r ≤ d.get F.PWR_AVS_STATUS_CONFIRMED_MV r then d.raiseCaps r else d)
      else if bit was (4 * r) then d.releaseRail r else d) d
    if changed then d.raiseLocal 24 9 m mhz else d

end Sys2Proof.Machine
end

