-- ==== Sys2Proof/Machine/Instances.lean ====
section
/-!
DEFINITION. The instance window (17): creation, enabling, reset and removal of instances (R399 to R413), the ends of their
drains, and the IDE streams and BAR4 of a host port (R331, R441).
-/
namespace Sys2Proof.Machine

/-- The PFs that exist. -/
def Dev.pfCount (d : Dev) : Nat := if d.flag F.RST_STRAPS_HOSTBIF then 4 else 2

/-! ### The checks of POOL mode (R401) -/

/-- BASE and COUNT of kind `k` in a POOL request; a quota has BASE 0. -/
def Shares.range (s : Shares) (k : Nat) : Nat × Nat :=
  let r := s.ranges.getD k (0, 0)
  if 7 ≤ k then (0, r.2) else r

/-- The other instances of the PF that hold resources. -/
def Dev.otherLive (d : Dev) (p inst : Nat) : List Nat := d.hst.live.filter fun j => j != inst && d.pfOf j == p

/-- A share of kind `k` is possible: inside the allotment and clear of the PF's other instances, or within the quota. -/
def Dev.shareOk (d : Dev) (p inst : Nat) (s : Shares) (k : Nat) : Bool :=
  let r := s.range k
  let b := d.get F.INST_PF_ALLOT_BASE (p * 16 + k)
  let a := d.get F.INST_PF_ALLOT_COUNT (p * 16 + k)
  let least := if k = 0 ∨ k = 1 ∨ k = 2 ∨ k = 6 ∨ k = 7 then kindMin k else 0
  decide (least ≤ r.2) &&
    if 7 ≤ k then decide ((d.otherLive p inst).foldl (fun n j => n + d.rangeCount j k) r.2 ≤ a)
    else r.2 == 0 || (decide (b ≤ r.1 ∧ r.1 + r.2 ≤ b + a) &&
      (d.otherLive p inst).all fun j => decide (d.rangeCount j k = 0 ∨ r.1 + r.2 ≤ d.rangeBase j k
        ∨ d.rangeBase j k + d.rangeCount j k ≤ r.1))

/-- A node lies in the PF's node allotment: its equal share of the level-4 nodes from EQUAL_NODE on, and the level-3 nodes
in the same proportion (notes/assumptions/30.md). -/
def Dev.nodeOk (d : Dev) (p level node : Nat) : Bool :=
  let b := d.get F.INST_EQUAL_NODE_NODE p
  if level = 1 then decide (b ≤ node ∧ node < b + 16384 / d.pfCount)
  else decide (b / 4 ≤ node ∧ node < b / 4 + 4096 / d.pfCount)

/-- The first failing check of R401, by KIND; none where every share is possible. -/
def Dev.shareFault (d : Dev) (p inst : Nat) (s : Shares) : Option Nat :=
  match (List.range 10).find? fun k => !d.shareOk p inst s k with
  | some k => some k
  | none =>
    let q := s.range 6
    if !d.nodeOk p s.level s.node then some (Config.shareKind 0)
    else if ¬ (q.1 ≤ s.rqq ∧ s.rqq < q.1 + q.2) then some (Config.shareKind 1)
    else if !(d.pfChans p).contains s.chan then some (Config.shareKind 2)
    else none

/-- A named SA index is still retiring (R293). -/
def Dev.saBusy (d : Dev) (s : Shares) : Bool :=
  let r := s.range 3
  d.cry.retiring.cells.any fun c => c.2.isSome && decide (r.1 ≤ c.1 ∧ c.1 < r.1 + r.2)

/-- SUB_CFG lies in its ranges (Table 17-8). -/
def subCfgOk (v : Nat) : Bool :=
  decide (bits v 0 18 ≤ 200000 ∧ 64 ≤ bits v 18 16 ∧ bits v 34 20 ≤ 800000 ∧ 1 ≤ bits v 54 9 ∧ v < 2 ^ 64)

/-- The shares of EQUAL mode (R410); WEIGHT and SUB_CFG come from the request. -/
def Dev.equalShares (d : Dev) (p inst : Nat) (s : Shares) : Shares :=
  let n := if inst < 4 then 0 else inst - d.firstVf p + 1
  let vfs := (d.fn p).numVfs
  let range (k : Nat) : Nat × Nat :=
    let b := d.get F.INST_PF_ALLOT_BASE (p * 16 + k)
    let r := d.get F.INST_EQUAL_RSV_COUNT (p * 16 + k)
    let sk := if vfs = 0 then 0 else d.equalShare p k vfs
    if n = 0 then (b, r) else (b + r + (n - 1) * sk, sk)
  let ranges := (List.range 10).map range
  let ch := if (d.fn p).eqCh.isEmpty then d.pfChans p else (d.fn p).eqCh
  { s with ranges := ranges, level := 1, node := d.get F.INST_EQUAL_NODE_NODE p + n, rqq := (ranges.getD 6 (0, 0)).1,
           chan := ch.getD (n % max 1 ch.length) 0 }

/-! ### CREATE (R400, R402, R413) -/

/-- The shaper of an egress node takes its reset values (R414). -/
def Dev.resetShape (d : Dev) (level node : Nat) : Dev :=
  d.resetRegs fun r k => match r with
    | .TM_SHAPE4 => level == 1 && k == node
    | .TM_SHAPE3 => level == 0 && k == node
    | _ => false

/-- The resources are assigned and written to the registers of R400. -/
def Dev.assign (d : Dev) (p inst : Nat) (s : Shares) (cold : Bool) : Dev :=
  let d := (List.range 10).foldl (fun d k =>
    (d.put F.INST_RANGE_BASE (inst * 16 + k) (s.range k).1).put F.INST_RANGE_COUNT (inst * 16 + k) (s.range k).2) d
  let d := (d.put F.TM_INST_NODE_NODE inst s.node).put F.TM_INST_NODE_LEVEL inst s.level
  let d := (d.put F.TM_RQ_QUEUE_QUEUE inst s.rqq).put F.DMA_INST_CHAN_CHAN inst s.chan
  let d := d.put F.QE_INST_ARB_WEIGHT inst (if s.weight = 0 then 16 else s.weight)
  let d := d.wr .INST_SUB_CFG inst (setBits s.sub 63 1 (b2n (cold || bit s.sub 63)))
  let d := d.resetShape s.level s.node
  let d := (d.put F.TM_Q_CFG_PARENT s.rqq (d.get F.TM_HOST_NODE_NODE (d.portOfPf p))).enableNode 5 s.rqq
  { d with hst := { d.hst with live := d.hst.live ++ [inst] } }

/-- CREATE completes: the instance is CREATED. -/
def Dev.created (d : Dev) (p inst : Nat) (s : Shares) (cold : Bool) : Dev :=
  let d := if d.gen inst = 0 then d.put F.INST_STATE_GENERATION inst 1 else d
  let d := (d.assign p inst s cold).setInstX inst {}
  let d := ((d.resetViews inst).mbxReset inst).startBuckets inst
  d.put F.INST_STATE_STATE inst 2

/-- The status and KIND that refuse a CREATE, none where it succeeds (Table 17-5). -/
def Dev.createFault (d : Dev) (p inst : Nat) (s : Shares) : Option (Nat × Nat) :=
  if d.get F.INST_STATE_STATE inst = 0 then some (1, 0)
  else if d.pfOf inst ≠ p then some (2, 0)
  else if d.get F.INST_STATE_STATE inst ≠ 1 then some (3, 0)
  else if !d.ledgerRegion p then some (4, 0)
  else
    let pool := !d.isEqual p
    match if pool then d.shareFault p inst s else none with
    | some k => some (5, k)
    | none =>
      if d.saBusy (if pool then s else d.equalShares p inst s) then some (6, 3)
      else if 1023 < s.weight ∨ ¬ subCfgOk s.sub ∨ (pool = true ∧ 1 < s.level) then some (7, 0)
      else none

/-- CREATE (R400 to R402, R410). -/
def execCreate (p : Fin 4) (inst : Fin 2052) (cold : Bool) (sh : Shares) (s : State) : Res := s.window (.iw p) (.create p inst cold sh) fun d =>
  d.submit (.iw p) fun d =>
    match d.createFault p.val inst.val sh with
    | some (st, k) => d.iwDone p.val st inst.val k
    | none =>
      let sh := if d.isEqual p.val then d.equalShares p.val inst.val sh else sh
      (d.created p.val inst.val sh cold).iwDone p.val 0 inst.val

/-- The checks that every command on an existing instance makes; `states` are the states it may be in. -/
def Dev.iwFault (d : Dev) (p inst : Nat) (states : List Nat) : Option Nat :=
  let st := d.get F.INST_STATE_STATE inst
  if st = 0 then some 1 else if d.pfOf inst ≠ p then some 2 else if !states.contains st then some 3 else none

/-- ENABLE (R402): a CREATED instance is ENABLED. -/
def execEnable (p : Fin 4) (inst : Fin 2052) (s : State) : Res := s.window (.iw p) (.enable p inst) fun d =>
  d.submit (.iw p) fun d =>
    match d.iwFault p.val inst.val [2] with
    | some st => d.iwDone p.val st inst.val
    | none => (d.put F.INST_STATE_STATE inst.val 3).iwDone p.val 0 inst.val

/-- The window of a PF waits for the end of an instance's drain. -/
def Dev.iwWaits (d : Dev) (p : Fin 4) (inst opc : Nat) : Dev :=
  (d.setInstX inst { d.instX inst with window := some (p.val, opc) }).winBusy (.iw p)

/-- RESET (R403, R405): a reset point, or the wait for the drain in progress; HOLD is recorded either way. -/
def execReset (p : Fin 4) (inst : Fin 2052) (hold : Bool) (s : State) : Res := s.window (.iw p) (.reset p inst hold) fun d =>
  d.submit (.iw p) fun d =>
    match d.iwFault p.val inst.val [2, 3, 4] with
    | some st => d.iwDone p.val st inst.val
    | none =>
      let d := if d.get F.INST_STATE_STATE inst.val = 4 then d else d.instanceReset inst.val 4
      let d := if hold then d.put F.INST_STATE_HOLD inst.val 1 else d
      d.iwWaits p inst.val 3

/-- REMOVE (R405, R406): a reset point towards REMOVING, or DRAINING turned into it. -/
def execRemove (p : Fin 4) (inst : Fin 2052) (s : State) : Res := s.window (.iw p) (.remove p inst) fun d =>
  d.submit (.iw p) fun d =>
    match d.iwFault p.val inst.val [2, 3, 4] with
    | some st => d.iwDone p.val st inst.val
    | none =>
      let d := if d.get F.INST_STATE_STATE inst.val = 4 then d.put F.INST_STATE_STATE inst.val 5 else d.instanceReset inst.val 5
      d.iwWaits p inst.val 4

/-- DRAIN_END (R403): nothing tagged with the previous generation is left. -/
def execDrainEnd (inst : Fin 2052) (s : State) : Res := s.on fun d => d.onIsland 20 fun d => d.drainOver inst.val

/-- DRAIN_FORCED (R403): 2 ms after the reset point. -/
def execDrainForced (inst : Fin 2052) (s : State) : Res := s.on fun d => d.onIsland 20 fun d => d.drainForced inst.val

/-! ### IDE streams and BAR4 (R331, R441) -/

/-- What an IDE_KM request does to a stream: its keys are programmed, it starts, or it stops. -/
def Dev.ideKm (d : Dev) (x act : Nat) : Dev :=
  if act = 0 then d.put F.IDE_STREAM_KEY_SET x 1
  else if act = 1 then (if d.flag F.IDE_STREAM_KEY_SET x then d.put F.IDE_STREAM_ACTIVE x 1 else d)
  else (d.put F.IDE_STREAM_ACTIVE x 0).put F.IDE_STREAM_KEY_SET x 0

end Sys2Proof.Machine
end

