-- ==== Sys2Proof/Machine/QueueCmds.lean ====
section
/-!
DEFINITION. The commands of the queue engine (15): queue contexts, doorbells, slices, descriptors, payload and receive
queues.
-/
namespace Sys2Proof.Machine

/-- QUEUE_ENABLE (R349, R398): software writes ENABLE 1. -/
def execQueueEnable (q : BitVec 16) (s : State) : Res := s.on fun d =>
  d.onIsland 20 fun d => d.byWrite .QE_QCTX_CTL q.toNat fun d => d.enableQueue q.toNat

/-- QUEUE_DISABLE (R350): software writes ENABLE 0. -/
def execQueueDisable (q : BitVec 16) (s : State) : Res := s.on fun d =>
  d.onIsland 20 fun d => d.byWrite .QE_QCTX_CTL q.toNat fun d => d.disableQueue q.toNat

/-- QUEUE_STOPPED (R350). -/
def execQueueStopped (q : BitVec 16) (s : State) : Res := s.on fun d => d.onIsland 20 fun d => d.stopQueue q.toNat

/-- QUEUE_RESUME (R357): software sets RESUME with RESUME_INDEX. -/
def execQueueResume (q : BitVec 16) (idx : BitVec 32) (s : State) : Res := s.on fun d =>
  d.onIsland 20 fun d => d.byWrite .QE_QCTX_CTL q.toNat fun d =>
    (d.put F.QE_QCTX_CTL_RESUME_INDEX q.toNat idx.toNat).resumeQueue q.toNat idx.toNat

/-- DOORBELL_PI (R351 to R353): the write of a doorbell page whose TYPE is 0, or reserved; `whole` says that it is a single
64-bit write. -/
def execDoorbellPi (f : Fin 2052) (v : BitVec 64) (whole : Bool) (s : State) : Res := s.on fun d =>
  d.onIsland 20 fun d => d.doorbell f.val v.toNat whole

/-- DOORBELL_CQ (R351, R352, R371, R372): TYPE 1. -/
def execDoorbellCq (f : Fin 2052) (v : BitVec 64) (whole : Bool) (s : State) : Res := s.on fun d =>
  d.onIsland 20 fun d => d.doorbell f.val v.toNat whole

/-- DOORBELL_EQ (R351, R352, R372): TYPE 2. -/
def execDoorbellEq (f : Fin 2052) (v : BitVec 64) (whole : Bool) (s : State) : Res := s.on fun d =>
  d.onIsland 20 fun d => d.doorbell f.val v.toNat whole

/-- SLICE_VISIT (R358, R362 to R364). -/
def execSliceVisit (sl : Fin 4) (s : State) : Res := s.on fun d => d.onIsland 20 fun d => d.visit sl.val

/-- DESCRIPTOR_FETCH_COMPLETE (R355, R356): the next descriptors in index order have been read, or the list of the first
descriptor that waits for one. -/
def execDescriptorFetchComplete (q : BitVec 16) (ofList : Bool) (s : State) : Res := s.on fun d =>
  d.onIsland 20 fun d => if ofList then d.listRead q.toNat else d.descsRead q.toNat

/-- DESCRIPTOR_ACCEPT (R42, R359, R364). -/
def execDescriptorAccept (q : BitVec 16) (s : State) : Res := s.on fun d => d.onIsland 20 fun d => d.acceptDesc q.toNat

/-- PAYLOAD_LOAD_COMPLETE (R360). -/
def execPayloadLoadComplete (st : BitVec 48) (s : State) : Res := s.on fun d =>
  d.onIsland 20 fun d => d.payloadLoaded st.toNat

/-- HEAD_WRITE_BACK (R361). -/
def execHeadWriteBack (q : BitVec 16) (s : State) : Res := s.on fun d => d.onIsland 20 fun d => d.headWriteBack q.toNat

/-- CQ_ENABLE (R367): software writes ENABLE of a CQ. -/
def execCqEnable (c : BitVec 15) (on : Bool) (s : State) : Res := s.on fun d =>
  d.onIsland 20 fun d => d.byWrite .QE_CQCTX_CFG c.toNat fun d => d.setCq c.toNat on

/-- EQ_ENABLE (R367): software writes ENABLE of an EQ. -/
def execEqEnable (e : BitVec 12) (on : Bool) (s : State) : Res := s.on fun d =>
  d.onIsland 20 fun d => d.byWrite .QE_EQCTX_CFG e.toNat fun d => d.setEq e.toNat on

/-- SLICE_FAIL (R362, Table 21-5): a slice fails with QE_CTX_UE, SLICE_HANG or QE_PIPE_PARITY. -/
def execSliceFail (sl : Fin 4) (k : Fin 3) (s : State) : Res := s.on fun d =>
  d.onIsland 20 fun d =>
    let d := match k.val with | 0 => d.fault 1 5 20 sl.val | 1 => d.fault 4 0x0A 20 sl.val | _ => d.fault 5 7 20 sl.val
    d.sliceFails sl.val

/-- RQ_DELIVERY (R365): the copy that a host port's root has picked. -/
def execRqDelivery (h : Fin 2) (s : State) : Res := s.on fun d => d.onIsland 20 fun d => d.rqDeliver (32 + h.val)

/-- RQ_BUFFER_WAIT_EXPIRY (R365): 2 us have passed without enough buffers. -/
def execRqBufferWaitExpiry (h : Fin 2) (s : State) : Res := s.on fun d => d.onIsland 20 fun d => d.rqWaitOver (32 + h.val)

end Sys2Proof.Machine
end

