-- ==== Sys2Proof/Machine/Secure.lean ====
section
/-!
DEFINITION. IDE streams (R331) and the admission of BAR4 requests (R441, R562).
-/
namespace Sys2Proof.Machine

/-- Selective stream `x` of a port is trusted by fuse policy and established. -/
def Dev.trusted (d : Dev) (h x : Nat) : Bool :=
  x != 0 && d.flag F.IDE_STREAM_ACTIVE (h * 5 + x) && bit (d.fuseVal 4) (h * 4 + x)

/-- BAR4_REQUEST (R441): a request of function `f` for the secure window of PF `p`, on IDE stream `x` of its port (0 the link
stream), or outside IDE. The access of an admitted request is a command of its own. -/
def execBar4Request (f : Fin 2052) (p : Fin 4) (x : Option (Fin 5)) (isWrite : Bool) (s : State) : Res := s.on fun d =>
  d.onIsland 20 fun d =>
    let h := d.hostPortOf f.val
    let lc := d.get F.FUSE_STATUS_LC
    let ok := f.val == p.val && lc != 0 && lc != 3 && (match x with | some k => d.trusted h k.val | none => false)
    if ok then d
    else
      let d := (d.count .STM_SEC_REFUSED).fault 10 1 24 f.val
      if isWrite then d else d.emit (.pcie h 3 [f.val, 2, 0])

/-- IDE_KM_MESSAGE (R331): the keys of a stream are programmed (0), it starts (1), or it stops (2). TRUSTED shows fuse
policy. -/
def execIdeKmMessage (h : Fin 2) (x : Fin 5) (act : Fin 3) (s : State) : Res := s.on fun d =>
  d.onIsland 20 fun d =>
    let k := h.val * 5 + x.val
    let d := d.ideKm k act.val
    d.put F.IDE_STREAM_TRUSTED k (b2n (x.val != 0 && bit (d.fuseVal 4) (h.val * 4 + x.val)))

end Sys2Proof.Machine
end

