-- ==== Sys2Proof/Machine/Start.lean ====
section
/-!
DEFINITION. The start sequence (25, Table 25-3) from step 3 on: the config region (R587, R588, R408), the subordinate loads, the Chrysalis
ports, HBM and pods, the service switch, retraining and RUN.
-/
namespace Sys2Proof.Machine

/-- Step `k` + 1 of Table 25-3, where steps up to `k` are done: the running firmware acts. -/
def Dev.startStep (d : Dev) (k : Nat) (f : Dev → Dev) : Dev :=
  d.onIsland 24 fun d => if d.stw.running && d.stw.start.step == k && !d.halted then f d else d

/-- Steps up to `k` are done. -/
def Dev.stepDone (d : Dev) (k : Nat) : Dev := d.setStart fun x => { x with step := k }

/-- BOOTMODE (Table 25-1). -/
def Dev.bootMode (d : Dev) : Nat := d.get F.RST_STRAPS_BOOTMODE

/-! ### The config region (R587, R588) -/

/-- The instar that runs. -/
def Dev.instar (d : Dev) : Nat := d.get F.STM_FW_STATUS_RUN_INSTAR

/-- The record in force of a TYPE and KEY: none where the ones at or below the running instar are older than MIGRATE_FROM. -/
def Dev.recordOf (d : Dev) (ty key : Nat) : Option Record :=
  match d.stw.flash.recordFor d.instar ty key with
  | some r => if r.instar < d.stw.from_ then none else some r
  | none => none

/-- A record of a TYPE and KEY at start: one of an older instar is converted and written with the running one; with none that serves,
RECORD_MIGRATE_FAIL. -/
def Dev.loadRecord (d : Dev) (ty key : Nat) : Dev :=
  match d.recordOf ty key with
  | none => d.fault 3 8 24 ty key
  | some r =>
    if r.instar = d.instar then d
    else d.setFlash (d.stw.flash.append { type := ty, instar := d.instar, key := key, data := Config.convertRecord r.instar d.instar ty r.data })

/-- The TYPEs and KEYs of the live records. -/
def Flash.recordKeys (x : Flash) : List (Nat × Nat) := ((x.log.filter (·.live)).map fun r => (r.type, r.key)).eraseDups

/-- The records in force of a TYPE, by KEY, in the order of the log. -/
def Dev.recordsOf (d : Dev) (ty : Nat) : List Record :=
  ((d.stw.flash.recordKeys.filter (·.1 == ty)).filterMap fun k => d.recordOf ty k.2)

/-- The config region is read: the settings in force, and its bytes as applied (R574). In CONFIG_DEFAULT it is ignored. -/
def Dev.readConfig (d : Dev) : Dev :=
  let d := d.stw.flash.recordKeys.foldl (fun d k => d.loadRecord k.1 k.2) d
  let cfg : Tbl (List Nat) := (d.recordsOf 1).foldl (fun t r => t.set r.key r.data) {}
  let bytes := ([1, 2, 3, 4].map fun ty => (d.recordsOf ty).flatMap (·.data)).flatten
  { d with stw := { d.stw with cfg := cfg, applied := if d.bootMode = 2 then [] else bytes } }

/-- A setting of the config region in force at this start: none where it is absent, not valid or ignored. -/
def Dev.setting (d : Dev) (item key : Nat) : Option (List Nat) :=
  let v := d.stw.cfg.get key
  if d.bootMode = 2 || v.isEmpty || d.cfgBad item v then none else some v

/-! ### Allotments (R408, Table 17-6) -/

/-- The existing PFs. -/
def Dev.pfs (d : Dev) : Nat := if d.flag F.RST_STRAPS_HOSTBIF then 4 else 2

/-- The device total of a kind. -/
def Dev.kindTotal (d : Dev) (k : Nat) : Nat :=
  match k with
  | 7 => d.get F.BUF_POOL_CFG_HOST_CELLS
  | 9 => (d.get F.BUF_HBM_PARTITION_ACTIVE_GIB - 1) * 1024
  | _ => [65536, 32768, 4096, 65536, 16384, 16384, 131072, 0, 1024, 0].getD k 0

/-- COUNT and reserve of a kind of a PF. -/
def Dev.allotOf (d : Dev) (p k : Nat) : Nat × Nat :=
  match d.setting 3 (3 + 0x10000 * p) with
  | some v => (leNat (slice v (4 + 8 * k) 4), leNat (slice v (8 + 8 * k) 4))
  | none =>
    let c := d.kindTotal k / d.pfs
    (c, c / 16 / kindGranule k * kindGranule k)

/-- The allotments of the PFs. -/
def Dev.loadAllots (d : Dev) : Dev :=
  (List.range d.pfs).foldl (fun (d : Dev) p =>
    let mode := match d.setting 3 (3 + 0x10000 * p) with | some v => v.getD 1 0 | none => 0
    let node := match d.setting 3 (3 + 0x10000 * p) with | some v => leNat (slice v 2 2) | none => p * 16384 / d.pfs
    let d := (d.put F.INST_PF_MODE_EQUAL p mode).put F.INST_EQUAL_NODE_NODE p node
    (List.range 10).foldl (fun (d : Dev) k =>
      let base := if 7 ≤ k then 0 else ((List.range p).map fun q => (d.allotOf q k).1).foldl (· + ·) 0
      let a := d.allotOf p k
      ((d.put F.INST_PF_ALLOT_BASE (p * 16 + k) base).put F.INST_PF_ALLOT_COUNT (p * 16 + k) a.1).put F.INST_EQUAL_RSV_COUNT (p * 16 + k) a.2) d) d

/-! ### Step 3 (R544, R29, R265) -/

/-- The HBM split of the config region comes into force. -/
def Dev.applySplit (d : Dev) : Dev :=
  let d := match d.setting 1 1 with | some v => d.put F.BUF_HBM_PARTITION_TABLE_GIB 0 (v.getD 0 0) | none => d
  d.put F.BUF_HBM_PARTITION_ACTIVE_GIB 0 (d.get F.BUF_HBM_PARTITION_TABLE_GIB)

/-- Admission settings that leave a shared pool below 16,384 cells are dropped for the reset values (R265). -/
def Dev.checkAdmission (d : Dev) : Dev :=
  if 16384 ≤ d.sharedPool then d
  else
    let d := (List.range 288).foldl (fun (d : Dev) i => d.wr .BUF_IAP_CFG i (Reg.reset .BUF_IAP_CFG i)) d
    (d.wr .BUF_POOL_CFG 0 (Reg.reset .BUF_POOL_CFG 0)).fault 3 2 24

/-- Each LOCK is set. -/
def Dev.setLocks (d : Dev) : Dev :=
  let d := ((d.put F.BUF_HBM_PARTITION_LOCK 0 1).put F.BUF_ADM_LOCK_LOCK 0 1).put F.TABLE_T1_CFG_LOCK 0 1
  let d := ((d.put F.FCOL_LOCK_LOCK 0 1).put F.GRP_CFG_LOCK 0 1).put F.EYE_CTL_LOCK 0 1
  let d := (List.range 2).foldl (fun d h => d.put F.HOST_PORT_CFG_LOCK h 1) d
  let d := (List.range 64).foldl (fun d c => d.put F.DMA_CHAN_CFG_LOCK c 1) d
  (List.range 4).foldl (fun d p => d.put F.MGT_I2C_CFG_LOCK p 1) d

/-- CONFIG_APPLY (R544): start step 3. `settings` are the registers that the config region gives beside the settings of CFG_SET:
register, element, value. -/
def execConfigApply (settings : List (Reg × Nat × BitVec 64)) (s : State) : Res := s.on fun d => d.startStep 2 fun d =>
  let d := d.readConfig
  let d := if d.bootMode = 2 then d else settings.foldl (fun d x => d.regWrite .steward x.1 x.2.1 x.2.2.toNat 0xFF []) d
  let d := match d.setting 2 2 with
    | some v => { d with hst := { d.hst with allot := (List.range 4).map fun k => leNat (slice v (2 * k) 2) } }
    | none => { d with hst := { d.hst with allot := [] } }
  d.applySplit.checkAdmission.loadAllots.setLocks.railsStart.stepDone 3

/-! ### Steps 4 to 7 -/

/-- MICROCODE_LOAD (R545): start step 4, the SerDes adaptation microcode. -/
def execMicrocodeLoad (s : State) : Res := s.on fun d => d.startStep 3 fun d => d.loads 2 fun d => d.stepDone 4

/-- PORT_RELEASE (R347): start step 5, milestone 2. -/
def execPortRelease (s : State) : Res := s.on fun d => d.startStep 4 fun d =>
  let d := (List.range 2).foldl (fun d h => d.setHport h { d.hport h with released := true }) d
  (d.stepDone 5).milestone 2

/-- A copy of the Chrysalis table (R598): none where its header or CRC is not valid. -/
def Flash.chryCopy (x : Flash) (k : Nat) : Option (Nat × Chry) :=
  let base := 0x8D00000 + k * 0x100000
  let h := x.read base 64
  let w (o n : Nat) : Nat := leNat (slice h o n)
  let n4 := w 12 2
  let n6 := w 14 2
  let nm := w 16 2
  if w 0 4 ≠ 0x4359444D ∨ w 4 2 ≠ 1 ∨ 8192 < n4 ∨ 4096 < n6 ∨ 4096 < nm then none
  else
    let b := x.read (base + 64) (64 + n4 * 16 + n6 * 32 + nm * 24)
    let f (o n : Nat) : Nat := leNat (slice b o n)
    let o4 := 64
    let o6 := o4 + n4 * 16
    let om := o6 + n6 * 32
    if crc32c b ≠ w 20 4 then none
    else some (w 8 4,
      { ports := (List.range 4).map fun j => if f (16 * j + 1) 1 = 1 ∧ f (16 * j) 1 < 32 then
                   some { lane := f (16 * j) 1, mac := beNat (slice b (16 * j + 4) 6) } else none,
        v4 := (List.range n4).map fun i => let o := o4 + 16 * i
                { key := beNat (slice b o 4), plen := f (o + 4) 1, egress := f (o + 5) 1, vlan := f (o + 6) 2, dmac := beNat (slice b (o + 8) 6) },
        v6 := (List.range n6).map fun i => let o := o6 + 32 * i
                { key := beNat (slice b o 16), plen := f (o + 16) 1, egress := f (o + 17) 1, vlan := f (o + 18) 2, dmac := beNat (slice b (o + 20) 6) },
        mpls := (List.range nm).map fun i => let o := om + 24 * i
                { key := f o 4 % 2 ^ 20, plen := 20, egress := f (o + 8) 1, vlan := f (o + 10) 2, dmac := beNat (slice b (o + 12) 6),
                  label := f (o + 4) 4 % 2 ^ 20 } })

/-- The Chrysalis table in use: the valid copy with the higher SEQ; no ports in NO_CHRYSALIS and CONFIG_DEFAULT. -/
def Dev.chryTable (d : Dev) : Chry :=
  if d.bootMode = 1 ∨ d.bootMode = 2 then {}
  else match d.stw.flash.chryCopy 0, d.stw.flash.chryCopy 1 with
    | some a, some b => if a.1 < b.1 then b.2 else a.2
    | some a, none => a.2
    | none, some b => b.2
    | none, none => {}

/-- The lanes of the Chrysalis ports. -/
def Chry.lanes (x : Chry) : List Nat := x.ports.filterMap fun p => p.map (·.lane)

/-- A group that holds a Chrysalis port runs in PER_LANE mode with only those lanes enabled, at 25G without flow control (R546). -/
def Dev.chryGroup (d : Dev) (n : Nat) : Dev :=
  let l := d.stw.chry.lanes
  if !l.any fun x => x / 8 == n then d
  else
    let d := (List.range 8).foldl (fun (d : Dev) i =>
      let p := 8 * n + i
      let v := setBits (setBits (d.rd .NET_PORT_CFG p) 0 1 (b2n (l.contains p))) 10 4 0
      d.portCfgWrite p (if l.contains p then setBits v 1 3 2 else v) 0xFF []) d
    d.groupCfgWrite n (setBits (d.rd .NET_GROUP_CFG n) 0 4 6) 15

/-- CHRYSALIS_START (R546): start steps 6 and 7; with no Chrysalis port only the microcode is loaded. -/
def execChrysalisStart (s : State) : Res := s.on fun d => d.startStep 5 fun d => d.loads 4 fun d =>
  let x := d.chryTable
  let d : Dev := { d with stw := { d.stw with chry := x } }
  let d := (d.stepDone 7).put F.RST_START_PHASE 0 3
  if x.lanes.isEmpty then d
  else (((List.range 4).foldl (fun d n => d.chryGroup n) d).put F.RST_CHRY_STATUS_ACTIVE 0 1).milestone 3

/-! ### Steps 8 and 9 -/

/-- HBM_TRAINING (R544): start step 8. `failed` names the pseudo-channels that do not train; with none left the start stays where it
is. -/
def execHbmTraining (failed : BitVec 64) (s : State) : Res := s.on fun d => d.startStep 7 fun d =>
  if d.get F.FCOL_PC_RETIRED_PCS = 2 ^ 64 - 1 then d
  else d.loads 3 fun d =>
    let d := (List.range 64).foldl (fun (d : Dev) pc => if failed.getLsbD pc then (d.retirePc pc []).fault 2 0x0B 21 pc else d) d
    if d.get F.FCOL_PC_RETIRED_PCS = 2 ^ 64 - 1 then d else (d.stepDone 8).milestone 4

/-- A descriptor of the config region is created; one that has no storage is UNFIT (R172). -/
def Dev.startDesc (d : Dev) (n img cap : Nat) : Dev :=
  let r := d.descCreate n img cap false
  if r.2 = tNO_SPACE then (d.writeDesc n img cap true).fault 3 1 22 n else r.1

/-- The images of the config region, with their KEY and loader: the PF of a binding that names them. -/
def Dev.loadImages (d : Dev) : Dev :=
  (d.recordsOf 2).foldl (fun (d : Dev) r =>
    let owner := match (d.recordsOf 3).find? fun b => b.data.length != 0 && leNat (slice b.data 0 4) == r.key with
      | some b => if b.data.getD 4 0 = 1 then d.pfOf (leNat (slice b.data 5 2)) else 0
      | none => 0
    match d.loadImage owner r.data with
    | some (_, d) => d
    | none => d) d

/-- The loaded image whose DIGEST begins with a KEY. -/
def Dev.imageOfKey (d : Dev) (k : Nat) : Option (Nat × ProgImage) := d.images.find? fun x => leNat ((imageDigest x.2.bytes).take 4) == k

/-- The slot bindings of the config region come into force. -/
def Dev.loadBindings (d : Dev) : Dev :=
  (d.recordsOf 3).foldl (fun (d : Dev) r =>
    if r.data.isEmpty then d
    else match d.imageOfKey (leNat (slice r.data 0 4)) with
      | none => d
      | some (id, x) => match x.entries.find? (·.slot == r.key) with
        | none => d
        | some e => d.switchSlot r.key (some (versionOf id x.owner x e (leNat (slice r.data 5 2)) (slice r.data 7 256)))) d

/-- The group settings of the config region: the encoding, where it is valid. -/
def Dev.groupRecord (d : Dev) : List Nat :=
  match d.recordOf 4 0 with
  | some r => if (encBreach r.data r.data.length).isNone then r.data else []
  | none => []

/-- The descriptors of the config region, the group's and the local ones, in ascending number (R172). -/
def Dev.loadDescs (d : Dev) (l : List (Nat × Nat × Nat)) : Dev :=
  let g := grpRecs d.groupRecord
  (List.range 1024).foldl (fun (d : Dev) n =>
    match g.find? fun r => grpDesc r == n with
    | some r =>
      ((d.startDesc n (grpImg r) (grpCap r)).put F.TABLE_AGE_CFG_LIMIT n (r.getD 13 0)).put F.TABLE_AGE_CFG_PERIOD_MS n (leNat (slice r 14 2))
    | none => match l.find? (·.1 == n) with
      | some x => d.startDesc n x.2.1 x.2.2
      | none => d) d

/-- POD_LOAD (R544, R172): start step 9. `descs` are the local descriptors of the config region: number, DESC_CFG image, CAPACITY. A pod
that is PARKED is loaded when it runs (R528). -/
def execPodLoad (descs : List (Fin 1024 × BitVec 64 × BitVec 64)) (s : State) : Res := s.on fun d => d.startStep 8 fun d => d.loads 5 fun d =>
  let keep := d.bootMode ≠ 2
  let d := if keep then d.loadImages else d
  let d := if keep then d.loadBindings else d
  let d := (List.range 16).foldl (fun (d : Dev) p => if d.isUp p && d.get F.POD_PARK_CTL_STATE p != 2 then d.loadPod p else d) d
  let d := if keep then d.loadDescs (descs.map fun x => (x.1.val, x.2.1.toNat, x.2.2.toNat)) else d
  let d := if keep ∧ d.groupRecord ≠ [] then d.grpSettings d.groupRecord else d
  (d.stepDone 9).milestone 5

/-! ### Steps 10 to 12 -/

/-- SERVICE_SWITCH (R547): start step 10, milestone 6. -/
def execServiceSwitch (s : State) : Res := s.on fun d => d.startStep 9 fun d =>
  (((d.put F.RST_CHRY_STATUS_ACTIVE 0 0).put F.RST_START_PHASE 0 4).stepDone 10).milestone 6

/-- Every port of a group that is in use is UP or DEGRADED. -/
def Dev.groupUp (d : Dev) (n : Nat) : Bool :=
  (List.range 8).all fun i => d.portLanes (8 * n + i) == 0 || !d.flag F.NET_PORT_CFG_ENABLE (8 * n + i) || d.portUp (8 * n + i)

/-- The retraining of the group before `n` is over, and the next is due. -/
def Dev.groupDue (d : Dev) (n : Nat) : Bool :=
  let x := d.stw.start
  (x.group == n && x.retrain.isNone) || (x.group + 1 == n && x.retrain.isSome && d.groupUp x.group)

/-- RETRAIN_GROUP (R548): a group takes its configured mode (`v`, GROUP_CFG) and its ports their PORT_CFG. -/
def execRetrainGroup (n : Fin 4) (v : BitVec 32) (ports : List (BitVec 64)) (s : State) : Res := s.on fun d => d.startStep 10 fun d =>
  if !d.groupDue n.val then d
  else
    let keep (p : Option ChryPort) : Option ChryPort := match p with | some c => if c.lane / 8 = n.val then none else some c | none => none
    let d : Dev := { d with stw := { d.stw with chry := { d.stw.chry with ports := d.stw.chry.ports.map keep } } }
    let d := if d.bootMode = 2 then d
      else
        let d := d.groupCfgWrite n.val v.toNat 15
        (List.range 8).foldl (fun (d : Dev) i => match ports[i]? with
          | some w => d.portCfgWrite (8 * n.val + i) w.toNat 0xFF []
          | none => d) d
    d.setStart fun x => { x with group := n.val, retrain := some (d.mono + 310000000) }

/-- RETRAIN_TIMEOUT (R548): 310 ms have passed. -/
def execRetrainTimeout (s : State) : Res := s.on fun d => d.startStep 10 fun d =>
  match d.stw.start.retrain with
  | none => d
  | some t => (d.reach t).setStart fun x => { x with group := x.group + 1, retrain := none }

/-- RUN_ENTRY (R544, R522): start step 12, once every group has been retrained. -/
def execRunEntry (s : State) : Res := s.on fun d => d.startStep 10 fun d =>
  if !d.groupDue 4 then d
  else
    let d := (d.setStart fun x => { x with group := 4, retrain := none }).stepDone 12
    let d : Dev := { d with stw := { d.stw with runAt := some d.mono } }
    ((d.put F.RST_START_PHASE 0 5).powerState 3).milestone 7

/-! ### Chrysalis forwarding (R546) -/

/-- Sum in one's complement of 16 bits. -/
def ones16 (a b : Nat) : Nat := let s := a % 65536 + b % 65536; s % 65536 + s / 65536

/-- An internet checksum after a word has changed (RFC 1624). -/
def chkChange (c old new : Nat) : Nat := 65535 - ones16 (ones16 (65535 - c % 65536) (65535 - old % 65536)) new

/-- The route of longest prefix for an address of `w` bits. -/
def lpmBest (l : List ChryRoute) (w key : Nat) : Option ChryRoute :=
  (l.filter fun r => decide (r.plen ≤ w) && r.key / 2 ^ (w - r.plen) == key / 2 ^ (w - r.plen)).foldl (fun a r => match a with
    | none => some r
    | some b => if b.plen < r.plen then some r else some b) none

/-- The IPv6 next headers that are extension headers. -/
def v6Ext : List Nat := [0, 43, 44, 50, 51, 60, 135, 139, 140]

/-- The lookup and rewrite of what follows the tags: the route and the new bytes; none where the path refuses the frame. -/
def Chry.route (x : Chry) (ety : Nat) (b : List Nat) : Option (ChryRoute × List Nat) :=
  let at_ (i : Nat) : Nat := b.getD i 0
  match ety with
  | 0x0800 =>
    let ttl := at_ 8
    if b.length < 20 ∨ at_ 0 ≠ 0x45 ∨ ttl ≤ 1 then none
    else
      let c := chkChange (beNat (slice b 10 2)) (ttl * 256 + at_ 9) ((ttl - 1) * 256 + at_ 9)
      (lpmBest x.v4 32 (beNat (slice b 16 4))).map fun r => (r, splice (splice b 8 [ttl - 1]) 10 (toBe 2 c))
  | 0x86DD =>
    if b.length < 40 ∨ at_ 0 / 16 ≠ 6 ∨ at_ 7 ≤ 1 ∨ v6Ext.contains (at_ 6) then none
    else (lpmBest x.v6 128 (beNat (slice b 24 16))).map fun r => (r, splice b 7 [at_ 7 - 1])
  | 0x8847 =>
    let w := beNat (slice b 0 4)
    if b.length < 4 ∨ w % 256 ≤ 1 then none
    else (x.mpls.find? fun r => r.key == w / 4096).map fun r => (r, toBe 4 (r.label * 4096 + w / 256 % 16 * 256 + (w % 256 - 1)) ++ b.drop 4)
  | _ => none

/-- An EtherType is that of a VLAN tag. -/
def isTag (e : Nat) : Bool := e == 0x8100 || e == 0x88A8

/-- The frame that the Chrysalis path forwards and its egress port: DA, SA and the outer VLAN tag are rewritten; none where it refuses the
frame. -/
def Chry.forward (x : Chry) (b : List Nat) : Option (ChryPort × List Nat) :=
  let e0 := beNat (slice b 12 2)
  let e1 := beNat (slice b 16 2)
  let tags := if isTag e0 then (if isTag e1 then 2 else 1) else 0
  let off := 14 + 4 * tags
  match x.route (beNat (slice b (12 + 4 * tags) 2)) (b.drop off) with
  | none => none
  | some (r, body) => match (x.ports[r.egress]?).getD none with
    | none => none
    | some p =>
      let tci := if tags = 0 then 0 else beNat (slice b 14 2) / 4096 * 4096
      let tag := if bit r.vlan 15 then toBe 2 (if tags = 0 then 0x8100 else e0) ++ toBe 2 (tci + r.vlan % 4096) else []
      let rest := if tags = 2 then slice b 16 4 else []
      some (p, toBe 6 r.dmac ++ toBe 6 p.mac ++ tag ++ rest ++ toBe 2 (beNat (slice b (12 + 4 * tags) 2)) ++ body)

/-- CHRYSALIS_FORWARD (R546): an item of the Chrysalis path is looked up and forwarded, or disposed NO_VERDICT. -/
def execChrysalisForward (st : BitVec 48) (s : State) : Res := s.on fun d => d.onIsland 21 fun d => d.onIsland 22 fun d =>
  match d.item st.toNat with
  | none => d
  | some x =>
    if !x.chry || x.pst != .loading || x.disp.isSome || d.halted then d
    else
      let go := match d.stw.chry.forward x.data with | some r => if d.portUp r.1.lane then some r else none | none => none
      match go with
      | none => (d.count .RST_CHRY_UNFWD).dispose st.toNat 1 1
      | some (p, b) =>
        let k : Copy := { dest := chryQueue p.lane, dtype := 0, len := b.length }
        let d := d.setItem st.toNat { x with data := b, committed := true, pst := .complete, copies := [k] }
        (d.count .RST_CHRY_FWD).releaseKey x.tok.okey

end Sys2Proof.Machine
end

