-- ==== Sys2Proof/Machine/Dispatch.lean ====
section
/-!
DEFINITION. The dispatch: one arm per command, each a direct call of the command's own meaning. A command not yet
modelled is rejected by its mnemonic.
-/
namespace Sys2Proof.Machine

def exec (i : Instr) (s : State) : Host.Outcome State Fault Refusal :=
  match i with
  | .registerWrite q t v be hw => Sys2Proof.Machine.execRegisterWrite q t v be hw s
  | .rcRead q pod j => Sys2Proof.Machine.execRcRead q pod j s
  | .halfReadLow q t => Sys2Proof.Machine.execHalfReadLow q t s
  | .halfReadHigh q t => Sys2Proof.Machine.execHalfReadHigh q t s
  | .halfWriteLow q t v => Sys2Proof.Machine.execHalfWriteLow q t v s
  | .halfWriteHigh q t v => Sys2Proof.Machine.execHalfWriteHigh q t v s
  | .resultAck w ack => Sys2Proof.Machine.execResultAck w ack s
  | .reservedAccess f isWrite => Sys2Proof.Machine.execReservedAccess f isWrite s
  | .epochSwitchRequest q => Sys2Proof.Machine.execEpochSwitchRequest q s
  | .epochPeriodExpiry => Sys2Proof.Machine.execEpochPeriodExpiry s
  | .epochSwitchInstant => Sys2Proof.Machine.execEpochSwitchInstant s
  | .epochClose => Sys2Proof.Machine.execEpochClose s
  | .counterUpdate c ix n issued => Sys2Proof.Machine.execCounterUpdate c ix n issued s
  | .reqToIslandInReset th tk => Sys2Proof.Machine.execReqToIslandInReset th tk s
  | .discardToIslandInReset a => Sys2Proof.Machine.execDiscardToIslandInReset a s
  | .sequenceGap src dst cls => Sys2Proof.Machine.execSequenceGap src dst cls s
  | .routerDeclaredFailed r lost => Sys2Proof.Machine.execRouterDeclaredFailed r lost s
  | .rerouteHoldExpiry r => Sys2Proof.Machine.execRerouteHoldExpiry r s
  | .pseudoChannelRetire pc copies entries => Sys2Proof.Machine.execPseudoChannelRetire pc copies entries s
  | .structureRebuild pc => Sys2Proof.Machine.execStructureRebuild pc s
  | .frameReceive p bytes ts badPre cut ovr => Sys2Proof.Machine.execFrameReceive p bytes ts badPre cut ovr s
  | .segmentAdmit iap => Sys2Proof.Machine.execSegmentAdmit iap s
  | .tokenDispatch st => Sys2Proof.Machine.execTokenDispatch st s
  | .tokenBind p => Sys2Proof.Machine.execTokenBind p s
  | .tokenReissue st => Sys2Proof.Machine.execTokenReissue st s
  | .commitMessage k => Sys2Proof.Machine.execCommitMessage k s
  | .batchTimeoutDiscard st => Sys2Proof.Machine.execBatchTimeoutDiscard st s
  | .effectApply k ack => Sys2Proof.Machine.execEffectApply k ack s
  | .effectResend k => Sys2Proof.Machine.execEffectResend k s
  | .lifetimeExpiry st => Sys2Proof.Machine.execLifetimeExpiry st s
  | .lifetimeSweep => Sys2Proof.Machine.execLifetimeSweep s
  | .portHoldExpiry st c => Sys2Proof.Machine.execPortHoldExpiry st c s
  | .schedulerPick r => Sys2Proof.Machine.execSchedulerPick r s
  | .copySent p ts ue => Sys2Proof.Machine.execCopySent p ts ue s
  | .prefetch q => Sys2Proof.Machine.execPrefetch q s
  | .pauseFrameReceived p op vec qs => Sys2Proof.Machine.execPauseFrameReceived p op vec qs s
  | .pauseExpiry p c => Sys2Proof.Machine.execPauseExpiry p c s
  | .pauseFrameSend p => Sys2Proof.Machine.execPauseFrameSend p s
  | .pauseRepeat p => Sys2Proof.Machine.execPauseRepeat p s
  | .pfcStorm p c => Sys2Proof.Machine.execPfcStorm p c s
  | .groupModeWrite n v => Sys2Proof.Machine.execGroupModeWrite n v s
  | .portUp p => Sys2Proof.Machine.execPortUp p s
  | .laneFaultDegrade n k => Sys2Proof.Machine.execLaneFaultDegrade n k s
  | .degradeTimeout p => Sys2Proof.Machine.execDegradeTimeout p s
  | .restore p => Sys2Proof.Machine.execRestore p s
  | .moduleInsertion p found => Sys2Proof.Machine.execModuleInsertion p found s
  | .signalDetect n k => Sys2Proof.Machine.execSignalDetect n k s
  | .lossOfSignal n k => Sys2Proof.Machine.execLossOfSignal n k s
  | .adaptComplete n k => Sys2Proof.Machine.execAdaptComplete n k s
  | .histReject n k => Sys2Proof.Machine.execHistReject n k s
  | .polarityAlternate n k => Sys2Proof.Machine.execPolarityAlternate n k s
  | .pcsLock n k => Sys2Proof.Machine.execPcsLock n k s
  | .lockFail n k => Sys2Proof.Machine.execLockFail n k s
  | .historySave n k coeff => Sys2Proof.Machine.execHistorySave n k coeff s
  | .laneCfgWrite n k v => Sys2Proof.Machine.execLaneCfgWrite n k v s
  | .prbsEnable n k v => Sys2Proof.Machine.execPrbsEnable n k v s
  | .prbsDisable n k => Sys2Proof.Machine.execPrbsDisable n k s
  | .marginRefresh n k hl hr vt vb => Sys2Proof.Machine.execMarginRefresh n k hl hr vt vb s
  | .eyeScan n lane eye h v dwell => Sys2Proof.Machine.execEyeScan n lane eye h v dwell s
  | .eyeScanComplete n err cmp => Sys2Proof.Machine.execEyeScanComplete n err cmp s
  | .elEnable l v => Sys2Proof.Machine.execElEnable l v s
  | .blockLock l j inv => Sys2Proof.Machine.execBlockLock l j inv s
  | .linkMap l l0 l1 l2 l3 member link => Sys2Proof.Machine.execLinkMap l l0 l1 l2 l3 member link s
  | .mapRetry l => Sys2Proof.Machine.execMapRetry l s
  | .linkDeskew l skew => Sys2Proof.Machine.execLinkDeskew l skew s
  | .qualCountdown l => Sys2Proof.Machine.execQualCountdown l s
  | .qualWindowEnd l e0 e1 e2 e3 => Sys2Proof.Machine.execQualWindowEnd l e0 e1 e2 e3 s
  | .linkActive l => Sys2Proof.Machine.execLinkActive l s
  | .qualFail l => Sys2Proof.Machine.execQualFail l s
  | .failedRetry l => Sys2Proof.Machine.execFailedRetry l s
  | .erruicMessageReceive l b badSync badBlock => Sys2Proof.Machine.execErruicMessageReceive l b badSync badBlock s
  | .creditBlockReceive l b => Sys2Proof.Machine.execCreditBlockReceive l b s
  | .acknReceive l b => Sys2Proof.Machine.execAcknReceive l b s
  | .creditSend l => Sys2Proof.Machine.execCreditSend l s
  | .acknSend l => Sys2Proof.Machine.execAcknSend l s
  | .replayTimeout l => Sys2Proof.Machine.execReplayTimeout l s
  | .erruicLinkDown l => Sys2Proof.Machine.execErruicLinkDown l s
  | .shaperEnable lv n => Sys2Proof.Machine.execShaperEnable lv n s
  | .lookupRequest th tk lines => Sys2Proof.Machine.execLookupRequest th tk lines s
  | .fillReturn line => Sys2Proof.Machine.execFillReturn line s
  | .walkComplete w pick ue => Sys2Proof.Machine.execWalkComplete w pick ue s
  | .lookupUnitFault u applied lines => Sys2Proof.Machine.execLookupUnitFault u applied lines s
  | .t1CfgWrite v => Sys2Proof.Machine.execT1CfgWrite v s
  | .remoteRequest m id q lines => Sys2Proof.Machine.execRemoteRequest m id q lines s
  | .remoteResponse id a lines => Sys2Proof.Machine.execRemoteResponse id a lines s
  | .remoteTimeout id => Sys2Proof.Machine.execRemoteTimeout id s
  | .insert w n plen prio arg => Sys2Proof.Machine.execInsert w n plen prio arg s
  | .modify w n rst plen prio arg => Sys2Proof.Machine.execModify w n rst plen prio arg s
  | .delete w n plen prio arg => Sys2Proof.Machine.execDelete w n plen prio arg s
  | .read w n plen prio arg => Sys2Proof.Machine.execRead w n plen prio arg s
  | .readHandle w n handle => Sys2Proof.Machine.execReadHandle w n handle s
  | .modifyHandle w n rst arg => Sys2Proof.Machine.execModifyHandle w n rst arg s
  | .deleteHandle w n handle => Sys2Proof.Machine.execDeleteHandle w n handle s
  | .cntRead w n clr handle => Sys2Proof.Machine.execCntRead w n clr handle s
  | .descCreate w n img cap => Sys2Proof.Machine.execDescCreate w n img cap s
  | .descDestroy w n => Sys2Proof.Machine.execDescDestroy w n s
  | .descParam w n age learn => Sys2Proof.Machine.execDescParam w n age learn s
  | .lookup w n arg => Sys2Proof.Machine.execLookup w n arg s
  | .bulkBatch p recs fin bytes => Sys2Proof.Machine.execBulkBatch p recs fin bytes s
  | .bulkBatchTimeout p k => Sys2Proof.Machine.execBulkBatchTimeout p k s
  | .agingVisit n ix => Sys2Proof.Machine.execAgingVisit n ix s
  | .saCreate w sa img ue => Sys2Proof.Machine.execSaCreate w sa img ue s
  | .saDestroy w sa ue => Sys2Proof.Machine.execSaDestroy w sa ue s
  | .saRetireComplete sa => Sys2Proof.Machine.execSaRetireComplete sa s
  | .saRead w sa ue => Sys2Proof.Machine.execSaRead w sa ue s
  | .keyLoadWrapped w slot kek wrap ue => Sys2Proof.Machine.execKeyLoadWrapped w slot kek wrap ue s
  | .keyZero w slot ue => Sys2Proof.Machine.execKeyZero w slot ue s
  | .keyInfo w slot ue => Sys2Proof.Machine.execKeyInfo w slot ue s
  | .cryptoVerdict th tk ue => Sys2Proof.Machine.execCryptoVerdict th tk ue s
  | .connCfgWrite c v => Sys2Proof.Machine.execConnCfgWrite c v s
  | .resyncArm c seq => Sys2Proof.Machine.execResyncArm c seq s
  | .cidFetchComplete c cid => Sys2Proof.Machine.execCidFetchComplete c cid s
  | .rqDelivery h => Sys2Proof.Machine.execRqDelivery h s
  | .rqBufferWaitExpiry h => Sys2Proof.Machine.execRqBufferWaitExpiry h s
  | .perstAssert h => Sys2Proof.Machine.execPerstAssert h s
  | .perstDeassert h => Sys2Proof.Machine.execPerstDeassert h s
  | .hotReset h => Sys2Proof.Machine.execHotReset h s
  | .linkTrained h w sp flit drs => Sys2Proof.Machine.execLinkTrained h w sp flit drs s
  | .detach h => Sys2Proof.Machine.execDetach h s
  | .hostHoldExpiry h => Sys2Proof.Machine.execHostHoldExpiry h s
  | .bmeClear f => Sys2Proof.Machine.execBmeClear f s
  | .bmeSet f => Sys2Proof.Machine.execBmeSet f s
  | .bmeHoldExpiry f => Sys2Proof.Machine.execBmeHoldExpiry f s
  | .flrVf f => Sys2Proof.Machine.execFlrVf f s
  | .flrPf p => Sys2Proof.Machine.execFlrPf p s
  | .readCompletion port tag ok poisoned data => Sys2Proof.Machine.execReadCompletion port tag ok poisoned data s
  | .completionTimeout tag => Sys2Proof.Machine.execCompletionTimeout tag s
  | .vfEnable p => Sys2Proof.Machine.execVfEnable p s
  | .vfDisable p => Sys2Proof.Machine.execVfDisable p s
  | .atsInvalidate f page n late => Sys2Proof.Machine.execAtsInvalidate f page n late s
  | .d3hotEntry f => Sys2Proof.Machine.execD3hotEntry f s
  | .ltrEnable h => Sys2Proof.Machine.execLtrEnable h s
  | .heldLedgerWrite p => Sys2Proof.Machine.execHeldLedgerWrite p s
  | .configRequest f c => Sys2Proof.Machine.execConfigRequest f c s
  | .ledgerWrite p => Sys2Proof.Machine.execLedgerWrite p s
  | .warmLedgerTimeout => Sys2Proof.Machine.execWarmLedgerTimeout s
  | .queueEnable q => Sys2Proof.Machine.execQueueEnable q s
  | .queueDisable q => Sys2Proof.Machine.execQueueDisable q s
  | .queueStopped q => Sys2Proof.Machine.execQueueStopped q s
  | .queueResume q idx => Sys2Proof.Machine.execQueueResume q idx s
  | .doorbellPi f v whole => Sys2Proof.Machine.execDoorbellPi f v whole s
  | .doorbellCq f v whole => Sys2Proof.Machine.execDoorbellCq f v whole s
  | .doorbellEq f v whole => Sys2Proof.Machine.execDoorbellEq f v whole s
  | .sliceVisit sl => Sys2Proof.Machine.execSliceVisit sl s
  | .descriptorFetchComplete q ofList => Sys2Proof.Machine.execDescriptorFetchComplete q ofList s
  | .descriptorAccept q => Sys2Proof.Machine.execDescriptorAccept q s
  | .payloadLoadComplete st => Sys2Proof.Machine.execPayloadLoadComplete st s
  | .headWriteBack q => Sys2Proof.Machine.execHeadWriteBack q s
  | .cqEnable c on => Sys2Proof.Machine.execCqEnable c on s
  | .eqEnable e on => Sys2Proof.Machine.execEqEnable e on s
  | .ledgerAck p v => Sys2Proof.Machine.execLedgerAck p v s
  | .sliceFail sl k => Sys2Proof.Machine.execSliceFail sl k s
  | .burstGrant g ue => Sys2Proof.Machine.execBurstGrant g ue s
  | .flush c => Sys2Proof.Machine.execFlush c s
  | .flushComplete c => Sys2Proof.Machine.execFlushComplete c s
  | .abort c => Sys2Proof.Machine.execAbort c s
  | .channelStopped c => Sys2Proof.Machine.execChannelStopped c s
  | .resume c => Sys2Proof.Machine.execResume c s
  | .channelMove inst c => Sys2Proof.Machine.execChannelMove inst c s
  | .channelMoveComplete inst => Sys2Proof.Machine.execChannelMoveComplete inst s
  | .channelFail c => Sys2Proof.Machine.execChannelFail c s
  | .create p inst cold sh => Sys2Proof.Machine.execCreate p inst cold sh s
  | .enable p inst => Sys2Proof.Machine.execEnable p inst s
  | .reset p inst hold => Sys2Proof.Machine.execReset p inst hold s
  | .remove p inst => Sys2Proof.Machine.execRemove p inst s
  | .drainEnd inst => Sys2Proof.Machine.execDrainEnd inst s
  | .drainForced inst => Sys2Proof.Machine.execDrainForced inst s
  | .dirtyStart p inst bank0 bank1 base lg => Sys2Proof.Machine.execDirtyStart p inst bank0 bank1 base lg s
  | .dirtySwap p inst => Sys2Proof.Machine.execDirtySwap p inst s
  | .dirtySwapComplete inst => Sys2Proof.Machine.execDirtySwapComplete inst s
  | .dirtyStop p inst => Sys2Proof.Machine.execDirtyStop p inst s
  | .freezeQuiesce p inst kek => Sys2Proof.Machine.execFreezeQuiesce p inst kek s
  | .quiesced inst => Sys2Proof.Machine.execQuiesced inst s
  | .freezeInPlace p inst kek => Sys2Proof.Machine.execFreezeInPlace p inst kek s
  | .save p inst addr size => Sys2Proof.Machine.execSave p inst addr size s
  | .thaw p inst => Sys2Proof.Machine.execThaw p inst s
  | .send inst up => Sys2Proof.Machine.execSend inst up s
  | .cancel inst up => Sys2Proof.Machine.execCancel inst up s
  | .rxTake q inst up => Sys2Proof.Machine.execRxTake q inst up s
  | .mailboxTimeout inst up => Sys2Proof.Machine.execMailboxTimeout inst up s
  | .imageLoad m tmo off len data => Sys2Proof.Machine.execImageLoad m tmo off len data s
  | .imageDrop m tmo id => Sys2Proof.Machine.execImageDrop m tmo id s
  | .slotBind m tmo id slot inst off map => Sys2Proof.Machine.execSlotBind m tmo id slot inst off map s
  | .slotUnbind m tmo slot => Sys2Proof.Machine.execSlotUnbind m tmo slot s
  | .cfgSet m tmo item v => Sys2Proof.Machine.execCfgSet m tmo item v s
  | .cfgGet m tmo item => Sys2Proof.Machine.execCfgGet m tmo item s
  | .keyLoad m tmo slot owner key => Sys2Proof.Machine.execKeyLoad m tmo slot owner key s
  | .kekLoad m tmo slot owner exp len key => Sys2Proof.Machine.execKekLoad m tmo slot owner exp len key s
  | .inject m tmo off len slot inst data => Sys2Proof.Machine.execInject m tmo off len slot inst data s
  | .fwInfo m tmo => Sys2Proof.Machine.execFwInfo m tmo s
  | .stewardCmdTimeout m => Sys2Proof.Machine.execStewardCmdTimeout m s
  | .bar4Request f p x isWrite => Sys2Proof.Machine.execBar4Request f p x isWrite s
  | .eventRaise k => Sys2Proof.Machine.execEventRaise k s
  | .msixMessage f v => Sys2Proof.Machine.execMsixMessage f v s
  | .faultMessage a lost => Sys2Proof.Machine.execFaultMessage a lost s
  | .fatalAssert n => Sys2Proof.Machine.execFatalAssert n s
  | .fatalSilent n => Sys2Proof.Machine.execFatalSilent n s
  | .faultAck seq => Sys2Proof.Machine.execFaultAck seq s
  | .isolationClear pod => Sys2Proof.Machine.execIsolationClear pod s
  | .logMemoryFailure => Sys2Proof.Machine.execLogMemoryFailure s
  | .operationHang part u => Sys2Proof.Machine.execOperationHang part u s
  | .stewardWatchdog => Sys2Proof.Machine.execStewardWatchdog s
  | .droopFloor p => Sys2Proof.Machine.execDroopFloor p s
  | .ceStorm n block mem syndrome => Sys2Proof.Machine.execCeStorm n block mem syndrome s
  | .dtbAlign n => Sys2Proof.Machine.execDtbAlign n s
  | .helloSend l => Sys2Proof.Machine.execHelloSend l s
  | .helloReceive l b => Sys2Proof.Machine.execHelloReceive l b s
  | .forwardedCopyArrival l b => Sys2Proof.Machine.execForwardedCopyArrival l b s
  | .forwardAck m fseq refuse => Sys2Proof.Machine.execForwardAck m fseq refuse s
  | .refuseResend m fseq => Sys2Proof.Machine.execRefuseResend m fseq s
  | .groupHoldExpiry st c => Sys2Proof.Machine.execGroupHoldExpiry st c s
  | .groupCommit off len data => Sys2Proof.Machine.execGroupCommit off len data s
  | .groupLeave => Sys2Proof.Machine.execGroupLeave s
  | .groupRejoin => Sys2Proof.Machine.execGroupRejoin s
  | .prepare m epoch cur ld enc => Sys2Proof.Machine.execPrepare m epoch cur ld enc s
  | .ready m refuse => Sys2Proof.Machine.execReady m refuse s
  | .commit t => Sys2Proof.Machine.execCommit t s
  | .commitApply => Sys2Proof.Machine.execCommitApply s
  | .groupAbort => Sys2Proof.Machine.execGroupAbort s
  | .prepareTimeout => Sys2Proof.Machine.execPrepareTimeout s
  | .preparedDiscard => Sys2Proof.Machine.execPreparedDiscard s
  | .groupForm => Sys2Proof.Machine.execGroupForm s
  | .leaderLost => Sys2Proof.Machine.execLeaderLost s
  | .selfFence => Sys2Proof.Machine.execSelfFence s
  | .fenceRecovery => Sys2Proof.Machine.execFenceRecovery s
  | .memberLost m => Sys2Proof.Machine.execMemberLost m s
  | .replicatedWrite a => Sys2Proof.Machine.execReplicatedWrite a s
  | .replicatedApplyTimeout seq => Sys2Proof.Machine.execReplicatedApplyTimeout seq s
  | .replicatedAgingReport m n ix div => Sys2Proof.Machine.execReplicatedAgingReport m n ix div s
  | .beaconTransmit collide => Sys2Proof.Machine.execBeaconTransmit collide s
  | .beaconReceive b at_ => Sys2Proof.Machine.execBeaconReceive b at_ s
  | .wakeReceive b at_ => Sys2Proof.Machine.execWakeReceive b at_ s
  | .announceReceive b at_ => Sys2Proof.Machine.execAnnounceReceive b at_ s
  | .wakeFrameSend targets collide retry => Sys2Proof.Machine.execWakeFrameSend targets collide retry s
  | .slotTrim => Sys2Proof.Machine.execSlotTrim s
  | .slotSilenced => Sys2Proof.Machine.execSlotSilenced s
  | .holdOverExpiry => Sys2Proof.Machine.execHoldOverExpiry s
  | .rendezvousWaitExpiry => Sys2Proof.Machine.execRendezvousWaitExpiry s
  | .wakePulse => Sys2Proof.Machine.execWakePulse s
  | .mctpPacket b => Sys2Proof.Machine.execMctpPacket b s
  | .reassemblyTimeout src tag => Sys2Proof.Machine.execReassemblyTimeout src tag s
  | .setEndpointId => Sys2Proof.Machine.execSetEndpointId s
  | .getEndpointId => Sys2Proof.Machine.execGetEndpointId s
  | .getEndpointUuid => Sys2Proof.Machine.execGetEndpointUuid s
  | .getMctpVersionSupport => Sys2Proof.Machine.execGetMctpVersionSupport s
  | .getMessageTypeSupport => Sys2Proof.Machine.execGetMessageTypeSupport s
  | .getVendorDefinedMessageSupport => Sys2Proof.Machine.execGetVendorDefinedMessageSupport s
  | .getMeasurements via => Sys2Proof.Machine.execGetMeasurements via s
  | .getCertificate via => Sys2Proof.Machine.execGetCertificate via s
  | .challenge via => Sys2Proof.Machine.execChallenge via s
  | .keyExchange via => Sys2Proof.Machine.execKeyExchange via s
  | .identify => Sys2Proof.Machine.execIdentify s
  | .health => Sys2Proof.Machine.execHealth s
  | .logRead => Sys2Proof.Machine.execLogRead s
  | .moduleStatus => Sys2Proof.Machine.execModuleStatus s
  | .moduleRead => Sys2Proof.Machine.execModuleRead s
  | .moduleWrite => Sys2Proof.Machine.execModuleWrite s
  | .stewardCmd => Sys2Proof.Machine.execStewardCmd s
  | .i2cTransaction p a => Sys2Proof.Machine.execI2cTransaction p a s
  | .arbitrationLost p at_ n => Sys2Proof.Machine.execArbitrationLost p at_ n s
  | .arbBackoffExpiry p draw => Sys2Proof.Machine.execArbBackoffExpiry p draw s
  | .busTimeout p target => Sys2Proof.Machine.execBusTimeout p target s
  | .busRecovery p clears => Sys2Proof.Machine.execBusRecovery p clears s
  | .modulePoll m => Sys2Proof.Machine.execModulePoll m s
  | .voutCommand r => Sys2Proof.Machine.execVoutCommand r s
  | .avsTelemetry r => Sys2Proof.Machine.execAvsTelemetry r s
  | .modRead m bank page off len => Sys2Proof.Machine.execModRead m bank page off len s
  | .modWrite m bank page off len data => Sys2Proof.Machine.execModWrite m bank page off len data s
  | .cocoonReq => Sys2Proof.Machine.execCocoonReq s
  | .cocoonEntry hist => Sys2Proof.Machine.execCocoonEntry hist s
  | .cocoonWake src => Sys2Proof.Machine.execCocoonWake src s
  | .pwrGoodAssert => Sys2Proof.Machine.execPwrGoodAssert s
  | .pwrGoodTimeout => Sys2Proof.Machine.execPwrGoodTimeout s
  | .islandRelease straps => Sys2Proof.Machine.execIslandRelease straps s
  | .pwrGoodFall => Sys2Proof.Machine.execPwrGoodFall s
  | .porAssert => Sys2Proof.Machine.execPorAssert s
  | .porDeassert straps => Sys2Proof.Machine.execPorDeassert straps s
  | .aonPowerLoss => Sys2Proof.Machine.execAonPowerLoss s
  | .parkAutoWake => Sys2Proof.Machine.execParkAutoWake s
  | .clockLoss c => Sys2Proof.Machine.execClockLoss c s
  | .xtal32kRecover => Sys2Proof.Machine.execXtal32kRecover s
  | .timeStep v => Sys2Proof.Machine.execTimeStep v s
  | .timeAdjWrite v => Sys2Proof.Machine.execTimeAdjWrite v s
  | .lockTimeout => Sys2Proof.Machine.execLockTimeout s
  | .timeSteer => Sys2Proof.Machine.execTimeSteer s
  | .dtbSync n e => Sys2Proof.Machine.execDtbSync n e s
  | .avsTargetUpdate r => Sys2Proof.Machine.execAvsTargetUpdate r s
  | .warmReset steward v => Sys2Proof.Machine.execWarmReset steward v s
  | .warmRelease => Sys2Proof.Machine.execWarmRelease s
  | .fuseSense tj ov bad => Sys2Proof.Machine.execFuseSense tj ov bad s
  | .senseTimeout w => Sys2Proof.Machine.execSenseTimeout w s
  | .bootSelect reports => Sys2Proof.Machine.execBootSelect reports s
  | .bootWatchdog reports => Sys2Proof.Machine.execBootWatchdog reports s
  | .configApply settings => Sys2Proof.Machine.execConfigApply settings s
  | .microcodeLoad => Sys2Proof.Machine.execMicrocodeLoad s
  | .portRelease => Sys2Proof.Machine.execPortRelease s
  | .chrysalisStart => Sys2Proof.Machine.execChrysalisStart s
  | .hbmTraining failed => Sys2Proof.Machine.execHbmTraining failed s
  | .podLoad descs => Sys2Proof.Machine.execPodLoad descs s
  | .serviceSwitch => Sys2Proof.Machine.execServiceSwitch s
  | .retrainGroup n v ports => Sys2Proof.Machine.execRetrainGroup n v ports s
  | .retrainTimeout => Sys2Proof.Machine.execRetrainTimeout s
  | .runEntry => Sys2Proof.Machine.execRunEntry s
  | .chrysalisForward st => Sys2Proof.Machine.execChrysalisForward st s
  | .program src word data miss => Sys2Proof.Machine.execProgram src word data miss s
  | .lcAdvance src miss => Sys2Proof.Machine.execLcAdvance src miss s
  | .rollbackAdvance src t miss => Sys2Proof.Machine.execRollbackAdvance src t miss s
  | .jtagInstruction j => Sys2Proof.Machine.execJtagInstruction j s
  | .fwWrite m tmo off len slotOff data fq => Sys2Proof.Machine.execFwWrite m tmo off len slotOff data fq s
  | .fwFinish m tmo fq => Sys2Proof.Machine.execFwFinish m tmo fq s
  | .fwCommit m tmo adv miss fq => Sys2Proof.Machine.execFwCommit m tmo adv miss fq s
  | .fwAbort m tmo => Sys2Proof.Machine.execFwAbort m tmo s
  | .moultSet m tmo l => Sys2Proof.Machine.execMoultSet m tmo l s
  | .chryWrite m tmo off len data fq => Sys2Proof.Machine.execChryWrite m tmo off len data fq s
  | .flashInfo m tmo => Sys2Proof.Machine.execFlashInfo m tmo s
  | .autoCommit => Sys2Proof.Machine.execAutoCommit s
  | .recordWrite fq => Sys2Proof.Machine.execRecordWrite fq s
  | .logCompaction fq => Sys2Proof.Machine.execLogCompaction fq s
  | .wearLedgerWrite fq => Sys2Proof.Machine.execWearLedgerWrite fq s
  | .moultSwitch m => Sys2Proof.Machine.execMoultSwitch m s
  | .moultRetired slot => Sys2Proof.Machine.execMoultRetired slot s
  | .sample v => Sys2Proof.Machine.execSample v s
  | .sampleTimeout => Sys2Proof.Machine.execSampleTimeout s
  | .singleConversion ch gain osr chop count => Sys2Proof.Machine.execSingleConversion ch gain osr chop count s
  | .throttleApply => Sys2Proof.Machine.execThrottleApply s
  | .coreCtlWrite core v own => Sys2Proof.Machine.execCoreCtlWrite core v own s
  | .quantumExpiry core => Sys2Proof.Machine.execQuantumExpiry core s
  | .threadWake th => Sys2Proof.Machine.execThreadWake th s
  | .ticketComplete th tk ue => Sys2Proof.Machine.execTicketComplete th tk ue s
  | .watchdog th => Sys2Proof.Machine.execWatchdog th s
  | .handlerDeadline th => Sys2Proof.Machine.execHandlerDeadline th s
  | .slotHandlerWrite pod slot v => Sys2Proof.Machine.execSlotHandlerWrite pod slot v s
  | .supervisorWrite pod v => Sys2Proof.Machine.execSupervisorWrite pod v s
  | .supervisorHandover pod => Sys2Proof.Machine.execSupervisorHandover pod s
  | .supervisorRestart pod => Sys2Proof.Machine.execSupervisorRestart pod s
  | .parkRequest pod => Sys2Proof.Machine.execParkRequest pod s
  | .podParked pod => Sys2Proof.Machine.execPodParked pod s
  | .parkCancel pod => Sys2Proof.Machine.execParkCancel pod s
  | .podWake pod => Sys2Proof.Machine.execPodWake pod s
  | .podRun pod => Sys2Proof.Machine.execPodRun pod s
  | .ngAdd th gd w rd ra rb => Sys2Proof.Machine.execNgAdd th gd w rd ra rb s
  | .ngSub th gd w rd ra rb => Sys2Proof.Machine.execNgSub th gd w rd ra rb s
  | .ngAnd th gd w rd ra rb => Sys2Proof.Machine.execNgAnd th gd w rd ra rb s
  | .ngOr th gd w rd ra rb => Sys2Proof.Machine.execNgOr th gd w rd ra rb s
  | .ngXor th gd w rd ra rb => Sys2Proof.Machine.execNgXor th gd w rd ra rb s
  | .ngAndn th gd w rd ra rb => Sys2Proof.Machine.execNgAndn th gd w rd ra rb s
  | .ngShl th gd w rd ra rb => Sys2Proof.Machine.execNgShl th gd w rd ra rb s
  | .ngShr th gd w rd ra rb => Sys2Proof.Machine.execNgShr th gd w rd ra rb s
  | .ngSar th gd w rd ra rb => Sys2Proof.Machine.execNgSar th gd w rd ra rb s
  | .ngRol th gd w rd ra rb => Sys2Proof.Machine.execNgRol th gd w rd ra rb s
  | .ngMin th gd w rd ra rb => Sys2Proof.Machine.execNgMin th gd w rd ra rb s
  | .ngMax th gd w rd ra rb => Sys2Proof.Machine.execNgMax th gd w rd ra rb s
  | .ngMinu th gd w rd ra rb => Sys2Proof.Machine.execNgMinu th gd w rd ra rb s
  | .ngMaxu th gd w rd ra rb => Sys2Proof.Machine.execNgMaxu th gd w rd ra rb s
  | .ngMul th gd w rd ra rb => Sys2Proof.Machine.execNgMul th gd w rd ra rb s
  | .ngMulhu th gd w rd ra rb => Sys2Proof.Machine.execNgMulhu th gd w rd ra rb s
  | .ngDivu th gd w rd ra rb => Sys2Proof.Machine.execNgDivu th gd w rd ra rb s
  | .ngRemu th gd w rd ra rb => Sys2Proof.Machine.execNgRemu th gd w rd ra rb s
  | .ngPrd th gd rd => Sys2Proof.Machine.execNgPrd th gd rd s
  | .ngPwr th gd ra => Sys2Proof.Machine.execNgPwr th gd ra s
  | .ngAddi th gd rd ra imm => Sys2Proof.Machine.execNgAddi th gd rd ra imm s
  | .ngAndi th gd rd ra imm => Sys2Proof.Machine.execNgAndi th gd rd ra imm s
  | .ngOri th gd rd ra imm => Sys2Proof.Machine.execNgOri th gd rd ra imm s
  | .ngXori th gd rd ra imm => Sys2Proof.Machine.execNgXori th gd rd ra imm s
  | .ngMovi th gd rd imm => Sys2Proof.Machine.execNgMovi th gd rd imm s
  | .ngMovhi th gd rd ra imm => Sys2Proof.Machine.execNgMovhi th gd rd ra imm s
  | .ngShiShl th gd w rd ra amt => Sys2Proof.Machine.execNgShiShl th gd w rd ra amt s
  | .ngShiShr th gd w rd ra amt => Sys2Proof.Machine.execNgShiShr th gd w rd ra amt s
  | .ngShiSar th gd w rd ra amt => Sys2Proof.Machine.execNgShiSar th gd w rd ra amt s
  | .ngShiRol th gd w rd ra amt => Sys2Proof.Machine.execNgShiRol th gd w rd ra amt s
  | .ngCmp th gd w mode cond pd ra rb => Sys2Proof.Machine.execNgCmp th gd w mode cond pd ra rb s
  | .ngCmpi th gd w mode cond pd ra imm => Sys2Proof.Machine.execNgCmpi th gd w mode cond pd ra imm s
  | .ngPlog th gd pop pd pa pb => Sys2Proof.Machine.execNgPlog th gd pop pd pa pb s
  | .ngExtu th gd rd ra pos wm1 => Sys2Proof.Machine.execNgExtu th gd rd ra pos wm1 s
  | .ngExts th gd rd ra pos wm1 => Sys2Proof.Machine.execNgExts th gd rd ra pos wm1 s
  | .ngIns th gd rd ra pos wm1 => Sys2Proof.Machine.execNgIns th gd rd ra pos wm1 s
  | .ngBswap16 th gd w rd ra => Sys2Proof.Machine.execNgBswap16 th gd w rd ra s
  | .ngBswap32 th gd w rd ra => Sys2Proof.Machine.execNgBswap32 th gd w rd ra s
  | .ngBswap64 th gd rd ra => Sys2Proof.Machine.execNgBswap64 th gd rd ra s
  | .ngClz th gd w rd ra => Sys2Proof.Machine.execNgClz th gd w rd ra s
  | .ngCtz th gd w rd ra => Sys2Proof.Machine.execNgCtz th gd w rd ra s
  | .ngPopc th gd w rd ra => Sys2Proof.Machine.execNgPopc th gd w rd ra s
  | .ngCrc32cB th gd rd ra rb => Sys2Proof.Machine.execNgCrc32cB th gd rd ra rb s
  | .ngCrc32cW th gd rd ra rb => Sys2Proof.Machine.execNgCrc32cW th gd rd ra rb s
  | .ngCrc32cD th gd rd ra rb => Sys2Proof.Machine.execNgCrc32cD th gd rd ra rb s
  | .ngCsadd th gd rd ra rb => Sys2Proof.Machine.execNgCsadd th gd rd ra rb s
  | .ngCsfold th gd w rd ra => Sys2Proof.Machine.execNgCsfold th gd w rd ra s
  | .ngSel th gd n neg rd ra rb => Sys2Proof.Machine.execNgSel th gd n neg rd ra rb s
  | .ngBr th gd off => Sys2Proof.Machine.execNgBr th gd off s
  | .ngCall th gd off => Sys2Proof.Machine.execNgCall th gd off s
  | .ngJr th gd rd ra imm => Sys2Proof.Machine.execNgJr th gd rd ra imm s
  | .ngLdl th gd sz sx rd ra off => Sys2Proof.Machine.execNgLdl th gd sz sx rd ra off s
  | .ngStl th gd sz rs ra off => Sys2Proof.Machine.execNgStl th gd sz rs ra off s
  | .ngLdp th gd sz be rd ra off => Sys2Proof.Machine.execNgLdp th gd sz be rd ra off s
  | .ngLk th gd tk tref ra rb => Sys2Proof.Machine.execNgLk th gd tk tref ra rb s
  | .ngLks th gd tk tref ra rb => Sys2Proof.Machine.execNgLks th gd tk tref ra rb s
  | .ngLkc th gd tk => Sys2Proof.Machine.execNgLkc th gd tk s
  | .ngTrd th gd tk tref ra rb => Sys2Proof.Machine.execNgTrd th gd tk tref ra rb s
  | .ngReach th gd tk ra rb => Sys2Proof.Machine.execNgReach th gd tk ra rb s
  | .ngHrd th gd tk ra rb => Sys2Proof.Machine.execNgHrd th gd tk ra rb s
  | .ngCsrrd th gd is32 tk ra rb => Sys2Proof.Machine.execNgCsrrd th gd is32 tk ra rb s
  | .ngTkst th gd tk rd => Sys2Proof.Machine.execNgTkst th gd tk rd s
  | .ngTkpeek th gd tk rd => Sys2Proof.Machine.execNgTkpeek th gd tk rd s
  | .ngTktest th gd tk pd => Sys2Proof.Machine.execNgTktest th gd tk pd s
  | .ngTkcan th gd tk => Sys2Proof.Machine.execNgTkcan th gd tk s
  | .ngRddtb th gd rd => Sys2Proof.Machine.execNgRddtb th gd rd s
  | .ngSettc th gd ra => Sys2Proof.Machine.execNgSettc th gd ra s
  | .ngRdtc th gd rd => Sys2Proof.Machine.execNgRdtc th gd rd s
  | .ngWaitt th gd rd rb => Sys2Proof.Machine.execNgWaitt th gd rd rb s
  | .ngHapp th gd ra => Sys2Proof.Machine.execNgHapp th gd ra s
  | .ngHclr th gd => Sys2Proof.Machine.execNgHclr th gd s
  | .ngHpop th gd => Sys2Proof.Machine.execNgHpop th gd s
  | .ngVerdict th gd tk ra rb => Sys2Proof.Machine.execNgVerdict th gd tk ra rb s
  | .ngSaqry th gd tk ra rb => Sys2Proof.Machine.execNgSaqry th gd tk ra rb s
  | .ngTwrInsert th gd tref ra rb => Sys2Proof.Machine.execNgTwrInsert th gd tref ra rb s
  | .ngTwrModify th gd tref ra rb => Sys2Proof.Machine.execNgTwrModify th gd tref ra rb s
  | .ngTwrDelete th gd tref ra => Sys2Proof.Machine.execNgTwrDelete th gd tref ra s
  | .ngCntaEntry th gd tref ra rb => Sys2Proof.Machine.execNgCntaEntry th gd tref ra rb s
  | .ngCntaProg th gd ra rb => Sys2Proof.Machine.execNgCntaProg th gd ra rb s
  | .ngAtom th gd tref ra => Sys2Proof.Machine.execNgAtom th gd tref ra s
  | .ngEmit th gd ra rb => Sys2Proof.Machine.execNgEmit th gd ra rb s
  | .ngEmitEnd th gd ra rb => Sys2Proof.Machine.execNgEmitEnd th gd ra rb s
  | .ngDisc th gd ra => Sys2Proof.Machine.execNgDisc th gd ra s
  | .ngDiscEnd th gd ra => Sys2Proof.Machine.execNgDiscEnd th gd ra s
  | .ngDmawImmediate th gd ra rb => Sys2Proof.Machine.execNgDmawImmediate th gd ra rb s
  | .ngDmawRange th gd ra => Sys2Proof.Machine.execNgDmawRange th gd ra s
  | .ngMbxp th gd ra rb => Sys2Proof.Machine.execNgMbxp th gd ra rb s
  | .ngCsrw th gd is32 ra rb => Sys2Proof.Machine.execNgCsrw th gd is32 ra rb s
  | .ngSaup th gd ra rb => Sys2Proof.Machine.execNgSaup th gd ra rb s
  | .ngEvt th gd ra => Sys2Proof.Machine.execNgEvt th gd ra s
  | .ngEnd th gd => Sys2Proof.Machine.execNgEnd th gd s
  | .ngFnpop th gd rd ra => Sys2Proof.Machine.execNgFnpop th gd rd ra s
  | .ngThctl th gd ra rb => Sys2Proof.Machine.execNgThctl th gd ra rb s
  | .ngSstd th gd ra rb => Sys2Proof.Machine.execNgSstd th gd ra rb s
  | .ngHretry th gd => Sys2Proof.Machine.execNgHretry th gd s
  | .ngHskip th gd => Sys2Proof.Machine.execNgHskip th gd s
  | .ngHdisc th gd ra => Sys2Proof.Machine.execNgHdisc th gd ra s
  | .ngHesc th gd => Sys2Proof.Machine.execNgHesc th gd s
  | .ngRdfk th gd rd => Sys2Proof.Machine.execNgRdfk th gd rd s
  | .migrationRestore p inst kek size img => Sys2Proof.Machine.execMigrationRestore p inst kek size img s
  | .remoteFault p far => Sys2Proof.Machine.execRemoteFault p far s
  | .pfcStormEnd p c => Sys2Proof.Machine.execPfcStormEnd p c s
  | .timeDiverged => Sys2Proof.Machine.execTimeDiverged s
  | .gblLineAwake => Sys2Proof.Machine.execGblLineAwake s
  | .islandResetEnd n => Sys2Proof.Machine.execIslandResetEnd n s
  | .ideKmMessage h x act => Sys2Proof.Machine.execIdeKmMessage h x act s
  | .spdmSessionEnd c => Sys2Proof.Machine.execSpdmSessionEnd c s
  | .latchedWake => Sys2Proof.Machine.execLatchedWake s
  | .d0Entry f => Sys2Proof.Machine.execD0Entry f s

end Sys2Proof.Machine
end

