-- ==== Sys2Proof/Machine/Late.lean ====
section
/-!
DEFINITION. The window commands that were taken before RUN (25, "When a window or mailbox command arrives before RUN").
-/
namespace Sys2Proof.Machine

/-- What a window command taken before RUN does when it runs. -/
def runLate (c : WinCmd) (s : State) : Res :=
  match c with
  | .dirtyStart p inst bank0 bank1 base lg => execDirtyStart p inst bank0 bank1 base lg s
  | .dirtySwap p inst => execDirtySwap p inst s
  | .dirtyStop p inst => execDirtyStop p inst s
  | .freezeQuiesce p inst kek => execFreezeQuiesce p inst kek s
  | .freezeInPlace p inst kek => execFreezeInPlace p inst kek s
  | .thaw p inst => execThaw p inst s
  | .save p inst addr size => execSave p inst addr size s
  | .migrationRestore p inst kek size img => execMigrationRestore p inst kek size img s
  | .groupCommit off len data => execGroupCommit off len data s
  | .groupLeave => execGroupLeave s
  | .groupRejoin => execGroupRejoin s
  | .saCreate w sa img ue => execSaCreate w sa img ue s
  | .saDestroy w sa ue => execSaDestroy w sa ue s
  | .saRead w sa ue => execSaRead w sa ue s
  | .keyLoadWrapped w slot kek wrap ue => execKeyLoadWrapped w slot kek wrap ue s
  | .keyZero w slot ue => execKeyZero w slot ue s
  | .keyInfo w slot ue => execKeyInfo w slot ue s
  | .insert w n plen prio arg => execInsert w n plen prio arg s
  | .modify w n rst plen prio arg => execModify w n rst plen prio arg s
  | .delete w n plen prio arg => execDelete w n plen prio arg s
  | .read w n plen prio arg => execRead w n plen prio arg s
  | .readHandle w n handle => execReadHandle w n handle s
  | .modifyHandle w n rst arg => execModifyHandle w n rst arg s
  | .deleteHandle w n handle => execDeleteHandle w n handle s
  | .cntRead w n clr handle => execCntRead w n clr handle s
  | .lookup w n arg => execLookup w n arg s
  | .descCreate w n img cap => execDescCreate w n img cap s
  | .descDestroy w n => execDescDestroy w n s
  | .descParam w n age learn => execDescParam w n age learn s
  | .create p inst cold sh => execCreate p inst cold sh s
  | .enable p inst => execEnable p inst s
  | .reset p inst hold => execReset p inst hold s
  | .remove p inst => execRemove p inst s

end Sys2Proof.Machine
end

