-- ==== Sys2Proof/Safety.lean ====
section
/-!
DEFINITION. What counts as a safe run, and the words that the statements share.
-/
namespace Sys2Proof
open Sys2Proof.Machine

/-- A step answers a next state. -/
def Safe (s : State) : Prop := ∃ t, step s = .next t

/-- The command completes, and its whole effect is that the device becomes `d`: the queue and the window commands held for RUN stay. -/
def Does (c : Instr) (s : State) (d : Dev) : Prop := exec c s = .next { s with dev := d }

/-- The thread issues the instruction at its pc and the guard holds (R116, R120): it runs, is awake and in time, and its pc lies in its
code. -/
abbrev Machine.Dev.Issues (d : Dev) (th : Fin 2048) (g : Guard) : Prop :=
  d.canIssue th.val = true ∧ (d.th th.val).pc < (d.th th.val).code ∧ g.holds (d.th th.val) = true

/-- The thread with its pc past an instruction of `len` bytes. -/
def Machine.Dev.past (d : Dev) (th : Fin 2048) (len : Nat) : Thread := { d.th th.val with pc := (d.th th.val).pc + len }

/-- The instruction leaves thread `th` as `t` and nothing else of the state changed. -/
def LeavesThread (c : Instr) (s : State) (th : Fin 2048) (t : Thread) : Prop := Does c s (s.dev.setTh th.val t)

/-- A width-generic operation at the W bit (R125): on all 64 bits, or on bits [31:0] of each operand with a zero-extended result. -/
def atWidth (w : Bool) (f : (n : Nat) → BitVec n → BitVec n → BitVec n) (a b : Word) : Word :=
  if w then (f 32 (a.setWidth 32) (b.setWidth 32)).setWidth 64 else f 64 a b

/-- A LOCAL range lies in private LOCAL and begins on 8 bytes (R132). -/
abbrev privateRange (a n : Nat) : Prop := localRegion a n = some true ∧ a % 8 = 0

/-- A LOCAL range lies in one region and begins on 8 bytes (R139). -/
abbrev alignedRange (a n : Nat) : Prop := (localRegion a n).isSome = true ∧ a % 8 = 0

/-- A register write that has a row of its own reaches its register: the island is up and the device is not HALTED (R468). -/
abbrev Machine.Dev.live (d : Dev) (n : Nat) : Prop := d.isUp n = true ∧ d.halted = false

/-- A window takes a command and runs it now: RUN is reached (R86, milestone 7), the window's island is up, the device is not HALTED and
STATE is IDLE. -/
abbrev Machine.Dev.idleWin (d : Dev) (w : WinId) : Prop :=
  12 ≤ d.stw.start.step ∧ d.isUp w.island = true ∧ d.halted = false ∧ (d.win w).st = 0

/-- A steward mailbox or secure channel takes a command and the running steward executes it (R438 to R440): the window is carried, its
island is up and its STATE is IDLE, no COCOON entry is under way, the timeout is in range and the life cycle lets a secure channel act. -/
abbrev Machine.Dev.stewardTakes (d : Dev) (m : Fin 16) (tmo : BitVec 14) : Prop :=
  d.carried m = true ∧ d.isUp (WinId.stm m).island = true ∧ (d.win (.stm m)).st = 0 ∧ d.entering = false ∧ d.stw.running = true ∧
    tmo.toNat ≤ 10000 ∧ (stmSecure m && d.noSecrets) = false

/-- The fuse window takes a command from its source (R556): the source may reach it and STATE is IDLE. -/
abbrev Machine.Dev.pwTakes (d : Dev) (src : PwSource) : Prop :=
  d.pwReach src = true ∧ d.isUp WinId.pw.island = true ∧ d.halted = false ∧ (d.win .pw).st = 0

/-- The thread, guard and length in bytes of an NGL instruction (R113, R115); none for any other command. -/
def Instr.issuer : Instr → Option (Fin 2048 × Guard × Nat)
  | .ngAdd th gd _ _ _ _ => some (th, gd, 4)
  | .ngSub th gd _ _ _ _ => some (th, gd, 4)
  | .ngAnd th gd _ _ _ _ => some (th, gd, 4)
  | .ngOr th gd _ _ _ _ => some (th, gd, 4)
  | .ngXor th gd _ _ _ _ => some (th, gd, 4)
  | .ngAndn th gd _ _ _ _ => some (th, gd, 4)
  | .ngShl th gd _ _ _ _ => some (th, gd, 4)
  | .ngShr th gd _ _ _ _ => some (th, gd, 4)
  | .ngSar th gd _ _ _ _ => some (th, gd, 4)
  | .ngRol th gd _ _ _ _ => some (th, gd, 4)
  | .ngMin th gd _ _ _ _ => some (th, gd, 4)
  | .ngMax th gd _ _ _ _ => some (th, gd, 4)
  | .ngMinu th gd _ _ _ _ => some (th, gd, 4)
  | .ngMaxu th gd _ _ _ _ => some (th, gd, 4)
  | .ngMul th gd _ _ _ _ => some (th, gd, 4)
  | .ngMulhu th gd _ _ _ _ => some (th, gd, 4)
  | .ngDivu th gd _ _ _ _ => some (th, gd, 4)
  | .ngRemu th gd _ _ _ _ => some (th, gd, 4)
  | .ngPrd th gd _ => some (th, gd, 4)
  | .ngPwr th gd _ => some (th, gd, 4)
  | .ngAddi th gd _ _ imm => some (th, gd, imm.len)
  | .ngAndi th gd _ _ imm => some (th, gd, imm.len)
  | .ngOri th gd _ _ imm => some (th, gd, imm.len)
  | .ngXori th gd _ _ imm => some (th, gd, imm.len)
  | .ngMovi th gd _ imm => some (th, gd, imm.len)
  | .ngMovhi th gd _ _ imm => some (th, gd, imm.len)
  | .ngShiShl th gd _ _ _ _ => some (th, gd, 4)
  | .ngShiShr th gd _ _ _ _ => some (th, gd, 4)
  | .ngShiSar th gd _ _ _ _ => some (th, gd, 4)
  | .ngShiRol th gd _ _ _ _ => some (th, gd, 4)
  | .ngCmp th gd _ _ _ _ _ _ => some (th, gd, 4)
  | .ngCmpi th gd _ _ _ _ _ imm => some (th, gd, imm.len)
  | .ngPlog th gd _ _ _ _ => some (th, gd, 4)
  | .ngExtu th gd _ _ _ _ => some (th, gd, 4)
  | .ngExts th gd _ _ _ _ => some (th, gd, 4)
  | .ngIns th gd _ _ _ _ => some (th, gd, 4)
  | .ngBswap16 th gd _ _ _ => some (th, gd, 4)
  | .ngBswap32 th gd _ _ _ => some (th, gd, 4)
  | .ngBswap64 th gd _ _ => some (th, gd, 4)
  | .ngClz th gd _ _ _ => some (th, gd, 4)
  | .ngCtz th gd _ _ _ => some (th, gd, 4)
  | .ngPopc th gd _ _ _ => some (th, gd, 4)
  | .ngCrc32cB th gd _ _ _ => some (th, gd, 4)
  | .ngCrc32cW th gd _ _ _ => some (th, gd, 4)
  | .ngCrc32cD th gd _ _ _ => some (th, gd, 4)
  | .ngCsadd th gd _ _ _ => some (th, gd, 4)
  | .ngCsfold th gd _ _ _ => some (th, gd, 4)
  | .ngSel th gd _ _ _ _ _ => some (th, gd, 4)
  | .ngBr th gd _ => some (th, gd, 4)
  | .ngCall th gd _ => some (th, gd, 4)
  | .ngJr th gd _ _ _ => some (th, gd, 4)
  | .ngLdl th gd _ _ _ _ off => some (th, gd, off.len)
  | .ngStl th gd _ _ _ off => some (th, gd, off.len)
  | .ngLdp th gd _ _ _ _ _ => some (th, gd, 4)
  | .ngLk th gd _ _ _ _ => some (th, gd, 4)
  | .ngLks th gd _ _ _ _ => some (th, gd, 4)
  | .ngLkc th gd _ => some (th, gd, 4)
  | .ngTrd th gd _ _ _ _ => some (th, gd, 4)
  | .ngReach th gd _ _ _ => some (th, gd, 4)
  | .ngHrd th gd _ _ _ => some (th, gd, 4)
  | .ngCsrrd th gd _ _ _ _ => some (th, gd, 4)
  | .ngTkst th gd _ _ => some (th, gd, 4)
  | .ngTkpeek th gd _ _ => some (th, gd, 4)
  | .ngTktest th gd _ _ => some (th, gd, 4)
  | .ngTkcan th gd _ => some (th, gd, 4)
  | .ngRddtb th gd _ => some (th, gd, 4)
  | .ngSettc th gd _ => some (th, gd, 4)
  | .ngRdtc th gd _ => some (th, gd, 4)
  | .ngWaitt th gd _ _ => some (th, gd, 4)
  | .ngHapp th gd _ => some (th, gd, 4)
  | .ngHclr th gd => some (th, gd, 4)
  | .ngHpop th gd => some (th, gd, 4)
  | .ngVerdict th gd _ _ _ => some (th, gd, 4)
  | .ngSaqry th gd _ _ _ => some (th, gd, 4)
  | .ngTwrInsert th gd _ _ _ => some (th, gd, 4)
  | .ngTwrModify th gd _ _ _ => some (th, gd, 4)
  | .ngTwrDelete th gd _ _ => some (th, gd, 4)
  | .ngCntaEntry th gd _ _ _ => some (th, gd, 4)
  | .ngCntaProg th gd _ _ => some (th, gd, 4)
  | .ngAtom th gd _ _ => some (th, gd, 4)
  | .ngEmit th gd _ _ => some (th, gd, 4)
  | .ngEmitEnd th gd _ _ => some (th, gd, 4)
  | .ngDisc th gd _ => some (th, gd, 4)
  | .ngDiscEnd th gd _ => some (th, gd, 4)
  | .ngDmawImmediate th gd _ _ => some (th, gd, 4)
  | .ngDmawRange th gd _ => some (th, gd, 4)
  | .ngMbxp th gd _ _ => some (th, gd, 4)
  | .ngCsrw th gd _ _ _ => some (th, gd, 4)
  | .ngSaup th gd _ _ => some (th, gd, 4)
  | .ngEvt th gd _ => some (th, gd, 4)
  | .ngEnd th gd => some (th, gd, 4)
  | .ngFnpop th gd _ _ => some (th, gd, 4)
  | .ngThctl th gd _ _ => some (th, gd, 4)
  | .ngSstd th gd _ _ => some (th, gd, 4)
  | .ngHretry th gd => some (th, gd, 4)
  | .ngHskip th gd => some (th, gd, 4)
  | .ngHdisc th gd _ => some (th, gd, 4)
  | .ngHesc th gd => some (th, gd, 4)
  | .ngRdfk th gd _ => some (th, gd, 4)
  | _ => none

/-- The window that a command was submitted to. -/
def Machine.WinCmd.window : WinCmd → WinId
  | .dirtyStart p _ _ _ _ _ => .mw p
  | .dirtySwap p _ => .mw p
  | .dirtyStop p _ => .mw p
  | .freezeQuiesce p _ _ => .mw p
  | .freezeInPlace p _ _ => .mw p
  | .thaw p _ => .mw p
  | .save p _ _ _ => .mw p
  | .migrationRestore p _ _ _ _ => .mw p
  | .groupCommit _ _ _ => .gw
  | .groupLeave => .gw
  | .groupRejoin => .gw
  | .saCreate w _ _ _ => .cw w
  | .saDestroy w _ _ => .cw w
  | .saRead w _ _ => .cw w
  | .keyLoadWrapped w _ _ _ _ => .cw w
  | .keyZero w _ _ => .cw w
  | .keyInfo w _ _ => .cw w
  | .insert w _ _ _ _ => .taw w
  | .modify w _ _ _ _ _ => .taw w
  | .delete w _ _ _ _ => .taw w
  | .read w _ _ _ _ => .taw w
  | .readHandle w _ _ => .taw w
  | .modifyHandle w _ _ _ => .taw w
  | .deleteHandle w _ _ => .taw w
  | .cntRead w _ _ _ => .taw w
  | .lookup w _ _ => .taw w
  | .descCreate w _ _ _ => .taw w
  | .descDestroy w _ => .taw w
  | .descParam w _ _ _ => .taw w
  | .create p _ _ _ => .iw p
  | .enable p _ => .iw p
  | .reset p _ _ => .iw p
  | .remove p _ => .iw p

/-- What every state keeps about the window commands that wait for RUN: a window holds at most one, and it is a command of that window
(R86). -/
abbrev Machine.State.heldOk (s : State) : Prop := (s.deferred.map (·.1)).Nodup ∧ ∀ x ∈ s.deferred, x.2.window = x.1

end Sys2Proof
end

