-- ==== Sys2Proof/Certificates/Slice0/Obligations.lean ====
section
/-!
DEFINITION. The statements for the provers.
-/
open Sys2Proof Sys2Proof.Machine

/-! ### The queue -/

/-- A step takes the command at the front of the queue and runs it on the rest. -/
def Obligations.StepRunsFront : Prop :=
  ∀ (s : State) (c : Instr) (rest : List Instr), s.pending = c :: rest → step s = exec c { s with pending := rest }

/-! ### Nongoell: arithmetic, predicates, branches and memory -/

/-- R125 and Table 05-5: the ALU instructions write rd with their result, of 64 bits or, with W = 1, of bits [31:0] of each operand and
zero-extended; nothing else but the pc changes. -/
def Obligations.AluInstructionsWriteTheirResult : Prop :=
  ∀ (s : State) (th : Fin 2048) (g : Guard) (w : Bool) (rd ra rb : Fin 32), s.dev.Issues th g →
    let t := s.dev.past th 4
    let gives (c : Instr) (f : (n : Nat) → BitVec n → BitVec n → BitVec n) : Prop :=
      LeavesThread c s th (t.wg rd (atWidth w f (t.rg ra) (t.rg rb)))
    gives (.ngAdd th g w rd ra rb) (fun n x y => BitVec.ofNat n (x.toNat + y.toNat)) ∧
    gives (.ngSub th g w rd ra rb) (fun n x y => BitVec.ofInt n ((x.toNat : Int) - y.toNat)) ∧
    gives (.ngAnd th g w rd ra rb) (fun _ x y => x &&& y) ∧
    gives (.ngOr th g w rd ra rb) (fun _ x y => x ||| y) ∧
    gives (.ngXor th g w rd ra rb) (fun _ x y => x ^^^ y) ∧
    gives (.ngAndn th g w rd ra rb) (fun _ x y => x &&& ~~~y) ∧
    gives (.ngShl th g w rd ra rb) (fun n x y => BitVec.ofNat n (x.toNat * 2 ^ (y.toNat % n))) ∧
    gives (.ngShr th g w rd ra rb) (fun n x y => BitVec.ofNat n (x.toNat / 2 ^ (y.toNat % n))) ∧
    gives (.ngSar th g w rd ra rb) (fun n x y => BitVec.ofInt n (x.toInt / 2 ^ (y.toNat % n))) ∧
    gives (.ngRol th g w rd ra rb) (fun n x y => x <<< (y.toNat % n) ||| x >>> (n - y.toNat % n)) ∧
    gives (.ngMin th g w rd ra rb) (fun _ x y => if x.toInt < y.toInt then x else y) ∧
    gives (.ngMax th g w rd ra rb) (fun _ x y => if x.toInt < y.toInt then y else x) ∧
    gives (.ngMinu th g w rd ra rb) (fun _ x y => if x.toNat < y.toNat then x else y) ∧
    gives (.ngMaxu th g w rd ra rb) (fun _ x y => if x.toNat < y.toNat then y else x) ∧
    gives (.ngMul th g w rd ra rb) (fun n x y => BitVec.ofNat n (x.toNat * y.toNat)) ∧
    gives (.ngMulhu th g w rd ra rb) (fun n x y => BitVec.ofNat n (x.toNat * y.toNat / 2 ^ n)) ∧
    gives (.ngDivu th g w rd ra rb) (fun n x y => if y.toNat = 0 then BitVec.ofNat n (2 ^ n - 1) else BitVec.ofNat n (x.toNat / y.toNat)) ∧
    gives (.ngRemu th g w rd ra rb) (fun n x y => if y.toNat = 0 then x else BitVec.ofNat n (x.toNat % y.toNat))

/-- R125: the immediate instructions and SHI write rd; a base form advances the pc by 4 and an extended form by 8. MOVHI takes an extended
immediate only below 2^32, and SHI with W = 1 an amount below 32 (both ILLEGAL otherwise, R118). -/
def Obligations.ImmediateInstructionsWriteTheirResult : Prop :=
  ∀ (s : State) (th : Fin 2048) (g : Guard) (w : Bool) (rd ra : Fin 32) (imm : ImmI) (amt : Fin 64), s.dev.Issues th g →
    let t := s.dev.past th imm.len
    let u := s.dev.past th 4
    let a := t.rg ra
    let sh (f : (n : Nat) → BitVec n → BitVec n → BitVec n) : Thread := u.wg rd (atWidth w f a 0)
    LeavesThread (.ngAddi th g rd ra imm) s th (t.wg rd (BitVec.ofNat 64 (a.toNat + imm.sext.toNat))) ∧
    LeavesThread (.ngAndi th g rd ra imm) s th (t.wg rd (a &&& imm.zext)) ∧
    LeavesThread (.ngOri th g rd ra imm) s th (t.wg rd (a ||| imm.zext)) ∧
    LeavesThread (.ngXori th g rd ra imm) s th (t.wg rd (a ^^^ imm.zext)) ∧
    LeavesThread (.ngMovi th g rd imm) s th (t.wg rd imm.sext) ∧
    (imm.zext.toNat < 2 ^ 32 →
      LeavesThread (.ngMovhi th g rd ra imm) s th (t.wg rd (BitVec.ofNat 64 (imm.zext.toNat * 2 ^ 32 + a.toNat % 2 ^ 32)))) ∧
    ((w = true → amt.val < 32) →
      LeavesThread (.ngShiShl th g w rd ra amt) s th (sh fun n x _ => BitVec.ofNat n (x.toNat * 2 ^ amt.val)) ∧
      LeavesThread (.ngShiShr th g w rd ra amt) s th (sh fun n x _ => BitVec.ofNat n (x.toNat / 2 ^ amt.val)) ∧
      LeavesThread (.ngShiSar th g w rd ra amt) s th (sh fun n x _ => BitVec.ofInt n (x.toInt / 2 ^ amt.val)) ∧
      LeavesThread (.ngShiRol th g w rd ra amt) s th (sh fun n x _ => x <<< amt.val ||| x >>> (n - amt.val)))

/-- R125, R126, R127 and Table 05-7: compares and PLOG write one predicate, PRD and PWR move the predicate byte (p0 reading 1 and keeping 0
behind it), and SEL chooses by a predicate. -/
def Obligations.PredicateInstructionsComplete : Prop :=
  ∀ (s : State) (th : Fin 2048) (g : Guard) (w : Bool) (mode : Fin 3) (cond pd pa pb n : Fin 8) (pop : Fin 4) (neg : Bool)
    (rd ra rb : Fin 32) (imm : ImmC), s.dev.Issues th g →
    let t := s.dev.past th 4
    let u := s.dev.past th imm.len
    let holds (x y : Word) : Bool :=
      let su := if w then (((x.setWidth 32).toInt, (y.setWidth 32).toInt) : Int × Int) else (x.toInt, y.toInt)
      let un := if w then (x.toNat % 2 ^ 32, y.toNat % 2 ^ 32) else (x.toNat, y.toNat)
      match cond with
      | 0 => un.1 == un.2
      | 1 => un.1 != un.2
      | 2 => decide (su.1 < su.2)
      | 3 => decide (su.2 ≤ su.1)
      | 4 => decide (un.1 < un.2)
      | 5 => decide (un.2 ≤ un.1)
      | 6 => Nat.land un.1 un.2 != 0
      | 7 => Nat.land un.1 un.2 == 0
    let merged (c : Bool) : Bool := if mode = 0 then c else if mode = 1 then t.rp pd && c else t.rp pd || c
    LeavesThread (.ngCmp th g w mode cond pd ra rb) s th (t.wp pd (merged (holds (t.rg ra) (t.rg rb)))) ∧
    LeavesThread (.ngCmpi th g w mode cond pd ra imm) s th (u.wp pd (merged (holds (t.rg ra) imm.sext))) ∧
    LeavesThread (.ngPlog th g pop pd pa pb) s th
      (t.wp pd (if pop = 0 then t.rp pa && t.rp pb else if pop = 1 then t.rp pa || t.rp pb else if pop = 2 then Bool.xor (t.rp pa) (t.rp pb)
        else t.rp pa && !t.rp pb)) ∧
    LeavesThread (.ngPrd th g rd) s th (t.wg rd (BitVec.ofNat 64 (t.p % 256 / 2 * 2 + 1))) ∧
    LeavesThread (.ngPwr th g ra) s th { t with p := (t.rg ra).toNat % 256 / 2 * 2 } ∧
    LeavesThread (.ngSel th g n neg rd ra rb) s th (t.wg rd (if t.rp n = neg then t.rg rb else t.rg ra))

/-- R125 and Table 05-6: bit fields and bit operations write rd. A field that passes bit 63 is ILLEGAL (R118) and is not covered here. -/
def Obligations.BitInstructionsWriteTheirResult : Prop :=
  ∀ (s : State) (th : Fin 2048) (g : Guard) (w : Bool) (rd ra rb : Fin 32) (pos wm1 : Fin 64), s.dev.Issues th g →
    let t := s.dev.past th 4
    let a := t.rg ra
    let b := t.rg rb
    let v := if w then a.toNat % 2 ^ 32 else a.toNat
    let n := if w then 32 else 64
    let gives (c : Instr) (x : Nat) : Prop := LeavesThread c s th (t.wg rd (BitVec.ofNat 64 x))
    let fld := a.toNat / 2 ^ pos.val % 2 ^ (wm1.val + 1)
    (pos.val + wm1.val < 64 →
      gives (.ngExtu th g rd ra pos wm1) fld ∧
      LeavesThread (.ngExts th g rd ra pos wm1) s th
        (t.wg rd (BitVec.ofInt 64 (if 2 ^ wm1.val ≤ fld then (fld : Int) - 2 ^ (wm1.val + 1) else fld))) ∧
      gives (.ngIns th g rd ra pos wm1)
        ((t.rg rd).toNat / 2 ^ (pos.val + wm1.val + 1) * 2 ^ (pos.val + wm1.val + 1) + a.toNat % 2 ^ (wm1.val + 1) * 2 ^ pos.val
          + (t.rg rd).toNat % 2 ^ pos.val)) ∧
    gives (.ngBswap16 th g w rd ra) (v % 256 * 256 + v / 256 % 256) ∧
    gives (.ngBswap32 th g w rd ra) (v % 256 * 2 ^ 24 + v / 256 % 256 * 2 ^ 16 + v / 2 ^ 16 % 256 * 256 + v / 2 ^ 24 % 256) ∧
    gives (.ngBswap64 th g rd ra) (leNat ((toLe 8 a.toNat).reverse)) ∧
    gives (.ngClz th g w rd ra) (clzNat n v) ∧
    gives (.ngCtz th g w rd ra) (ctzNat n v) ∧
    gives (.ngPopc th g w rd ra) (((List.range n).map fun i => v / 2 ^ i % 2).sum) ∧
    gives (.ngCrc32cB th g rd ra rb) (crcBytes (a.toNat % 2 ^ 32) (toLe 1 b.toNat)) ∧
    gives (.ngCrc32cW th g rd ra rb) (crcBytes (a.toNat % 2 ^ 32) (toLe 4 b.toNat)) ∧
    gives (.ngCrc32cD th g rd ra rb) (crcBytes (a.toNat % 2 ^ 32) (toLe 8 b.toNat)) ∧
    gives (.ngCsadd th g rd ra rb) ((a.toNat + b.toNat) % 2 ^ 64 + (a.toNat + b.toNat) / 2 ^ 64) ∧
    gives (.ngCsfold th g w rd ra) (csfold (if w then 2 else 4) v)

/-- R128: a branch whose target is a multiple of 4 within the code is taken: BR and CALL to PC + 4 × OFF22, CALL leaving PC + 4 in g31, JR
to ra + 4 × IMM12, leaving PC + 4 in rd after ra is read. -/
def Obligations.BranchInstructionsTakeTheirTarget : Prop :=
  ∀ (s : State) (th : Fin 2048) (g : Guard) (rd ra : Fin 32) (off : BitVec 22) (imm : BitVec 12), s.dev.Issues th g →
    let t := s.dev.past th 4
    let pc := (s.dev.th th.val).pc
    let near := (BitVec.ofInt 64 ((pc : Int) + 4 * off.toInt)).toNat
    let far := (BitVec.ofInt 64 ((t.rg ra).toInt + 4 * imm.toInt)).toNat
    (near % 4 = 0 ∧ near + 4 ≤ t.code →
      LeavesThread (.ngBr th g off) s th { t with pc := near } ∧
      LeavesThread (.ngCall th g off) s th { t.wg 31 (BitVec.ofNat 64 (pc + 4)) with pc := near }) ∧
    (far % 4 = 0 ∧ far + 4 ≤ t.code →
      LeavesThread (.ngJr th g rd ra imm) s th { t.wg rd (BitVec.ofNat 64 (pc + 4)) with pc := far })

/-- R129, R130: loads and stores at an address that lies in a region and is aligned. LDL reads LOCAL, least significant byte first, with
sign extension where SX is 1; STL writes private LOCAL; LDP reads the packet space in either byte order. -/
def Obligations.MemoryInstructionsComplete : Prop :=
  ∀ (s : State) (th : Fin 2048) (g : Guard) (sz : Fin 4) (sx be : Bool) (rd rs ra : Fin 32) (off : ImmL) (po : Fin 512), s.dev.Issues th g →
    let t := s.dev.past th off.len
    let u := s.dev.past th 4
    let a := (BitVec.ofNat 64 ((t.rg ra).toNat + off.sext.toNat)).toNat
    let p := (BitVec.ofNat 64 ((t.rg ra).toNat + po.val)).toNat
    let n := 2 ^ sz.val
    let v := leNat (s.dev.localBytes th.val t a n)
    let l := (List.range n).map fun i => (s.dev.itemOf u).pktByte (p + i)
    ((localRegion a n).isSome = true ∧ a % n = 0 →
      LeavesThread (.ngLdl th g sz sx rd ra off) s th
        (t.wg rd (if sx then BitVec.ofInt 64 (signed (8 * n) v) else BitVec.ofNat 64 v))) ∧
    (localRegion a n = some true ∧ a % n = 0 →
      LeavesThread (.ngStl th g sz rs ra off) s th (t.putLocal a (toLe n (t.rg rs).toNat))) ∧
    (p + n ≤ 0x200 →
      LeavesThread (.ngLdp th g sz be rd ra po) s th (u.wg rd (BitVec.ofNat 64 (if be then leNat l.reverse else leNat l))))

/-! ### Nongoell: tickets, time, edits, staging -/

/-- R95, R131 to R136, R176, R182, R297, R302: an instruction that uses a ticket finds it IDLE, with its operands in place, and makes it
PENDING with the request; LKC confirms a READY LKS; nothing else but the pc changes (HRD then starts its read). -/
def Obligations.TicketInstructionsMakeRequests : Prop :=
  ∀ (s : State) (th : Fin 2048) (g : Guard) (is32 : Bool) (tk : Fin 8) (tref : Fin 64) (ra rb : Fin 32), s.dev.Issues th g →
    let d := s.dev
    let t := d.past th 4
    let a := (t.rg ra).toNat
    let b := (t.rg rb).toNat
    let r := d.tref t tref
    let pend (q : TkReq) (dst : Nat) : Thread := t.setTk tk { st := 1, req := q, dst := dst }
    let l16 := d.localBytes th.val t a 16
    let w2 := leNat (slice l16 8 4)
    let l32 := d.localBytes th.val t a 32
    let w3 := leNat (slice l32 12 4)
    let mine (sa : Nat) : Prop := d.isTenant t = true → d.ownsSa (d.itemOf t).tok.inst (sa % 2 ^ 16) = true
    ((t.tk tk).st = 0 →
      (∀ n, r.table = some n → r.rd = true →
        (alignedRange a (d.get F.TABLE_DESC_CFG_KEY_LEN n) → privateRange b (d.get F.TABLE_DESC_CFG_RESULT_LEN n) →
          LeavesThread (.ngLk th g tk tref ra rb) s th
            (pend (.lk false n (d.localBytes th.val t a (d.get F.TABLE_DESC_CFG_KEY_LEN n)) b) b) ∧
          LeavesThread (.ngLks th g tk tref ra rb) s th
            (pend (.lk true n (d.localBytes th.val t a (d.get F.TABLE_DESC_CFG_KEY_LEN n)) b) b)) ∧
        (bits a 28 10 = n → a < 2 ^ 40 → privateRange b (d.get F.TABLE_DESC_CFG_RESULT_LEN n) →
          LeavesThread (.ngTrd th g tk tref ra rb) s th (pend (.trd n a b) b))) ∧
      (b < 2 ^ 32 → b % 2 ^ 16 ≤ 16382 → 1 ≤ b / 2 ^ 16 → b / 2 ^ 16 ≤ 512 → privateRange a (b / 2 ^ 16) →
        LeavesThread (.ngReach th g tk ra rb) s th (pend (.reach (b % 2 ^ 16) (b / 2 ^ 16) a) a)) ∧
      ((localRegion a 16).isSome = true → 1 ≤ w2 % 2 ^ 13 → w2 % 2 ^ 13 ≤ 4096 → bits w2 13 3 = 0 → bits w2 28 4 = 0 →
        leNat (slice l16 12 4) = 0 → (d.isTenant t = false → bits w2 16 12 ≤ 2051) → privateRange b (w2 % 2 ^ 13) →
        Does (.ngHrd th g tk ra rb) s ((d.setTh th.val (pend (.hrd (if d.isTenant t then (d.itemOf t).tok.inst else bits w2 16 12)
          (leNat (slice l16 0 8)) (w2 % 2 ^ 13) b) b)).startHrd th.val tk.val)) ∧
      ((d.isSup th.val = true ∨ (d.isTenant t = false ∧ (bits a 32 6 < 26))) → bits a 32 6 ≤ 37 → bits a 24 8 = 0 → bits a 38 2 = 0 →
        bits a 52 12 = 0 → a % (if is32 then 4 else 8) = 0 → privateRange b 8 →
        LeavesThread (.ngCsrrd th g is32 tk ra rb) s th (pend (.csrrd (!is32) (bits a 32 6) (bits a 40 12) (bits a 0 24) b) b)) ∧
      (mine (leNat (slice l32 0 4)) → verdictReserved l32 = false → (localRegion a 32).isSome = true → privateRange b 32 →
        LeavesThread (.ngSaqry th g tk ra rb) s th (pend (.saqry l32 b) b) ∧
        (bits w3 16 9 ≤ 256 → bits (leNat (slice l32 8 4)) 0 14 ≤ (d.itemOf t).tok.len → privateRange (bits w3 0 16) (bits w3 16 9) →
          LeavesThread (.ngVerdict th g tk ra rb) s th (pend (.verdict l32 b) b)))) ∧
    ((t.tk tk).st = 2 → ∀ n key dst, (t.tk tk).req = .lk true n key dst →
      LeavesThread (.ngLkc th g tk) s th (t.setTk tk { t.tk tk with st := 1, req := .lkc, resp := none, sent := 0 }))

/-- R131, R137 and Table 05-8: on a READY ticket TKST and TKPEEK write the status word, TKST freeing the ticket; on a PENDING one they put
the thread to sleep; TKTEST and TKCAN take any state. RDDTB, SETTC and RDTC move the times, and WAITT completes at once where a
condition holds and sleeps where none does. -/
def Obligations.WaitingInstructionsComplete : Prop :=
  ∀ (s : State) (th : Fin 2048) (g : Guard) (tk pd : Fin 8) (rd ra rb : Fin 32), s.dev.Issues th g →
    let t := s.dev.past th 4
    let k := t.tk tk
    let v := (t.rg rb).toNat
    let word : Word := BitVec.ofNat 64 (k.status % 16 + k.aux % 2 ^ 16 * 2 ^ 16)
    let fired := t.tcmp ≤ s.dev.now ∨ Nat.land t.readyMask (v % 256) ≠ 0 ∨ (bit v 8 = true ∧ t.wake = true)
    let code := b2n (decide (t.tcmp ≤ s.dev.now)) + 2 * b2n (Nat.land t.readyMask (v % 256) != 0) + 4 * b2n (bit v 8 && t.wake)
      + 256 * t.readyMask
    (2 ≤ k.st →
      LeavesThread (.ngTkst th g tk rd) s th ((t.setTk tk {}).wg rd word) ∧
      LeavesThread (.ngTkpeek th g tk rd) s th (t.wg rd word)) ∧
    (k.st = 1 →
      Does (.ngTkst th g tk rd) s ((s.dev.setTh th.val { t with sleep := .ticket tk.val rd.val false }).settleSlot (th.val / 8)) ∧
      Does (.ngTkpeek th g tk rd) s ((s.dev.setTh th.val { t with sleep := .ticket tk.val rd.val true }).settleSlot (th.val / 8))) ∧
    LeavesThread (.ngTktest th g tk pd) s th (t.wp pd (k.st == 2)) ∧
    LeavesThread (.ngTkcan th g tk) s th (t.setTk tk {}) ∧
    LeavesThread (.ngRddtb th g rd) s th (t.wg rd (BitVec.ofNat 64 s.dev.now)) ∧
    LeavesThread (.ngSettc th g ra) s th { t with tcmp := (t.rg ra).toNat } ∧
    LeavesThread (.ngRdtc th g rd) s th (t.wg rd (BitVec.ofNat 64 t.tcmp)) ∧
    (v < 2 ^ 9 →
      (fired → LeavesThread (.ngWaitt th g rd rb) s th (t.waittDone rd.val (bit v 8) code)) ∧
      (¬ fired → Does (.ngWaitt th g rd rb) s
        ((s.dev.setTh th.val { t with sleep := .waitt rd.val (v % 256) (bit v 8) }).settleSlot (th.val / 8))))

/-- R138: HAPP appends the command that 16 bytes of LOCAL hold, with its edit data, to a list of fewer than 16; HCLR empties the list and
HPOP takes its last command. -/
def Obligations.EditListInstructionsComplete : Prop :=
  ∀ (s : State) (th : Fin 2048) (g : Guard) (ra : Fin 32), s.dev.Issues th g →
    let d := s.dev
    let t := d.past th 4
    let a := (t.rg ra).toNat
    let c0 := EditCmd.ofBytes (d.localBytes th.val t a 16)
    let takes := c0.src = 2 ∧ (c0.cmd = ePUSH ∨ c0.cmd = eWRITE)
    let c := if takes then { c0 with data := d.localBytes th.val t (c0.w1 % 2 ^ 21) c0.len } else c0
    (alignedRange a 16 → (takes → (localRegion (c0.w1 % 2 ^ 21) c0.len).isSome = true) →
      ((c0.cmd = eNVME_TX ∨ c0.cmd = eNVME_PLACE) → d.ownsRange (d.itemOf t).tok.inst 5 (c0.w1 % 2 ^ 14) = true) →
      happBad (d.itemOf t) t.edits c = false → t.edits.length < 16 →
      LeavesThread (.ngHapp th g ra) s th { t with edits := t.edits ++ [c] }) ∧
    LeavesThread (.ngHclr th g) s th { t with edits := [] } ∧
    LeavesThread (.ngHpop th g) s th { t with edits := t.edits.dropLast }

/-- R139, R194, R197, R180, R303, R394, R436, R452: a staging instruction whose operands are in place appends its effect to the staged
records, of which there are fewer than 32; nothing else but the pc changes. -/
def Obligations.StagingInstructionsAppendTheirEffect : Prop :=
  ∀ (s : State) (th : Fin 2048) (g : Guard) (is32 : Bool) (tref : Fin 64) (ra rb : Fin 32), s.dev.Issues th g →
    let d := s.dev
    let t := d.past th 4
    let x := d.itemOf t
    let a := (t.rg ra).toNat
    let b := (t.rg rb).toNat
    let r := d.tref t tref
    let stages (c : Instr) (e : Eff) : Prop := LeavesThread c s th { t with effs := t.effs ++ [e] }
    let tenant := d.isTenant t = true
    let f := dmaBlock (d.localBytes th.val t a 16)
    let inst (i : Nat) : Nat := if d.isTenant t then x.tok.inst else i
    let l32 := d.localBytes th.val t a 32
    let w0 := leNat (slice l32 0 4)
    let sz := if bits w0 4 2 = 0 then 4 else 8
    t.effs.length < 32 →
    (∀ n, r.table = some n → r.wr = true →
      let ty := d.get F.TABLE_DESC_CFG_TYPE n
      let kl := d.get F.TABLE_DESC_CFG_KEY_LEN n
      let rl := d.get F.TABLE_DESC_CFG_RESULT_LEN n - 16
      let lpm := ty = 1 ∨ ty = 2
      let plen := if lpm then d.localByte th.val t (a + kl) else 0
      (ty < 3 → d.get F.TABLE_DESC_CFG_SCOPE n ≠ 1 → (ty = 1 → plen ≤ 32) → (ty = 2 → plen ≤ 128) →
        alignedRange a (kl + if lpm then 1 else 0) →
        (kl + rl ≤ 64 → alignedRange b rl →
          stages (.ngTwrInsert th g tref ra rb) (.tableWrite n 0 plen (d.localBytes th.val t a kl) (d.localBytes th.val t b rl)) ∧
          stages (.ngTwrModify th g tref ra rb) (.tableWrite n 1 plen (d.localBytes th.val t a kl) (d.localBytes th.val t b rl))) ∧
        stages (.ngTwrDelete th g tref ra) (.tableWrite n 2 plen (d.localBytes th.val t a kl) [])) ∧
      (bits a 28 10 = n → a < 2 ^ 40 → 1 ≤ b → b < 2 ^ 32 → stages (.ngCntaEntry th g tref ra rb) (.cntEntry n a b)) ∧
      (alignedRange a 32 → bits (leNat (slice l32 8 8)) 28 10 = n → leNat (slice l32 8 8) < 2 ^ 40 → bits w0 0 4 ≤ 6 → bits w0 4 2 ≤ 1 →
        bits w0 6 2 = 0 → w0 < 2 ^ 15 → leNat (slice l32 4 4) = 0 → bits w0 8 7 % sz = 0 → bits w0 8 7 + sz ≤ rl →
        (bits w0 0 4 ≠ 2 → leNat (slice l32 24 8) = 0) → stages (.ngAtom th g tref ra) (.atomic n l32))) ∧
    (a ≤ 16383 → 1 ≤ b → b < 2 ^ 32 → (tenant → d.ownsRange x.tok.inst 4 a = true) → stages (.ngCntaProg th g ra rb) (.cntProg a b)) ∧
    (alignedRange a 16 → f.2.2.2.2 = false →
      (1 ≤ f.2.1 → f.2.1 ≤ 16 → inst f.2.2.1 ≤ 2051 → f.2.2.2.1 = 0 → alignedRange b f.2.1 →
        stages (.ngDmawImmediate th g ra rb) (.dmaImm f.1 (inst f.2.2.1) (d.localBytes th.val t b f.2.1))) ∧
      (1 ≤ f.2.1 → f.2.1 ≤ 16383 → inst f.2.2.1 ≤ 2051 → f.2.2.2.1 + f.2.1 ≤ x.tok.len →
        stages (.ngDmawRange th g ra) (.dmaRange f.1 f.2.1 (inst f.2.2.1) f.2.2.2.1))) ∧
    (b < 2 ^ 13 → inst (b % 2 ^ 12) ≤ 2051 → alignedRange a 64 →
      stages (.ngMbxp th g ra rb) (.mbox (inst (b % 2 ^ 12)) (bits b 12 1) (d.localBytes th.val t a 64))) ∧
    ((d.isSup th.val = true ∨ ¬ tenant) → bits a 32 6 < 26 → bits a 24 8 = 0 → bits a 38 2 = 0 → bits a 52 12 = 0 →
      a % (if is32 then 4 else 8) = 0 →
      stages (.ngCsrw th g is32 ra rb) (.csr (!is32) (bits a 32 6) (bits a 40 12) (bits a 0 24) (if is32 then b % 2 ^ 32 else b))) ∧
    (a ≤ 65535 → b ≠ 0 → (tenant → d.ownsSa x.tok.inst a = true) → stages (.ngSaup th g ra rb) (.saUpdate a b)) ∧
    (a ≤ 63 → stages (.ngEvt th g ra) (.event a))

/-- Table 04-7, R103, R139, R140: EMIT and DISC stage their record, and with SUB 1 end the attempt in the same issue; END ends it with what is
staged. A worker's end sends the batch and frees the thread; the supervisor has no batch and goes on. -/
def Obligations.EmitDiscardAndEndComplete : Prop :=
  ∀ (s : State) (th : Fin 2048) (g : Guard) (ra rb : Fin 32), s.dev.Issues th g →
    let d := s.dev
    let t := d.past th 4
    let x := d.itemOf t
    let a := (t.rg ra).toNat
    let b := (t.rg rb).toNat
    let with1 (e : Eff) : Thread := { t with effs := t.effs ++ [e] }
    let ends (u : Thread) : Dev := if d.isSup th.val then d.setTh th.val u
      else (d.setTh th.val u).endAttempt th.val u.effs (d.idleState th.val)
    let has (k : Nat) : Bool := t.edits.any (·.cmd == k)
    let ty := bits a 17 2
    let dest := a % 2 ^ 17
    let sa := b % 2 ^ 16
    let len := editedLen x t.edits + (if bit b 16 then d.cryptoExpansion sa x t.edits else 0)
    let emit (fin : Bool) : Eff := .emit dest ty sa (bit b 16) fin t.edits
    let disc (fin : Bool) : Eff := .discard 1 (a % 2 ^ 8) fin
    (t.effs.length < 32 →
      (a < 2 ^ 19 → b < 2 ^ 17 → ty < 3 → (ty = 1 → dest ≤ 65535) → (ty = 2 → d.groupDestOk dest = true) →
        (d.isTenant t = true → d.tenantMayEmit x.tok.inst ty dest = true ∧ (bit b 16 = true → d.ownsSa x.tok.inst sa = true)) →
        (bit b 16 = true → ty = 0 ∧ has eCRYPTO_MARK = true ∧ d.saDirOk (th.val / 128) sa t.edits = true) →
        (has eTS_ORIGIN || has eTS_CORR || has eTS_CAPTURE || has eCRYPTO_MARK || has eNVME_TX → ty = 0) →
        (has eTS_ORIGIN || has eTS_CORR || has eTS_CAPTURE → ty = 0 → d.rootOfQueue dest < 34) →
        (has eNVME_PLACE = true → ty = 1) → (if ty = 0 then 14 else 1) ≤ len → len ≤ (if ty = 0 then 16379 else 16383) →
        LeavesThread (.ngEmit th g ra rb) s th (with1 (emit false)) ∧ Does (.ngEmitEnd th g ra rb) s (ends (with1 (emit true)))) ∧
      (a < 2 ^ 11 → bits a 8 3 = 1 → (a % 2 ^ 8 = 0 ∨ 0x80 ≤ a % 2 ^ 8) →
        (∀ e ∈ t.effs, match e with | .discard .. => False | _ => True) →
        LeavesThread (.ngDisc th g ra) s th (with1 (disc false)) ∧ Does (.ngDiscEnd th g ra) s (ends (with1 (disc true))))) ∧
    Does (.ngEnd th g) s (ends t)

/-- R141, R159: on the supervisor FNPOP moves the oldest note into LOCAL (rd = 1) or reports an empty queue (rd = 0), THCTL
restarts, halts or wakes another thread of the pod, and SSTD stores 8 bytes in shared LOCAL. -/
def Obligations.SupervisorInstructionsComplete : Prop :=
  ∀ (s : State) (th : Fin 2048) (g : Guard) (rd ra rb : Fin 32), s.dev.Issues th g → s.dev.isSup th.val = true →
    let d := s.dev
    let t := d.past th 4
    let p := th.val / 128
    let a := (t.rg ra).toNat
    let y := p * 128 + a % 128
    let st := (d.th y).st
    (privateRange a 32 →
      ((d.pod p).notes = [] → LeavesThread (.ngFnpop th g rd ra) s th (t.wg rd 0)) ∧
      (∀ n rest, (d.pod p).notes = n :: rest →
        Does (.ngFnpop th g rd ra) s
          ((d.setPod p { d.pod p with notes := rest }).setTh th.val ((t.putLocal a (n.flatMap (toLe 4))).wg rd 1)))) ∧
    (y ≠ th.val →
      ((t.rg rb).toNat = 0 →
        Does (.ngThctl th g ra rb) s ((match st with
          | .bound | .trapped => d.endAttempt y [] (d.idleState y)
          | .disabled => d
          | _ => d.setTh y { st := d.idleState y }).setTh th.val t)) ∧
      ((t.rg rb).toNat = 1 →
        Does (.ngThctl th g ra rb) s ((match st with
          | .bound | .trapped => d.endAttempt y [] .halted
          | .free => d.setTh y { st := .halted }
          | _ => d).setTh th.val t)) ∧
      ((t.rg rb).toNat = 2 → Does (.ngThctl th g ra rb) s ((d.setTh y { d.th y with wake := true }).setTh th.val t))) ∧
    (localRegion a 8 = some false → a % 8 = 0 →
      Does (.ngSstd th g ra rb) s (Dev.setTh { d with shl := ((toLe 8 (t.rg rb).toNat).foldl
        (fun (y : Nat × Tbl Nat) b => (y.1 + 1, y.2.set y.1 b)) (p * 2 ^ 20 + (a - 0x100000), d.shl)).2 } th.val t))

/-- R142, R153, R154: in a handler HRETRY and HSKIP resume the worker with the registers that the trap saved, at the faulting
instruction or past it, HDISC ends the attempt with one DISCARD, HESC drops everything and halts the thread, and RDFK reads the fault;
after a WATCHDOG trap HRETRY and HSKIP act as HESC. -/
def Obligations.HandlerInstructionsComplete : Prop :=
  ∀ (s : State) (th : Fin 2048) (g : Guard) (rd ra : Fin 32), s.dev.Issues th g → (s.dev.th th.val).st = .trapped →
    let d := s.dev
    let t := d.past th 4
    let a := (t.rg ra).toNat
    let back (pc : Nat) : Thread := { t.restore with st := .bound, pc := pc, fkind := 0, faddr := 0, flen := 0 }
    let esc := (d.setTh th.val t).escalate th.val
    (t.fkind ≠ kWATCHDOG →
      LeavesThread (.ngHretry th g) s th (back t.faddr) ∧ LeavesThread (.ngHskip th g) s th (back (t.faddr + t.flen))) ∧
    (t.fkind = kWATCHDOG → Does (.ngHretry th g) s esc ∧ Does (.ngHskip th g) s esc) ∧
    (a < 2 ^ 11 → bits a 8 3 = 1 → (a % 2 ^ 8 = 0 ∨ 0x80 ≤ a % 2 ^ 8) →
      Does (.ngHdisc th g ra) s ((d.setTh th.val t).endAttempt th.val [.discard 1 (a % 2 ^ 8) true] (d.idleState th.val))) ∧
    Does (.ngHesc th g) s esc ∧
    LeavesThread (.ngRdfk th g rd) s th (t.wg rd (BitVec.ofNat 64 (t.fkind % 256 + t.faddr % 2 ^ 32 * 2 ^ 32)))

/-! ### Register conventions -/

/-- R64, R67, R69, R71 and Table 03-2: what one field of a written register becomes, for each access type, beside a hardware update of
the same cycle (`hw`). `m` is the mask of the enabled bytes; the field is whole in it or not touched by it. -/
def Obligations.FieldWriteFollowsItsAccessType : Prop :=
  ∀ (f : FieldRow) (old v m : Nat) (locked : Bool) (hw : Option Nat) (a : WriteAcc),
    let was := bits old f.lo f.w
    let new := bits v f.lo f.w
    let out := f.merge old v m locked hw a
    let becomes (x : Nat) : Prop := bits out.val f.lo f.w = x % 2 ^ f.w
    (bits m f.lo f.w = 0 →
      (hw = none → out = a) ∧ (∀ x, hw = some x → becomes x)) ∧
    (bits m f.lo f.w = 2 ^ f.w - 1 → f.w ≠ 0 →
      ((f.acc = .ro ∨ f.acc = .rc) → (hw = none → out = a) ∧ (∀ x, hw = some x → becomes x)) ∧
      (f.acc = .wo → out = a) ∧
      ((f.acc = .rw ∨ f.acc = .rws) → f.rng.ok f.w new = true → becomes new) ∧
      ((f.acc = .rw ∨ f.acc = .rws) → f.rng.ok f.w new = false → out = { a with bad := true }) ∧
      (f.acc = .rwl → locked = true → out = { a with locked := true }) ∧
      (f.acc = .rwl → locked = false → f.rng.ok f.w new = true → becomes new) ∧
      (f.acc = .rwh → ∀ x, hw = some x → becomes x ∧ out.lost = true) ∧
      (f.acc = .rwh → hw = none → f.rng.ok f.w new = true → becomes new ∧ out.lost = a.lost) ∧
      (f.acc = .hwu → becomes (new + hw.getD 0)) ∧
      (f.acc = .rw1c → ∀ k, k < f.w →
        (bits out.val f.lo f.w).testBit k = ((was.testBit k && !new.testBit k) || (hw.getD 0).testBit k)) ∧
      (f.acc = .rw1s → ∀ k, k < f.w →
        (bits out.val f.lo f.w).testBit k = (new.testBit k || (match hw with | some x => x.testBit k | none => was.testBit k))))

/-- R72: a write that reaches every field of a locked register whose fields are all RWL leaves the register as it was, and is recorded as
an ignored access of cause LOCKED. One that reaches none of its bytes changes no register. -/
def Obligations.LockedRegisterKeepsItsValue : Prop :=
  ∀ (d : Dev) (r : Reg) (i v be : Nat), d.regLocked r i = true → r.fields ≠ [] → (∀ f ∈ r.fields, f.acc = .rwl) →
    r ≠ .QE_LEDGER_BASE → r ≠ .QE_LEDGER_SIZE →
    let e := d.writeFields r i v be []
    let h := r.place.header i
    ((∀ f ∈ r.fields, bits (beMask be) f.lo f.w ≠ 0) →
      e.rd r i = d.rd r i % 2 ^ r.width ∧ e.get F.BLK_STATUS_IGNORED h = 1 ∧ e.get F.BLK_STATUS_LAST_CAUSE h = cLOCKED ∧
      e.get F.BLK_IGNORED_COUNT h = min 0xFFFF (d.get F.BLK_IGNORED_COUNT h + 1)) ∧
    ((∀ f ∈ r.fields, bits (beMask be) f.lo f.w = 0) →
      e.rd r i = d.rd r i % 2 ^ r.width ∧ ∀ (r' : Reg) (j : Nat), (r' ≠ r ∨ j ≠ i) → e.rd r' j = d.rd r' j)

/-- R73, Table 03-6: an ignored access sets IGNORED and LAST_CAUSE of its block's header, records its offset, and increments the count of
ignored accesses up to 0xFFFF. -/
def Obligations.IgnoredAccessIsRecorded : Prop :=
  ∀ (d : Dev) (h off cause : Nat), cause < 8 →
    let e := d.ignoredAt h off cause
    e.get F.BLK_STATUS_IGNORED h = 1 ∧ e.get F.BLK_STATUS_LAST_CAUSE h = cause ∧
    e.get F.BLK_LAST_ADDR_OFFSET h = off % 2 ^ F.BLK_LAST_ADDR_OFFSET.w ∧
    e.get F.BLK_IGNORED_COUNT h = min 0xFFFF (d.get F.BLK_IGNORED_COUNT h + 1)

/-- R65, R69, R75, R76, R88, R655: register accesses complete: reads of an RC field, half accesses with the latch of the block and
requester, RESULT_ACK on a DONE window with its SEQ, an access to a reserved range, and a register write, which is the block's to
receive. -/
def Obligations.RegisterAccessesComplete : Prop :=
  ∀ (s : State) (q : Requester) (t : Target) (v : BitVec 32),
    let d := s.dev
    let k := latchKey t q
    (∀ (pod : Fin 16) (j : Fin 48), d.isUp pod.val = true →
      Does (.rcRead (.pod pod) pod j) s
        ((d.emit (.rsp (2053 + pod.val) [d.rd .POD_SUPV_EVT (pod.val * 48 + j.val)])).wr .POD_SUPV_EVT (pod.val * 48 + j.val) 0) ∧
      (q ≠ .pod pod → Does (.rcRead q pod j) s (d.emit (.rsp q.code [0])))) ∧
    (d.isUp t.island = true →
      Does (.halfReadLow q t) s
        (let e := d.emit (.rsp q.code [d.lookAt t % 2 ^ 32])
         { e with rlatch := d.rlatch.set k (some ⟨t.blockOffset, d.lookAt t / 2 ^ 32⟩) }) ∧
      (∀ l, d.rlatch.get k = some l → l.tag = t.blockOffset →
        Does (.halfReadHigh q t) s (let e := d.emit (.rsp q.code [l.val]); { e with rlatch := d.rlatch.set k none })) ∧
      ((∀ l, d.rlatch.get k = some l → l.tag ≠ t.blockOffset) →
        Does (.halfReadHigh q t) s ((d.emit (.rsp q.code [d.lookAt t / 2 ^ 32])).ignoredAt t.header t.blockOffset 0)) ∧
      Does (.halfWriteLow q t v) s { d with wlatch := d.wlatch.set k (some ⟨t.blockOffset, v.toNat⟩) } ∧
      (∀ l, d.wlatch.get k = some l → l.tag = t.blockOffset →
        Does (.halfWriteHigh q t v) s (Dev.write { d with wlatch := d.wlatch.set k none } q t (v.toNat * 2 ^ 32 + l.val) 0xFF [])) ∧
      ((∀ l, d.wlatch.get k = some l → l.tag ≠ t.blockOffset) →
        Does (.halfWriteHigh q t v) s (d.write q t (v.toNat * 2 ^ 32) 0xF0 []))) ∧
    (∀ (w : WinId) (a : BitVec 16), d.isUp w.island = true → d.halted = false → (d.win w).st = 2 → (d.win w).seq = a.toNat →
      Does (.resultAck w a) s (d.setWin w { d.win w with st := 0 })) ∧
    (∀ (f : Fin 2052), d.isUp 20 = true →
      Does (.reservedAccess f true) s (d.count .HOST_BAD_ACCESS (d.hostPortOf f.val)) ∧
      Does (.reservedAccess f false) s ((d.emit (.rsp f.val [0])).count .HOST_BAD_ACCESS (d.hostPortOf f.val))) ∧
    (∀ (x : BitVec 64) (be : BitVec 8) (hw : List (Nat × Nat)) (i : Nat), d.isUp 21 = true → d.halted = false → i < 32 →
      Does (.registerWrite .steward (.reg .TM_PORT_HOLD i) x be hw) s (d.writeFields .TM_PORT_HOLD i x.toNat be.toNat hw))

/-- R80, R81, R84: the statistics epoch. A request outside a closing window sets T_sw 500 ns ahead; at T_sw the banks switch, so that
the closed bank holds what was open; 2 us later the closed bank takes no more updates and EPOCH_CLOSED is set. -/
def Obligations.StatisticsEpochCompletes : Prop :=
  ∀ (s : State),
    let d := s.dev
    (d.isUp 21 = true → d.halted = false → d.flag F.STATS_EPOCH_CTL_SWITCH = false → d.flag F.STATS_EPOCH_CTL_CLOSING = false →
      let e := d.put F.STATS_EPOCH_CTL_SWITCH 0 1
      Does (.epochSwitchRequest .steward) s { e with epoch := { d.epoch with tsw := some (d.mono + 500) } } ∧
      Does (.epochSwitchRequest (.fn 0)) s { e with epoch := { d.epoch with tsw := some (d.mono + 500) } }) ∧
    (d.isUp 21 = true → d.rd .STATS_EPOCH_PERIOD 0 ≠ 0 → d.epoch.tsw = none → d.epoch.held = false →
      Does .epochPeriodExpiry s (d.reach (d.epoch.tlast + d.rd .STATS_EPOCH_PERIOD 0 * 1000000)).epochRequest) ∧
    (∀ t, d.epoch.tsw = some t →
      ∃ e, Does .epochSwitchInstant s e ∧ e.closed = d.ctrs ∧ e.ctrs = d.ctrs ∧
        e.epoch = { d.epoch with tsw := none, last := some t, tlast := t } ∧ e.flag F.STATS_EPOCH_CTL_CLOSING = true ∧
        e.flag F.STATS_EPOCH_CTL_SWITCH = false ∧
        e.get F.STATS_EPOCH_CTL_EPOCH = (d.get F.STATS_EPOCH_CTL_EPOCH + 1) % 2 ^ F.STATS_EPOCH_CTL_EPOCH.w) ∧
    (∀ t, d.epoch.last = some t → d.flag F.STATS_EPOCH_CTL_CLOSING = true → d.epoch.held = false →
      let e := ((d.reach (t + 2000)).put F.STATS_EPOCH_CTL_CLOSING 0 0).put F.STATS_EPOCH_CTL_EPOCH_CLOSED 0 1
      Does .epochClose s (e.raiseLocal 21 0 0 (e.get F.STATS_EPOCH_CTL_EPOCH))) ∧
    (∀ (c : Ctr) (i n issued : Nat), d.isUp (c.place.island i) = true →
      ((c.banked = false ∨ d.epoch.last = none) → Does (.counterUpdate c i n issued) s (d.count c i n)) ∧
      (∀ t, c.banked = true → d.epoch.last = some t →
        (t + d.sys.steps ≤ issued → Does (.counterUpdate c i n issued) s (d.count c i n)) ∧
        (issued < t + d.sys.steps → d.flag F.STATS_EPOCH_CTL_CLOSING = true →
          Does (.counterUpdate c i n issued) s ((d.count c i n).countClosed c i n)) ∧
        (issued < t + d.sys.steps → d.flag F.STATS_EPOCH_CTL_CLOSING = false →
          Does (.counterUpdate c i n issued) s (((d.count c i n).count .STATS_LATE_UPDATES).fault 3 3 (c.place.island i)))))

/-! ### Silkway, items and tokens -/

/-- R16, R24, R25, R30, R209: a request to an island in reset is answered STATUS 6; what an island in reset should have taken is dropped and counted; a
sequence gap and a failed router are reported; a retired pseudo-channel loses what it held and its structures are rebuilt. -/
def Obligations.SilkwayEventsComplete : Prop :=
  ∀ (s : State) (th : Fin 2048) (tk : Fin 8) (k n : Nat) (src dst : Fin 26) (cls : Fin 5) (r : Fin 36) (pc : Fin 64)
    (lost : List Nat) (copies entries : List (Nat × Nat)),
    let d := s.dev
    let t := d.th th.val
    let q := t.tk tk
    (q.st = 1 → q.resp = none → q.req.island (th.val / 128) = some n → d.isUp n = false →
      LeavesThread (.reqToIslandInReset th tk) s th (t.setTk tk { q with resp := some { status := 6 } })) ∧
    (d.isUp 20 = false → k < d.evq.length →
      Does (.discardToIslandInReset (.event k)) s (({ d with evq := d.evq.eraseIdx k } : Dev).count .SWY_DROP_ABSENT)) ∧
    (d.isUp 21 = false → k < d.cmsgs.length →
      Does (.discardToIslandInReset (.commit k)) s (({ d with cmsgs := d.cmsgs.eraseIdx k } : Dev).count .SWY_DROP_ABSENT)) ∧
    (d.isUp dst.val = true → ¬ (src.val < 16 ∧ dst.val = 21 ∧ cls.val = 4) →
      Does (.sequenceGap src dst cls) s (d.fault 2 1 dst.val (src.val + dst.val * 32) cls.val)) ∧
    (d.isUp 21 = true → src.val < 16 → (d.itemList.all fun x => x.batch.isNone || x.pod != some src.val) = true →
      Does (.sequenceGap src 21 4) s (d.fault 2 1 21 (src.val + 21 * 32) 4)) ∧
    (bit (d.get F.FCOL_ROUTER_ISO_ROUTERS) r.val = false →
      let kept := (d.cmsgs.mapIdx fun i m => (i, m)).filterMap fun p =>
        if lost.contains p.1 && onRoute r.val p.2.pod 21 then none else some p.2
      Does (.routerDeclaredFailed r lost) s ((Dev.fault { d with cmsgs := kept } 2 2 24 r.val).routerFails r.val)) ∧
    (∀ h, d.sys.swyHold.find? (·.1 == r.val) = some h →
      Does (.rerouteHoldExpiry r) s
        { d.reach h.2 with sys := { (d.reach h.2).sys with swyHold := (d.reach h.2).sys.swyHold.filter (·.1 != r.val) } }) ∧
    (d.isUp 21 = true → bit (d.get F.FCOL_PC_RETIRED_PCS) pc.val = false →
      let e := entries.foldl (fun d p => d.loseEntry p.1 p.2) ((d.fault 1 9 21 (pc.val * 256)).retirePc pc.val copies)
      Does (.pseudoChannelRetire pc copies entries) s { e with tbl := { e.tbl with rebuild := e.tbl.rebuild ++ [pc.val] } }) ∧
    (d.isUp 22 = true → pc.val ∈ d.tbl.rebuild → (∀ c ∈ d.tbl.entries.cells, ∀ e, c.2 = some e → e.lostDue = false) →
      Does (.structureRebuild pc) s { d with tbl := { d.tbl with rebuild := d.tbl.rebuild.filter (· != pc.val) } })

/-- R19, R25: the home pair of two islands: the source router is the source island's position closest in hops to the lowest-ID position of
the destination island, the destination router the destination island's position closest to that source router, the lowest ID among
equals; both lie on the route, which goes along X first and then along Y, and no route passes a router within one island; and what an
island sends within the 2 us after a router of its route failed is held until their end, what it sent before is not. -/
def Obligations.MeshRoutesAndHolds : Prop :=
  (∀ src dst : Fin 26, src ≠ dst →
    let q := ((routersOf dst.val).headD 0)
    let a := (homePair src.val dst.val).1
    let b := (homePair src.val dst.val).2
    a ∈ routersOf src.val ∧ b ∈ routersOf dst.val ∧ (∀ r ∈ routersOf dst.val, q ≤ r) ∧
    (∀ r ∈ routersOf src.val, routerHops a q < routerHops r q ∨ routerHops a q = routerHops r q ∧ a ≤ r) ∧
    (∀ r ∈ routersOf dst.val, routerHops b a < routerHops r a ∨ routerHops b a = routerHops r a ∧ b ≤ r) ∧
    (∀ r : Fin 36, onRoute r.val src.val dst.val = true ↔
      (r.val / 6 = a / 6 ∧ min (a % 6) (b % 6) ≤ r.val % 6 ∧ r.val % 6 ≤ max (a % 6) (b % 6)) ∨
      (r.val % 6 = b % 6 ∧ min (a / 6) (b / 6) ≤ r.val / 6 ∧ r.val / 6 ≤ max (a / 6) (b / 6)))) ∧
  (∀ r src : Nat, onRoute r src src = false) ∧
  (∀ (s : State) (r : Fin 36) (src dst : Fin 26) (sent : Nat), bit (s.dev.get F.FCOL_ROUTER_ISO_ROUTERS) r.val = false →
    s.dev.sys.swyHold = [] → (s.dev.routerFails r.val).heldTill src.val dst.val sent =
      if onRoute r.val src.val dst.val = true ∧ s.dev.mono ≤ sent then s.dev.mono + 2000 else 0)

/-- R52, R149, R150, R151, R157: a token is dispatched to a pod with a free worker, bound to that worker with the item's program, or issued again with
REPLAY set; R160: a supervisor is handed over and restarted. -/
def Obligations.TokensComplete : Prop :=
  ∀ (s : State) (st : BitVec 48) (p : Fin 16),
    let d := s.dev
    (∀ (x : Item) (pod : Nat), d.isUp 21 = true → d.item st.toNat = some x → x.pst = .waiting → d.halted = false →
      x.tok.replay = false → d.activeVer x.tok.slot ≠ 0 → d.podFor = some pod →
      let e := d.setItem st.toNat { x with tok := { x.tok with ver := d.activeVer x.tok.slot }, pst := .atPod pod, toPod := d.mono }
      Does (.tokenDispatch st) s (e.setPod pod { e.pod pod with port := (e.pod pod).port ++ [st.toNat] })) ∧
    (∀ (x : Item) (rest : List Nat) (t : Nat), d.podRuns p.val = true → (d.pod p.val).port = st.toNat :: rest →
      d.workerFor p.val = some t → d.item st.toNat = some x →
      let th := p.val * 128 + t
      let e := d.setPod p.val { d.pod p.val with port := rest }
      let e := e.reach (e.heldTill 21 p.val x.toPod)
      Does (.tokenBind p) s
        (((e.setTh th (startThread x.tok ((e.slots.get (x.tok.slot * 256 + x.tok.ver)).getD {}) e.mono)).settleSlot (th / 8)).setItem st.toNat
          { x with pst := .atThread th })) ∧
    (∀ x : Item, d.isUp 21 = true → d.item st.toNat = some x → x.pst = .lost →
      (x.tok.gen = d.gen x.tok.inst →
        Does (.tokenReissue st) s
          ((d.setItem st.toNat { x with tok := { x.tok with replay := true }, pst := .waiting }).dispatchToken st.toNat)) ∧
      (x.tok.gen ≠ d.gen x.tok.inst →
        Does (.tokenReissue st) s ((d.setItem st.toNat { x with pst := .waiting }).dispose st.toNat 3 0))) ∧
    (d.live p.val → Does (.supervisorRestart p) s (d.startSupervisor p.val)) ∧
    (∀ v : BitVec 32, d.live p.val → Does (.supervisorWrite p v) s (d.supervisorWrite p.val v.toNat 15)) ∧
    (∀ (v : BitVec 32) (slot : Fin 256), d.live p.val →
      Does (.slotHandlerWrite p slot v) s (d.writeFields .POD_SLOT_HANDLER (p.val * 256 + slot.val) v.toNat 15 [])) ∧
    (∀ t, d.isUp p.val = true → (d.pod p.val).supNext = some t → (d.th (p.val * 128 + t)).st ≠ .bound →
      (d.th (p.val * 128 + t)).st ≠ .trapped →
      let old := p.val * 128 + (d.pod p.val).sup
      Does (.supervisorHandover p) s
        (((d.setTh old { st := d.idleState old }).setPod p.val { d.pod p.val with sup := t, supNext := none }).startSupervisor p.val))

/-- R111, R133, R145, R146, R147, R154, R162: cores, threads and parking. A thread whose ticket is READY wakes
with the status word, one whose WAITT condition holds with its code; an answered ticket becomes READY and an OK answer's bytes land; a parked pod has no worker running and wakes on request. -/
def Obligations.ThreadEventsComplete : Prop :=
  ∀ (s : State) (th : Fin 2048) (core : Fin 256) (p : Fin 16) (v : BitVec 32) (own : Fin 8),
    let d := s.dev
    let t := d.th th.val
    (d.live (core.val / 16) →
      let e := d.writeFields .POD_CORE_CTL core.val v.toNat 15 []
      (d.get F.POD_CORE_CTL_MODE core.val = 0 → e.get F.POD_CORE_CTL_MODE core.val = 1 →
        Does (.coreCtlWrite core v own) s
          (Dev.applyThreadEn { e with cores := e.cores.set core.val { owner := own.val, borrow := none } } core.val)) ∧
      ((d.get F.POD_CORE_CTL_MODE core.val ≠ 0 ∨ e.get F.POD_CORE_CTL_MODE core.val ≠ 1) →
        Does (.coreCtlWrite core v own) s (e.applyThreadEn core.val))) ∧
    (∀ k, d.podRuns (core.val / 16) = true → d.get F.POD_CORE_CTL_MODE core.val = 1 →
      (List.range 8).find? (fun k => d.ready (core.val * 8 + ((d.cores.get core.val).owner + 1 + k) % 8)) = some k →
      Does (.quantumExpiry core) s
        { d with cores := d.cores.set core.val { owner := ((d.cores.get core.val).owner + 1 + k) % 8, borrow := none } }) ∧
    (∀ th' : Fin 2048, th'.val / 8 = th.val / 8 → d.get F.POD_CORE_CTL_MODE (th.val / 8) ≠ 0 → d.canIssue th.val = true →
      d.canIssue th'.val = true → th' = th) ∧
    (∀ k rd, d.podRuns (th.val / 128) = true → (t.tks.get k).st = 2 →
      (t.sleep = .ticket k rd false →
        Does (.threadWake th) s ((d.setTh th.val
          (Thread.wg { t with sleep := .awake, tks := t.tks.set k {} } (Fin.ofNat 32 rd) (t.tks.get k).word)).borrowSlot th.val)) ∧
      (t.sleep = .ticket k rd true →
        Does (.threadWake th) s ((d.setTh th.val
          (Thread.wg { t with sleep := .awake } (Fin.ofNat 32 rd) (t.tks.get k).word)).borrowSlot th.val))) ∧
    (∀ (tk : Fin 8) r e, d.isUp (th.val / 128) = true → (t.tk tk).st = 1 → d.tkAnswer th.val tk.val false = some (r, e) →
      let u := e.th th.val
      let u := if r.writes then u.land (t.tk tk).req (t.tk tk).dst r.bytes else u
      Does (.ticketComplete th tk false) s
        (e.setTh th.val (u.setTk tk { u.tk tk with st := 2, resp := none, status := r.status, aux := r.aux }))) ∧
    (∀ rd mask ev r, d.podRuns (th.val / 128) = true → t.sleep = .waitt rd mask ev → waittNow d.now t mask ev = some r →
      Does (.threadWake th) s ((d.setTh th.val (t.waittDone rd ev r)).borrowSlot th.val)) ∧
    (∀ x, d.podRuns (th.val / 128) = true → d.isSup th.val = false → t.deadline = some x →
      (t.st = .bound → Does (.watchdog th) s ((d.reach (x + 1)).trap th.val kWATCHDOG t.pc 0)) ∧
      (t.st = .trapped → Does (.handlerDeadline th) s ((d.reach (x + 1)).trap th.val kWATCHDOG t.pc 0))) ∧
    (d.live p.val →
      Does (.parkRequest p) s (d.parkRequest p.val) ∧
      (d.get F.POD_PARK_CTL_STATE p.val = 1 → Does (.parkCancel p) s (d.parkRelease p.val)) ∧
      (d.get F.POD_PARK_CTL_STATE p.val = 2 → Does (.podWake p) s (d.parkRelease p.val))) ∧
    (d.isUp p.val = true → d.get F.POD_PARK_CTL_STATE p.val = 1 → (d.pod p.val).port = [] →
      (∀ i, i < 128 → d.isSup (p.val * 128 + i) = true ∨ (d.th (p.val * 128 + i)).st ∈ [ThSt.free, .halted, .disabled]) →
      Does (.podParked p) s (((d.put F.POD_PARK_CTL_STATE p.val 2).put F.POD_PARK_CTL_PARKED_EVT p.val 1).raiseLocal p.val 2))

/-- R49, R50, R51, R57, R282: commits, their resending, the lifetimes of items and copies, and the time a copy may be held for a port. -/
def Obligations.ItemEventsComplete : Prop :=
  ∀ (s : State) (k c : Nat) (st : BitVec 48), s.dev.isUp 21 = true →
    let d := s.dev
    (∀ m, d.cmsgs[k]? = some m → (∀ m' ∈ d.cmsgs.take k, m'.pod ≠ m.pod) →
      Does (.commitMessage k) s (({ d.reach (d.heldTill m.pod 21 m.sent) with cmsgs := d.cmsgs.eraseIdx k } : Dev).commitMessage m)) ∧
    (∀ x b, d.item st.toNat = some x → x.batch = some b →
      Does (.batchTimeoutDiscard st) s ((d.reach (b.first + 10000)).discardBatch st.toNat)) ∧
    (∀ e, d.effq[k]? = some e →
      let f := d.reach (e.sent + 10000)
      Does (.effectResend k) s
        ((({ f with effq := f.effq.set k { e with sent := f.mono } } : Dev).count .CMT_RESENT).fault 4 3 21)) ∧
    (∀ x, d.item st.toNat = some x → x.committed = false → x.disp = none → x.pst ≠ .loading →
      Does (.lifetimeExpiry st) s ((((d.reach x.deadline).count .BUF_EXPIRED_PRECOMMIT).fault 9 6 21).dispose st.toNat 5 0)) ∧
    Does .lifetimeSweep s (d.items.cells.foldl (fun d e => match e.2 with
      | none => d
      | some x => (List.range x.copies.length).foldl (fun d i => match d.copy e.1 i with
        | some y => if d.copyExpired x y then (d.countQ .TM_Q_EXPIRED y.q).loseCopy e.1 i 5 0 else d
        | none => d) d) d) ∧
    (∀ x y t, d.item st.toNat = some x → d.copy st.toNat c = some y → y.hold = some t → t ≤ x.deadline → d.rootOfQueue y.q < 32 →
      Does (.portHoldExpiry st c) s (((d.reach t).countQ .TM_Q_HOLD_DROP y.q).loseCopy st.toNat c 4 1)) ∧
    (∀ e f, d.effq[k]? = some e → d.isUp e.island = true → d.effRemote e = false → e.applied = false →
      (∀ x ∈ d.effq.take k, x.stamp = e.stamp → x.island = e.island → x.applied = false → d.effRemote x = true) →
      (d.reach (d.heldTill 21 e.island e.sent)).effApply e = some f → Does (.effectApply k true) s (f.effAck e))

/-! ### The network interface -/

/-- R36, R214, R222, R223, R224, R263, R266, R274, R276: a good frame on a port that is up is offered to admission; its next segment
is admitted; a root picks; a prefetch takes the oldest deep copy on chip; pause is honoured, repeated, sent and ends. -/
def Obligations.FrameFlowCompletes : Prop :=
  ∀ (s : State) (p : Fin 32) (r : Fin 37) (iap : Fin 36) (lv : Fin 4) (n q : BitVec 17) (c : Fin 9) (ts : Nat),
    let d := s.dev
    let isl := 16 + p.val / 8
    let x := d.net.ports.get p.val
    let k := pauseKey p.val c.val
    let ms := d.get F.NET_PORT_FC_STORM_MS p.val * 1000000
    let quanta := d.get F.NET_PORT_FC_PAUSE_QUANTA p.val
    (d.isUp isl = true →
      (∀ (data : List Nat), d.portUp p.val = true → 60 ≤ data.length → (∀ b ∈ data, b < 256) →
        data.length + 4 ≤ d.get F.NET_PORT_CFG_MAX_FRAME p.val → beNat (slice data 12 2) ≠ 0x8808 →
        Does (.frameReceive p (data ++ toLe 4 (fcsOf data)) ts false false false) s
          (d.offerFrame p.val data (ts - d.get F.NET_TS_CORR_RX_PS p.val * 256 / 1000) false)) ∧
      (∀ (st i : Nat), d.net.sending.get p.val = some (st, i) →
        Does (.copySent p ts 0) s (d.copySent p.val st i ts) ∧
        Does (.copySent p ts 1) s (d.copyBad p.val st i 1) ∧ Does (.copySent p ts 2) s (d.copyBad p.val st i 2)) ∧
      (∀ (op : BitVec 16) (vec : BitVec 8) (qs : List (BitVec 16)), d.portUp p.val = true →
        Does (.pauseFrameReceived p op vec qs) s (d.pauseReceived p.val op.toNat vec.toNat (qs.map (·.toNat)))) ∧
      (∀ t, d.net.pause.get k = some t → Does (.pauseExpiry p c) s ((d.reach t).unpause p.val c.val)) ∧
      (∀ e t, d.net.pause.get k = some e → d.net.since.get k = some t → ms ≠ 0 → t + ms ≤ e →
        let f := (d.reach (t + ms)).unpause p.val c.val
        let g : Dev := { f with net := { f.net with ignore := f.net.ignore.set k (some (f.mono + ms)) } }
        Does (.pfcStorm p c) s ((g.count .NET_PFC_STORM p.val).raiseLocal isl 1 p.val c.val)) ∧
      (∀ t, d.net.ignore.get k = some t →
        Does (.pfcStormEnd p c) s { d.reach t with net := { (d.reach t).net with ignore := (d.reach t).net.ignore.set k none } }) ∧
      (d.sendsFc p.val = true →
        let cur := d.portXoff p.val
        let rise := Nat.land cur (0x1FF - x.told)
        let fall := Nat.land x.told (0x1FF - cur)
        let told (e : Dev) : Dev := { e with net := { e.net with ports := e.net.ports.set p.val { x with told := cur, toldAt := e.mono } } }
        (rise ≠ 0 → fall = 0 → Does (.pauseFrameSend p) s (told (d.sendPause p.val rise quanta))) ∧
        (rise = 0 → fall ≠ 0 → Does (.pauseFrameSend p) s (told (d.sendPause p.val fall 0))) ∧
        (Nat.land x.told cur ≠ 0 →
          let e := (d.reach (x.toldAt + d.bitTimes p.val (quanta * 256))).sendPause p.val (Nat.land x.told cur) quanta
          Does (.pauseRepeat p) s { e with net := { e.net with ports := e.net.ports.set p.val { x with toldAt := e.mono } } }))) ∧
    Does (.schedulerPick r) s (d.pick r.val) ∧
    (d.isUp 21 = true →
      (∀ f, d.buf.rx.find? (·.iap == iap.val) = some f → Does (.segmentAdmit iap) s (d.admitSegment f)) ∧
      (n.toNat < [512, 4096, 16384, 131072].getD lv.val 0 → d.enabledOf (lv.val + 2) n.toNat = false →
        Does (.shaperEnable lv n) s (d.enableNode (lv.val + 2) n.toNat)) ∧
      (∀ st i rest y, (d.q5 q.toNat).deep = (st, i) :: rest → d.copy st i = some y → (d.q5 q.toNat).onBytes < 32768 →
        d.buf.unspill + cellsOf y.len ≤ 16384 →
        let z := d.q5 q.toNat
        let e := d.setQ5 q.toNat { z with onchip := z.onchip ++ [(st, i)], deep := rest, onBytes := z.onBytes + y.len,
                                          deepBytes := z.deepBytes - y.len }
        let f : Dev := { e with buf := { e.buf with unspill := e.buf.unspill + cellsOf y.len } }
        Does (.prefetch q) s
          ((f.setCopy st i fun k => { k with st := .onchip, un := cellsOf y.len }).count .BUF_UNSPILL_BYTES 0 y.len)))

/-- R212, R213, R232, R233, R234: group modes and port states. A port whose PCS is aligned comes UP, or DEGRADED on half its lanes; a
fault takes it DOWN, a training that takes too long tries the half that is left and then ends, and a module that is found is trained. -/
def Obligations.PortStatesComplete : Prop :=
  ∀ (s : State) (n : Fin 4) (lane : Fin 8) (p : Fin 32) (v : BitVec 32),
    let d := s.dev
    let isl := 16 + p.val / 8
    let st := d.get F.NET_PORT_STATUS_STATE p.val
    let x := d.net.ports.get p.val
    let w := d.portLanes p.val
    let e := (d.put F.NET_PORT_STATUS_LOCAL_FAULT p.val 0).put F.NET_PORT_STATUS_REMOTE_FAULT p.val 0
    let on (mask : Nat) : Dev := { e with net := { e.net with ports := e.net.ports.set p.val { x with train := none, lanes := mask } } }
    let late (t : Nat) : Dev := d.reach (t + d.get F.NET_GROUP_CFG_DEGRADE_TMO (p.val / 8) * 1000000)
    (d.live (16 + n.val) → Does (.groupModeWrite n v) s (d.groupCfgWrite n.val v.toNat 15)) ∧
    (d.isUp (16 + n.val) = true → Does (.laneFaultDegrade n lane) s (d.portLosesLane n.val lane.val)) ∧
    (d.isUp isl = true →
      (w ≠ 0 → (st = 2 ∨ (st = 3 ∧ x.full = true)) → d.lanesReady (p.val / 8) (laneMask (p.val % 8) w) = true →
        Does (.portUp p) s ((on (laneMask (p.val % 8) w)).portState p.val 4 w)) ∧
      (w ≠ 0 → st = 3 → x.full = false → d.lanesReady (p.val / 8) x.lanes = true →
        Does (.portUp p) s ((on x.lanes).portState p.val 5 (w / 2))) ∧
      ((st = 4 ∨ st = 5) →
        Does (.remoteFault p true) s ((d.put F.NET_PORT_STATUS_REMOTE_FAULT p.val 1).portState p.val 2 0) ∧
        Does (.remoteFault p false) s ((d.put F.NET_PORT_STATUS_LOCAL_FAULT p.val 1).portState p.val 2 0)) ∧
      (∀ t, x.train = some t → st = 3 →
        (x.full = true → ∀ k, (List.range 8).find? (fun k => bit x.half k) = some k →
          Does (.degradeTimeout p) s ((late t).startTraining p.val k ((late t).portLanes p.val / 2) false true)) ∧
        (x.full = false →
          Does (.degradeTimeout p) s
            (Dev.portState { late t with net := { (late t).net with ports := (late t).net.ports.set p.val { x with train := none } } }
              p.val 2 0))) ∧
      Does (.restore p) s (d.restorePort p.val) ∧
      (w ≠ 0 → d.flag F.NET_PORT_CFG_ENABLE p.val = true →
        Does (.moduleInsertion p true) s (d.startTraining p.val (p.val % 8) w true false) ∧
        Does (.moduleInsertion p false) s ((d.portState p.val 2 0).raiseLocal isl 4 p.val)))

/-- R237, R240 to R243, R255 to R257: a SerDes lane passes from signal to adaptation, equalised and READY; loss of signal takes it back; its history is
saved; PRBS, margin and the eye monitor answer. The lane exists: NET0 has eight, the others twelve. -/
def Obligations.LaneEventsComplete : Prop :=
  ∀ (s : State) (n : Fin 4) (k : Fin 12), hasLane n.val k.val = true → s.dev.isUp (16 + n.val) = true →
    let d := s.dev
    let i := laneIx n.val k.val
    let x := d.lane n.val k.val
    let stage := d.laneStage n.val k.val
    let follow (e : Dev) : Dev := if 8 ≤ k.val then e.linkFollow (n.val - 1) else e
    (stage = 1 → Does (.signalDetect n k) s (follow ((d.put F.NET_LANE_STATUS_SIGNAL i 1).startAdapt n.val k.val true))) ∧
    (2 ≤ stage →
      let e := if d.flag F.NET_LANE_STATUS_CDR_LOCK i then d.count .NET_CDR_LOSS i else d
      let f := (e.put F.NET_LANE_STATUS_SIGNAL i 0).put F.NET_LANE_STATUS_CDR_LOCK i 0
      let g := ((f.laneState n.val k.val 1).count .NET_LOS_CNT i).fault 2 3 (16 + n.val) k.val
      Does (.lossOfSignal n k) s ((g.squelchLane n.val k.val).laneLeaves n.val k.val)) ∧
    (stage = 2 →
      Does (.adaptComplete n k) s
        (follow (((d.put F.NET_LANE_STATUS_CDR_LOCK i 1).laneState n.val k.val 3).unsquelch n.val k.val)) ∧
      (d.flag F.NET_LANE_STATUS_HIST_USED i = true →
        Does (.histReject n k) s
          (((d.reach (x.since + d.adaptBound n.val k.val true)).count .NET_HIST_REJECT i).startAdapt n.val k.val false))) ∧
    (stage = 3 →
      (k.val < 8 → d.get F.NET_LANE_CFG_RX_POL i = 0 →
        Does (.polarityAlternate n k) s (d.put F.NET_LANE_STATUS_RX_INV i (1 - d.get F.NET_LANE_STATUS_RX_INV i))) ∧
      (k.val < 8 → Does (.pcsLock n k) s (d.laneState n.val k.val 4)) ∧
      Does (.lockFail n k) s (follow (((d.reach (x.since + 50000000)).count .NET_LOCK_FAIL i).startAdapt n.val k.val false))) ∧
    (stage = 4 → ∀ coeff : List Nat,
      let e := d.reach (match x.saved with | some t => t + 60000000000 | none => x.since + 1000000000)
      let h : Hist := { mapId := e.mapId, instar := e.get F.STM_FW_STATUS_RUN_INSTAR, rate := e.signalling n.val k.val, dtb := e.now,
                        coeff := slice coeff 0 48 }
      Does (.historySave n k coeff) s
        (Dev.setLane { e with net := { e.net with hist := e.net.hist.set i (some h) } } n.val k.val { x with saved := some e.mono })) ∧
    (d.halted = false → ∀ v : BitVec 32,
      Does (.laneCfgWrite n k v) s (d.laneCfgWrite n.val k.val v.toNat 15) ∧
      Does (.prbsEnable n k v) s (d.prbsWrite n.val k.val v.toNat 15) ∧
      Does (.prbsDisable n k) s (d.prbsWrite n.val k.val (d.get F.NET_LANE_PRBS_PAT i) 15)) ∧
    (∀ hl hr vt vb : BitVec 8,
      let v := hl.toNat + hr.toNat * 2 ^ 8 + vt.toNat * 2 ^ 16 + vb.toNat * 2 ^ 24
      (stage = 4 → Does (.marginRefresh n k hl hr vt vb) s (d.wr .NET_LANE_MARGIN i v)) ∧
      (stage ≠ 4 → Does (.marginRefresh n k hl hr vt vb) s (d.wr .NET_LANE_MARGIN i 0))) ∧
    (d.halted = false → (d.win (.eye n)).st = 0 → stage = 4 →
      ∀ (eye : BitVec 2) (h : BitVec 7) (v : BitVec 8) (dwell : BitVec 5), 20 ≤ dwell.toNat → v ≠ 128 → (h.toNat < 32 ∨ 96 ≤ h.toNat) →
        eye.toNat ≠ 3 → (d.signalling n.val k.val ≠ 0 → eye.toNat = 1) →
        let e := d.mono + ceilDiv (2 ^ dwell.toNat * 1000) (d.laneBits n.val k.val) + 10000
        let f := d.setWin (.eye n) { (d.win (.eye n)).take with cmd := dwell.toNat }
        Does (.eyeScan n (BitVec.ofNat 4 k.val) eye h v dwell) s
          { f with net := { f.net with scan := f.net.scan.set n.val (some (k.val, e, false)) } }) ∧
    (∀ (err cmp : BitVec 64) (j e : Nat),
      let f : Dev := { d with net := { d.net with scan := d.net.scan.set n.val none } }
      (d.net.scan.get n.val = some (j, e, false) →
        Does (.eyeScanComplete n err cmp) s
          ((f.reach e).winDone (.eye n) [(0x20, 0), (0x28, err.toNat), (0x30, 2 ^ (d.win (.eye n)).cmd)])) ∧
      (d.net.scan.get n.val = some (j, e, true) →
        Does (.eyeScanComplete n err cmp) s (f.winDone (.eye n) [(0x20, 2), (0x28, err.toNat), (0x30, cmp.toNat)])))

/-- R252, R253: an Erruic link passes from block lock through the lane map, deskew and qualification to ACTIVE; a bad map
or too much skew starts it again, a failed qualification counts, and a FAILED link tries again after its wait. -/
def Obligations.LinkTrainingCompletes : Prop :=
  ∀ (s : State) (l : Fin 3), s.dev.isUp (17 + l.val) = true →
    let d := s.dev
    let n := l.val + 1
    let x := d.link l.val
    let st := d.elState l.val
    (∀ v : BitVec 32, d.halted = false → Does (.elEnable l v) s (d.elCfgWrite l.val v.toNat 15)) ∧
    (∀ (j : Fin 4) (inv : Bool), d.laneStage n (8 + j.val) = 3 →
      let i := laneIx n (8 + j.val)
      Does (.blockLock l j inv) s
        (Dev.linkFollow (Dev.laneState (if d.get F.NET_LANE_CFG_RX_POL i = 0 then d.put F.NET_LANE_STATUS_RX_INV i (b2n inv) else d)
          n (8 + j.val) 4) l.val)) ∧
    (st = 4 →
      (∀ (l0 l1 l2 l3 m far : Fin 4), [l0, l1, l2, l3].Nodup → m.val + 1 ≠ d.get F.GRP_STATUS_ID →
        let e := (List.range 4).foldl (fun d j => d.put F.NET_LANE_STATUS_LOGICAL (laneIx n (8 + j)) ([l0.val, l1.val, l2.val, l3.val].getD j 0)) d
        let f := e.put F.NET_EL_STATUS_SELF_PEER n 0
        Does (.linkMap l l0 l1 l2 l3 m far) s
          (Dev.sendTrain (Dev.linkState (((f.put F.NET_EL_STATUS_LANE_MAP n
            ((List.range 4).foldl (fun a j => a + laneOfLogical [l0.val, l1.val, l2.val, l3.val] j * 2 ^ (2 * j)) 0)).put
              F.NET_EL_STATUS_PEER_MEMBER n m.val).put F.NET_EL_STATUS_PEER_LINK n far.val) l.val 5) l.val 1)) ∧
      Does (.mapRetry l) s (((d.reach (x.since + 1000000)).linkLanes l.val 3).linkState l.val 3)) ∧
    (st = 5 → ∀ skew,
      (skew ≤ 63 → Does (.linkDeskew l skew) s
        ((((d.put F.NET_EL_STATUS_SKEW_MAX n skew).linkState l.val 6).sendTrain l.val 2).setLink l.val
          { x with qual := false, sentPass := false, since := d.mono })) ∧
      (63 < skew → Does (.linkDeskew l skew) s
        (((((d.count .NET_EL_MAP_ERR n).fault 2 8 (16 + n) l.val).put F.NET_EL_STATUS_SKEW_MAX n 63).linkLanes l.val 3).linkState l.val 3))) ∧
    (st = 6 →
      (x.qual = false → x.sentPass = false →
        (d.get F.NET_EL_CFG_QUAL_LOG2 n ≠ 0 → x.trained = false →
          Does (.qualCountdown l) s ((d.setLink l.val { x with qual := true, since := d.mono }).sendTrain l.val 3)) ∧
        (d.get F.NET_EL_CFG_QUAL_LOG2 n = 0 →
          Does (.qualCountdown l) s ((d.setLink l.val { x with sentPass := true }).sendTrain l.val 4))) ∧
      (x.qual = true → ∀ e0 e1 e2 e3 : Nat,
        let e := d.reach (x.since + ceilDiv (2 ^ d.get F.NET_EL_CFG_QUAL_LOG2 n * 1000) 53125)
        let most := e.get F.NET_EL_CFG_QUAL_ERR_MAX n
        (e0 ≤ most → e1 ≤ most → e2 ≤ most → e3 ≤ most →
          Does (.qualWindowEnd l e0 e1 e2 e3) s ((e.setLink l.val { x with qual := false, sentPass := true }).sendTrain l.val 4)) ∧
        ((most < e0 ∨ most < e1 ∨ most < e2 ∨ most < e3) →
          Does (.qualWindowEnd l e0 e1 e2 e3) s ((e.sendTrain l.val 5).qualFail l.val))) ∧
      (x.sentPass = true → Does (.linkActive l) s
        ((((d.setLink l.val { trained := true, since := d.mono, wait := x.wait, ackAt := d.mono }).linkState l.val 7).sendTrain l.val 6).sendCredit
          l.val)) ∧
      Does (.qualFail l) s (d.qualFail l.val)) ∧
    (st = 8 → Does (.failedRetry l) s
      (((((d.reach (x.since + 1000000000)).setLink l.val { x with fails := 0 }).linkLanes l.val 1).linkState l.val 1).sendTrain l.val 0))

/-- R247, R248, R249, R254: on an ACTIVE Erruic link a message in sequence is delivered, a repeated one is acknowledged again and dropped, a gap or a
damaged one is refused; credit and acknowledgement blocks are received and sent, and a replay that is not answered starts again. -/
def Obligations.LinkMessagesComplete : Prop :=
  ∀ (s : State) (l : Fin 3) (b : List Nat), s.dev.isUp (17 + l.val) = true → s.dev.linkActive l.val = true →
    let d := s.dev
    let x := d.link l.val
    let w0 := leNat (slice b 0 4)
    let w1 := leNat (slice b 4 4)
    let len := bits w0 11 10
    let m : ElMsg := { cls := bits w0 8 3, src := bits w1 12 2 + 1, dst := bits w1 14 2 + 1, rel := bit w1 16, data := slice b 8 len,
                       lseq := bits w1 0 12 }
    let trail := leNat (slice b (b.length - 8) 4)
    let ackd := if bit trail 20 then d.elAck l.val (bits trail 8 12) else d
    let ahead := (m.lseq + 4096 - (ackd.link l.val).rxSeq) % 4096
    let whole := leNat (slice b (b.length - 4) 4) = crc32c (b.take (b.length - 4))
    let shaped := b.length = 16 + ceilDiv len 8 * 8 ∧ len ≤ 512 ∧ m.cls < 5
    (d.halted = false →
      (whole → shaped →
        (ahead = 0 → Does (.erruicMessageReceive l b false false) s (ackd.elDeliver l.val m)) ∧
        (2048 ≤ ahead → Does (.erruicMessageReceive l b false false) s
          ((ackd.count .NET_EL_DUP (l.val + 1)).setLink l.val { ackd.link l.val with ackDue := true })) ∧
        (1 ≤ ahead → ahead < 2048 → Does (.erruicMessageReceive l b false false) s (ackd.elNak l.val))) ∧
      (whole → ¬ shaped → Does (.erruicMessageReceive l b false false) s ((d.count .NET_EL_BAD_BTYPE (l.val + 1)).elNak l.val)) ∧
      (¬ whole → Does (.erruicMessageReceive l b false false) s ((d.count .NET_EL_CRC_ERR (l.val + 1)).elNak l.val))) ∧
    (leNat (slice b 6 2) = chk16 (slice b 0 6) →
      let cum := (List.range 5).foldl (fun t c => t.set c (b.getD (c + 1) 0 % 256)) x.cum
      Does (.creditBlockReceive l b) s ((d.setLink l.val { x with cum := cum }).elPump l.val) ∧
      (bit w0 8 = false → Does (.acknReceive l b) s (d.elAck l.val (bits w0 9 12))) ∧
      (bit w0 8 = true →
        let e := d.elAck l.val ((bits w0 9 12 + 4095) % 4096)
        ((e.link l.val).unacked = [] → Does (.acknReceive l b) s e) ∧
        ((e.link l.val).unacked ≠ [] → Does (.acknReceive l b) s (e.replayOrDown l.val (bits w0 9 12))))) ∧
    (leNat (slice b 6 2) ≠ chk16 (slice b 0 6) →
      Does (.creditBlockReceive l b) s (d.count .NET_EL_CHK_ERR (l.val + 1)) ∧
      Does (.acknReceive l b) s (d.count .NET_EL_CHK_ERR (l.val + 1))) ∧
    Does (.creditSend l) s (d.sendCredit l.val) ∧
    (∀ a, x.ackSeq = some a →
      Does (.acknSend l) s ((d.setLink l.val { x with ackDue := false }).emit (.erruic l.val 2 (acknBlock false a)))) ∧
    (∀ y rest, x.unacked = y :: rest →
      Does (.replayTimeout l) s ((d.reach (x.ackAt + d.get F.NET_EL_CFG_REPLAY_TMO (l.val + 1) * 1000)).replayOrDown l.val y.lseq)) ∧
    Does (.erruicLinkDown l) s ((d.linkDown l.val 1).linkLanes l.val 1)

/-! ### Tables -/

/-- R163, R164, R165, R167, R179, R186, R187, R188, R201, R204: a lookup ticket starts a walk or goes to the owner of its
shard; fills, walk ends and unit faults; a member's requests and answers; bulk batches and aging visits. -/
def Obligations.TableEventsComplete : Prop :=
  ∀ (s : State) (th : Fin 2048) (tk : Fin 8) (lines : List Nat), s.dev.isUp 22 = true →
    let d := s.dev
    let t := d.ths.get th.val
    let k := t.tks.get tk.val
    let r := d.newWalk
    let e : Dev := { r.1 with ths := r.1.ths.set th.val { t with tks := t.tks.set tk.val { k with sent := r.2 } } }
    (k.st = 1 → k.sent = 0 → ∀ sh n key dst, k.req = .lk sh n key dst → ∀ w, e.walkOf (.lookup sh n key (t.stamp.getD 0)) = some w →
      let y := { w with id := r.2, th := th.val, tk := tk.val }
      e.tScope w.table ≠ 2 → Does (.lookupRequest th tk lines) s (e.startWalk y (e.confirmLines y lines) none)) ∧
    (∀ line n, d.tbl.fills.find? (·.1 == line) = some (line, n) → line ∉ d.tbl.voided →
      Does (.fillReturn line) s (Dev.install { d with tbl := { d.tbl with
        fills := d.tbl.fills.filter (·.1 != line), voided := d.tbl.voided.filter (· != line),
        walks := d.tbl.walks.map fun w => { w with waits := w.waits.filter (· != line) } } } n line)) ∧
    (∀ w pick x, d.tbl.walks.find? (·.id == w) = some x → x.waits = [] → x.confirm = none →
      Does (.walkComplete w pick none) s (d.walkDone x (d.lookupAnswer x (x.seen.getD pick (x.seen.headD {}))))) ∧
    (∀ u : Fin 8, ∀ w, d.tbl.walks.filter (·.unit == u.val) = [w] →
      Does (.lookupUnitFault u [] [(w.id, lines)]) s (d.startWalk w (d.confirmLines w lines) (some u.val))) ∧
    (d.halted = false → ∀ v : BitVec 32, d.regLocked .TABLE_T1_CFG 0 = false → 1 ≤ v.toNat % 16 → v.toNat % 16 ≤ 10 →
      let f := (d.writeFields .TABLE_T1_CFG 0 v.toNat 0xF []).put F.TABLE_T1_CFG_CACHE_MIB 0 (48 - 4 * (v.toNat % 16))
      Does (.t1CfgWrite v) s { f with tbl := { f.tbl with cache := {} } }) ∧
    (∀ (m : Fin 5) (id : Nat), d.get F.GRP_STATUS_STATE = 3 →
      (∀ c, d.ownerOf (.window c) = d.me →
        Does (.remoteRequest m id (.window c) lines) s ((d.tawHere c).1.emit (.tableRsp m.val id (.window (d.tawHere c).2)))) ∧
      (∀ st ix eff f, d.ownerOf (.effect st ix eff) = d.me → (st + m.val * 2 ^ 60, ix) ∉ d.applied → d.effTable eff = some f →
        Does (.remoteRequest m id (.effect st ix eff) lines) s
          (Dev.emit { f with applied := f.applied ++ [(st + m.val * 2 ^ 60, ix)] } (.tableRsp m.val id .applied)))) ∧
    (∀ id y, d.tbl.remotes.find? (·.id == id) = some y →
      (∀ w c res, y.by_ = .window w c → Does (.remoteResponse id (.window res) lines) s ((d.dropRemote id).winDone (tawOf w) res)) ∧
      (y.again = true → Does (.remoteTimeout id) s ((((d.reach y.due).dropRemote id).remoteFails y).fault 4 6 22 y.owner)) ∧
      (y.again = false →
        let f := (d.reach y.due).dropRemote id
        Does (.remoteTimeout id) s (f.forward { y with again := true, due := f.remoteDue } (·.remoteFails y)))) ∧
    (∀ (p : Fin 4) b, d.tbl.bulk.find? (·.pf == p.val) = some b → ∀ recs bytes,
      Does (.bulkBatch p recs true bytes) s (d.bulkFinish b bytes) ∧
      (∀ j, j < b.recs.length → Does (.bulkBatchTimeout p j) s ((d.reach b.due).bulkEnd p.val b.recs.length j tBATCH_TIMEOUT))) ∧
    (∀ (n : Fin 1024) ix x, d.tValid n.val = true → d.flag F.TABLE_DESC_CFG_AGE_EN n.val = true → d.tableHeld n.val = false →
      d.entry n.val ix = some x →
      let limit := d.get F.TABLE_AGE_CFG_LIMIT n.val
      (x.active = true → Does (.agingVisit n ix) s (d.touchEntry n.val ix { x with active := false, idle := 0 })) ∧
      (x.active = false → x.idle + 1 < limit → Does (.agingVisit n ix) s (d.touchEntry n.val ix { x with idle := x.idle + 1 })) ∧
      (x.active = false → x.idle + 1 = limit →
        let f := d.touchEntry n.val ix { x with idle := x.idle + 1 }
        f.flag F.TABLE_AGE_CFG_ACTION n.val = true →
        Does (.agingVisit n ix) s (f.note 3 n.val false (f.handle n.val ix) x.vtag 0 x.key)))

/-- R169, R191, R193, R203, R208, R209: the commands of a table access window on a table that this window may reach and that no batch holds,
where the entry or the descriptor is as the command needs it: the engine applies the write, and the window completes OK with its result.
DESC_CREATE takes a free table number, with a well-formed image that fits and is within its owner's quota. -/
def Obligations.TableCommandsComplete : Prop :=
  ∀ (s : State) (w : Fin 5) (n : Fin 1024) (plen prio : Nat) (arg : List Nat) (rst clr : Bool) (h : BitVec 64),
    s.dev.idleWin (.taw w) →
    let d := s.dev
    let write (c : WCmd) (i : Instr) : Prop :=
      let e := (d.tawStore w c).winBusy (.taw w)
      let r := e.tableOp (e.cmdOp c)
      e.tableHeld n.val = false → r.2.status = tOK → Does i s (r.1.winDone (.taw w) (r.1.writeRes (e.cmdOp c) r.2))
    let read (c : WCmd) (i : Instr) : Prop :=
      let r := (d.tawStore w c).tawRead c
      Does i s (r.1.winDone (.taw w) r.2)
    (∀ img cap : BitVec 64, d.tValid n.val = false → (w.val = 4 ∨ d.pfOf (bits img.toNat 16 12) = w.val) →
      (bits img.toNat 6 2 = 0 ∨ d.flag F.GRP_CFG_ENABLE = true) → descBad img.toNat cap.toNat = false →
      let len := bits img.toNat 32 7
      let rlen := bits img.toNat 40 8
      d.tableFits (bits img.toNat 1 3) (bits img.toNat 4 2) len rlen cap.toNat = true →
      d.quotaFits (bits img.toNat 16 12) (bits img.toNat 4 2) (footprint (bits img.toNat 1 3) len rlen cap.toNat) = true →
      let e := d.tawStore w { opc := 9, n := n.val, arg := toLe 8 img.toNat ++ toLe 8 cap.toNat }
      Does (.descCreate w n img cap) s ((e.writeDesc n.val img.toNat cap.toNat false).winDone (.taw w) (tawRes 9 n.val {} []))) ∧
    (d.tawCheck w.val n.val = tOK → d.tScope n.val = 0 →
    (d.plenOk n.val plen = true →
      write { opc := 1, n := n.val, plen := plen, prio := prio, arg := arg } (.insert w n plen prio arg) ∧
      write { opc := 2, n := n.val, rst := rst, plen := plen, prio := prio, arg := arg } (.modify w n rst plen prio arg) ∧
      write { opc := 3, n := n.val, plen := plen, prio := prio, arg := arg } (.delete w n plen prio arg) ∧
      read { opc := 4, n := n.val, plen := plen, prio := prio, arg := arg } (.read w n plen prio arg)) ∧
    read { opc := 12, n := n.val, arg := arg } (.lookup w n arg) ∧
    (handleOk n.val (leNat (slice arg 0 8)) = true →
      write { opc := 6, n := n.val, rst := rst, arg := arg } (.modifyHandle w n rst arg)) ∧
    (handleOk n.val h.toNat = true →
      write { opc := 7, n := n.val, arg := toLe 8 h.toNat } (.deleteHandle w n h) ∧
      read { opc := 5, n := n.val, arg := toLe 8 h.toNat } (.readHandle w n h) ∧
      read { opc := 8, n := n.val, clr := clr, arg := toLe 8 h.toNat } (.cntRead w n clr h)) ∧
    (∀ age learn : BitVec 32, bits age.toNat 0 16 ≠ 0 → bits age.toNat 16 8 ≠ 0 → bits age.toNat 25 7 = 0 → bits learn.toNat 1 15 = 0 →
      bits learn.toNat 16 16 ≠ 0 →
      let e := d.tawStore w { opc := 11, n := n.val, arg := toLe 4 age.toNat ++ toLe 4 learn.toNat }
      Does (.descParam w n age learn) s
        (((e.wr .TABLE_AGE_CFG n.val age.toNat).wr .TABLE_LEARN_CFG n.val learn.toNat).winDone (.taw w) (tawRes 11 n.val {} []))) ∧
    (let e := (d.tawStore w { opc := 10, n := n.val }).winBusy (.taw w)
     e.tableHeld n.val = false → e.trefNames n.val = false →
     Does (.descDestroy w n) s
       (let r := e.tableOp (.destroy n.val)
        r.1.winDone (.taw w) (r.1.writeRes (.destroy n.val) r.2))))

/-- R191, R193 and the lookup rules of chapter 07, as they stand for an EXACT table: the engine's INSERT of a key that no entry has, into a table that is
VALID, FIT and below its capacity, puts the entry at an index that was free, with the next WRITE_SEQ as its VTAG, and a lookup then finds
it there; DELETE of it takes it away again. Entries at other indices and of other tables stay. -/
def Obligations.InsertedEntryIsFound : Prop :=
  ∀ (d : Dev) (n : Nat) (key res : List Nat), n < 1024 → d.tValid n = true → d.tType n = 0 →
    d.findStored n key [] 0 0 = none → d.flag F.TABLE_DESC_CFG_UNFIT n = false →
    d.tEntries n < d.get F.TABLE_DESC_CAP_CAPACITY n → d.get F.TABLE_DESC_CAP_CAPACITY n ≤ 2 ^ 28 →
    (d.entriesOf n).length = d.tEntries n → d.tSeq n < 2 ^ 32 → d.tbl.entries.wf = true →
    let r := d.tableOp (.insert n key [] 0 0 res)
    let i := d.newIndex n
    let x : Entry := { key := key, plen := 0, prio := 0, res := res, vtag := nextSeq (d.tSeq n) }
    r.2.status = tOK ∧ r.2.handle = d.handle n i ∧ d.entry n i = none ∧ i < d.get F.TABLE_DESC_CAP_CAPACITY n ∧
    r.1.entry n i = some x ∧ r.1.tableFind n key = some (i, x) ∧ r.1.tEntries n = d.tEntries n + 1 ∧ r.1.tSeq n = nextSeq (d.tSeq n) ∧
    (∀ m j, (m ≠ n ∨ j ≠ i) → j < 2 ^ 28 → r.1.entry m j = d.entry m j) ∧
    (let q := r.1.tableOp (.delete n key [] 0 0)
     q.2.status = tOK ∧ q.2.vtag = nextSeq (nextSeq (d.tSeq n)) ∧ q.1.tableFind n key = none ∧ q.1.tEntries n = d.tEntries n)

/-! ### Crypto and the host ports -/

/-- R289, R290, R291, R293, R298: the commands of a crypto window on SAs and key slots that the window reaches, and VERDICT and SAQRY
tickets, where nothing refuses them. -/
def Obligations.CryptoCommandsComplete : Prop :=
  ∀ (s : State) (w : Fin 5) (sa : BitVec 16) (slot : BitVec 15) (kek : Fin 64) (img wrap : List Nat), s.dev.idleWin (.cw w) →
    let d := s.dev
    let n := sa.toNat
    let a := SA.ofBytes img
    let k := d.cry.keys.get a.keySlot
    let key := d.cry.keys.get slot.toNat
    let e := d.cry.keks.get kek.val
    (d.cwReachInst w a.owner = true → d.ownsSa a.owner n = true → cwReachKey w k = true → SA.badImage img = false →
      (d.sa n).valid = false → d.cry.retiring.get n = none → k.key ≠ [] → (a.inbound = false ∨ a.win ≤ 32) →
      let f := d.setSa n a
      let g : Dev := { f with cry := { f.cry with keys := f.cry.keys.set a.keySlot { k with refs := k.refs + 1 } } }
      (a.inbound = true → Does (.saCreate w sa img false) s (g.cwDone w cwOK)) ∧
      (a.inbound = false →
        Does (.saCreate w sa img false) s ((g.writeDir n (if a.esp then 2 else 1)).cwDone w cwOK))) ∧
    ((d.sa n).valid = true → d.cwReachInst w (d.sa n).owner = true →
      Does (.saDestroy w sa false) s ((d.retireSa n (some w.val)).winBusy (.cw w)) ∧
      Does (.saRead w sa false) s
        (d.cwDone w cwOK ((d.sa n).bytes ++ (if (d.sa n).wide.isSome then toLe 128 (d.sa n).bitmap else List.replicate 128 0)))) ∧
    (∀ t o, d.cry.retiring.get n = some (t, o) →
      (o = none → Does (.saRetireComplete sa) s ((d.reach t).freeSa n)) ∧
      (∀ v, o = some v → Does (.saRetireComplete sa) s (((d.reach t).freeSa n).cwDone (Fin.ofNat 5 v) cwOK))) ∧
    (cwReachKey w key = true → key.refs = 0 →
      Does (.keyZero w slot false) s ((d.zeroKey slot.toNat).cwDone w cwOK) ∧
      (e.key ≠ [] → (w.val = 4 ∨ e.owner = w.val) →
        Does (.keyLoadWrapped w slot kek wrap false) s (match Config.kwUnwrap e.key (slice wrap 0 56) with
          | none => d.cwDone w cwUNWRAP_FAIL
          | some p =>
            if (slice p 44 4).any (· != 0) = true then d.cwDone w cwBAD_FIELD
            else
              let x : KeySlot := { key := slice p 0 48, owner := if w.val = 4 then e.owner else w.val }
              Dev.cwDone { d with cry := { d.cry with keys := d.cry.keys.set slot.toNat x } } w cwOK))) ∧
    (cwReachKey w key = true → key.key ≠ [] →
      Does (.keyInfo w slot false) s (d.cwDone w cwOK (toLe 4 (kcvOf key.key) ++ [1] ++ toLe 2 key.owner ++ [0] ++ toLe 4 key.refs))) ∧
    (∀ (th : Fin 2048) (tk : Fin 8) (req : List Nat) (dst : Nat), d.isUp 23 = true →
      let t := d.th th.val
      let q := t.tk tk
      let answered (e : Dev) (r : TkResp) : Dev := e.setTh th.val ((e.th th.val).setTk tk { q with resp := some r })
      q.st = 1 → q.resp = none →
      (∀ st, q.req = .verdict req dst → t.stamp = some st →
        let r := d.verdict st (d.itemOf t).data req
        Does (.cryptoVerdict th tk false) s (answered (r.1.count .CRYPTO_VERDICT_CNT r.2.vst)
          { status := 0, aux := 32 + r.2.plain.length, bytes := r.2.res ++ r.2.plain })) ∧
      (q.req = .saqry req dst →
        Does (.cryptoVerdict th tk false) s (answered d
          { status := 0, aux := 32, bytes := d.saqry (bits (leNat (slice req 0 4)) 0 16) })))

/-- R60, R322, R324, R326, R331, R335, R337 to R339, R342 to R345, R347, R374, R407, R411: NVMe connections and host ports. A trained link comes UP; a requested reset and a lost link reset or
hold its functions; FLR, SR-IOV, Bus Master Enable, D3hot, LTR, ATS and configuration requests; the ledger of a PF. -/
def Obligations.HostEventsComplete : Prop :=
  ∀ (s : State) (h : Fin 2) (f : Fin 2052) (p : Fin 4), s.dev.isUp 20 = true →
    let d := s.dev
    let x := d.fn f.val
    let port := d.hostPortOf f.val
    (d.halted = false →
      (∀ (c : BitVec 14) (v : BitVec 64) (seq : BitVec 32),
        Does (.connCfgWrite c v) s (d.connCfgWrite c.toNat v.toNat 255) ∧
        Does (.resyncArm c seq) s (d.resyncWrite c.toNat (seq.toNat + 2 ^ 32) 255)) ∧
      (∀ v : BitVec 32, d.flag F.QE_LEDGER_STATUS_UNACKED p.val = true → v.toNat = d.rd .QE_LEDGER_SEQ p.val →
        Does (.ledgerAck p v) s (d.put F.QE_LEDGER_STATUS_UNACKED p.val 0))) ∧
    (d.hpState h.val ≠ 0 → (d.hport h.val).perst = false →
      Does (.perstAssert h) s ((d.setHport h.val { d.hport h.val with perst := true }).hpRequested h.val 6)) ∧
    Does (.perstDeassert h) s (d.setHport h.val { d.hport h.val with perst := false }) ∧
    (d.hpState h.val = 2 → Does (.hotReset h) s (d.hpRequested h.val 7) ∧ Does (.detach h) s (d.detach h.val)) ∧
    (∀ (w : Fin 17) (sp : Fin 7) (flit : Bool), d.hpState h.val = 1 → (d.hport h.val).released = true → (d.hport h.val).perst = false →
      let g := d.setHport h.val { d.hport h.val with hold := none }
      let g := (g.put F.HOST_PORT_STATUS_WIDTH h.val w.val).put F.HOST_PORT_STATUS_SPEED h.val sp.val
      let g := (g.put F.HOST_PORT_STATUS_FLIT h.val (b2n flit)).setHp h.val 2
      8 ≤ w.val → min (g.get F.HOST_PORT_CFG_MAX_SPEED h.val) 5 ≤ sp.val → Does (.linkTrained h w sp flit false) s g) ∧
    (∀ t, d.hpState h.val = 3 → (d.hport h.val).hold = some t →
      Does (.hostHoldExpiry h) s ((((d.reach t).fault 14 2 20 h.val).hpReset h.val).setHp h.val 4)) ∧
    (x.bme = true → Does (.bmeClear f) s (d.pauseFn f.val { x with bme := false })) ∧
    (x.bme = false → x.flr = false → d.fnExists f.val = true → d.hpState port = 2 →
      Does (.bmeSet f) s ((d.setFn f.val { x with bme := true }).resumeFn f.val)) ∧
    (∀ t, x.paused = some t → x.ovr = false → d.hpState port ≠ 3 →
      let g := (d.reach (t + d.hpHold port)).fault 14 3 20 f.val
      Does (.bmeHoldExpiry f) s (((g.setFn f.val { x with ovr := true }).loseHeld (· == f.val)).abandon fun r => r.inst == f.val)) ∧
    (4 ≤ f.val → d.fnExists f.val = true →
      let g := ((d.setFn f.val { flr := true }).failHrds (· == f.val)).instanceReset f.val 4
      Does (.flrVf f) s (if g.get F.INST_STATE_STATE f.val = 1 then g.setFn f.val {} else g)) ∧
    (d.pfExists p.val = true →
      let g := (d.functionReset p.val).failHrds (d.pfInsts p.val).contains
      Does (.flrPf p) s (if g.get F.INST_STATE_STATE p.val = 5 then g.setFn p.val { flr := true } else g)) ∧
    (d.pfExists p.val = true → (d.fn p.val).vfEn = false → (d.fn p.val).numVfs ≤ d.vfAllot p.val → d.isEqual p.val = false →
      Does (.vfEnable p) s ((d.setFn p.val { d.fn p.val with vfEn := true, eqCh := d.pfChans p.val }).showFns
        ((List.range (d.fn p.val).numVfs).map (d.firstVf p.val + ·)))) ∧
    Does (.vfDisable p) s (d.vfDisable p.val) ∧
    (∀ (page : BitVec 52) (n : Nat), x.ats = true → d.atsBusy f.val page.toNat n = false →
      ∀ late, Does (.atsInvalidate f page n late) s ((d.atsDrop f.val page.toNat n).emit (.pcie port 2 [f.val]))) ∧
    (∀ (page : BitVec 52) (n : Nat), x.ats = true → d.atsBusy f.val page.toNat n = true →
      Does (.atsInvalidate f page n true) s (d.fault 14 4 20 f.val) ∧ Does (.atsInvalidate f page n false) s d) ∧
    (x.d3 = false → d.fnExists f.val = true → Does (.d3hotEntry f) s (d.pauseFn f.val { x with d3 := true })) ∧
    (x.d3 = true → Does (.d0Entry f) s ((d.setFn f.val { x with d3 := false }).resumeFn f.val)) ∧
    (∀ q rest, d.pfsOn h.val = q :: rest → (d.fn q).ltr = false →
      Does (.ltrEnable h) s ((d.setFn q { d.fn q with ltr := true }).emit (.pcie h.val 1 [d.get F.HOST_PORT_CFG_LTR_US h.val]))) ∧
    (∀ c, (d.hport port).released = true → x.flr = false → d.fnExists f.val = true →
      Does (.configRequest f c) s ((d.cfgWrite f.val c).emit (.pcie port 3 [f.val, 0, d.cfgRead f.val c]))) ∧
    (∀ l, d.hst.ledgers.find? (·.pf == p.val) = some l → d.flag F.QE_LEDGER_STATUS_UNACKED p.val = false → d.ledgerBusy p.val = false →
      d.ledgerRegion p.val = true →
      let g := (Dev.putLedger { d with hst := { d.hst with ledgers := d.hst.ledgers.erase l } } l).showHeld
      (l.held = false → Does (.ledgerWrite p) s g) ∧ (l.held = true → (d.fn p.val).bme = true → Does (.heldLedgerWrite p) s g))

/-! ### Work queues, DMA, instances, migration, mailboxes -/

/-- R349, R350, R353, R355, R357, R359 to R363, R365, R367, R372: a queue is enabled with its indices 0, disabled, stopped once its work is done, and resumed after an
error; doorbells, slice visits, fetches, acceptance, head write-backs, completion and event queues, RQ deliveries and a failed slice. -/
def Obligations.QueueCommandsComplete : Prop :=
  ∀ (s : State) (q : BitVec 16) (c : BitVec 15) (e : BitVec 12) (f : Fin 2052) (v : BitVec 64) (idx : BitVec 32) (sl : Fin 4) (h : Fin 2),
    s.dev.isUp 20 = true →
    let d := s.dev
    let n := q.toNat
    let x := d.q n
    let ix := bits v.toNat 32 32
    let qn := bits v.toNat 0 16
    (d.halted = false →
      (d.qState n = 0 → d.mayEnableQ n = true →
        let g := ((d.wr .QE_QCTX_PI n 0).wr .QE_QCTX_CI n 0).wr .QE_QCTX_DONE n 0
        let g := (g.put F.QE_QCTX_CTL_ENABLE n 1).put F.QE_QCTX_STATE_STATE n 1
        Does (.queueEnable q) s (g.setQ n { hwbDue := g.rd .QE_QCTX_HWB n != 0 })) ∧
      ((d.qState n = 1 ∨ d.qState n = 2) →
        let g := ((d.put F.QE_QCTX_CTL_ENABLE n 0).put F.QE_QCTX_STATE_STATE n 3).dropFetched n
        Does (.queueDisable q) s (if g.isRq n then g.dropBuffers n else g)) ∧
      (let g := d.put F.QE_QCTX_CTL_RESUME_INDEX n idx.toNat
       g.qState n = 2 → idxSub idx.toNat (g.get F.QE_QCTX_STATE_ERR_INDEX n) ≤ idxSub (g.qPi n) (g.get F.QE_QCTX_STATE_ERR_INDEX n) →
       Does (.queueResume q idx) s (g.resumeQueue n idx.toNat)) ∧
      (d.flag F.QE_CQCTX_CFG_ENABLE c.toNat = false →
        Does (.cqEnable c true) s ((d.put F.QE_CQCTX_CFG_ENABLE c.toNat 1).wr .QE_CQCTX_STATE c.toNat 0)) ∧
      (d.flag F.QE_CQCTX_CFG_ENABLE c.toNat = true → d.cqNamed c.toNat = false →
        Does (.cqEnable c false) s (d.put F.QE_CQCTX_CFG_ENABLE c.toNat 0)) ∧
      (d.flag F.QE_EQCTX_CFG_ENABLE e.toNat = false →
        Does (.eqEnable e true) s ((d.put F.QE_EQCTX_CFG_ENABLE e.toNat 1).wr .QE_EQCTX_STATE e.toNat 0)) ∧
      Does (.eqEnable e false) s (d.put F.QE_EQCTX_CFG_ENABLE e.toNat 0)) ∧
    (d.qState n = 3 → d.qDone n = d.qCi n → Does (.queueStopped q) s (d.wr .QE_QCTX_STATE n 0)) ∧
    ((d.fn f.val).flr = false → d.get F.INST_STATE_STATE f.val ≠ 0 → d.dbCheck f.val v.toNat true = none →
      (bits v.toNat 16 2 = 0 → Does (.doorbellPi f v true) s (d.dbPi qn ix)) ∧
      (bits v.toNat 16 2 = 1 → Does (.doorbellCq f v true) s (d.dbCq f.val qn ix (bit v.toNat 18))) ∧
      (bits v.toNat 16 2 = 2 → Does (.doorbellEq f v true) s (d.dbEq f.val qn ix (bit v.toNat 18)))) ∧
    (bit (d.get F.FCOL_PART_ISO_SLICE) sl.val = false → d.opRoom = true →
      (∀ k, d.rqToFill sl.val = some k → Does (.sliceVisit sl) s (d.readDescs k (d.rqWants k))) ∧
      (d.rqToFill sl.val = none → (d.liveQs.any fun q => d.sliceOf (d.qOwner q) == some sl.val && d.sqEligible q) = true →
        Does (.sliceVisit sl) s (d.visitSq sl.val))) ∧
    Does (.descriptorFetchComplete q false) s (d.descsRead n) ∧
    Does (.descriptorFetchComplete q true) s (d.listRead n) ∧
    (∀ y rest, d.qState n = 1 → d.accepts = true → x.descs = y :: rest → y.err = 0 → y.list = false → word32 y.bytes 0 % 256 = 16 →
      Does (.descriptorAccept q) s
        ((d.takeHead n { index := y.index, kind := 3, tag := word32 y.bytes 2, len := word32 y.bytes 6 % 2 ^ 17,
                         addr := leNat (slice y.bytes 16 8) }).headError n)) ∧
    (∀ (st : BitVec 48) (y : Item), d.item st.toNat = some y → y.pst = .loading →
      (d.hst.chans.cells.any fun c => c.2.ops.any fun o => o.loads st.toNat) = false → d.hst.rdOps.filter (fun o => o.loads st.toNat) = [] →
      Does (.payloadLoadComplete st) s (d.setItem st.toNat { y with pst := .waiting })) ∧
    (x.hwbDue = true → d.rd .QE_QCTX_HWB n ≠ 0 → d.qState n ≠ 0 → x.hwbAt = none →
      let g := d.hostWrite (d.qOwner n) 7 (d.rd .QE_QCTX_HWB n) (toLe 8 (d.qCi n + d.gen (d.qOwner n) * 2 ^ 32)) (.hwb n)
      Does (.headWriteBack q) s (g.setQ n { g.q n with hwbDue := false, hwbAt := some g.mono })) ∧
    Does (.rqDelivery h) s (d.rqDeliver (32 + h.val)) ∧
    (∀ st i w, d.net.sending.get (32 + h.val) = some (st, i) → d.hst.rqWait.find? (fun w => w.1 == st && w.2.1 == i) = some w →
      Does (.rqBufferWaitExpiry h) s ((d.reach w.2.2).rqLose (32 + h.val) st i 1 4)) ∧
    Does (.sliceFail sl 0) s ((d.fault 1 5 20 sl.val).sliceFails sl.val) ∧
    Does (.sliceFail sl 1) s ((d.fault 4 0x0A 20 sl.val).sliceFails sl.val) ∧
    Does (.sliceFail sl 2) s ((d.fault 5 7 20 sl.val).sliceFails sl.val)

/-- R319, R334, R341, R377, R382, R386, R388, R389, R392: reads and their answers, a burst grant, and the control of a channel: flush, abort, stop, resume, move and
failure. -/
def Obligations.DmaCommandsComplete : Prop :=
  ∀ (s : State) (c : Fin 64) (g : Fin 8) (ue : Fin 3) (f : Fin 2052) (port : Fin 2) (tag : Fin 16384) (data : List Nat), s.dev.isUp 20 = true →
    let d := s.dev
    let n := c.val
    let st := d.get F.DMA_CHAN_STATE_STATE n
    let x := d.chan n
    Does (.burstGrant g ue) s (d.grant g.val ue.val) ∧
    (d.halted = false →
      (d.rd .DMA_CHAN_STATUS_ADDR n ≠ 0 →
        Does (.flush c) s (((d.setChan n { x with flushes := x.flushes + 1 }).put F.DMA_CHAN_CTL_FLUSH n 1).issueFlush n)) ∧
      ((st = 1 ∨ st = 2) →
        Does (.abort c) s (((d.put F.DMA_CHAN_CTL_ABORT n 1).put F.DMA_CHAN_STATE_STATE n 3).count .DMA_ABORT_CNT n)) ∧
      (st = 4 →
        Does (.resume c) s (d.put F.DMA_CHAN_STATE_STATE n (if x.ops.isEmpty then 1 else 2))) ∧
      (d.flag F.DMA_CHAN_CFG_ENABLE n = true → d.get F.DMA_CHAN_CFG_OWNER_PF n = d.pfOf f.val →
        Does (.channelMove f c) s (d.moveInst f.val n))) ∧
    (∀ o, d.answeredOp (fun o => o.fin == .flush n) = some o → Does (.flushComplete c) s (d.flushDone o n)) ∧
    (st = 3 → Does (.channelStopped c) s (d.chanStopped n)) ∧
    (d.flag F.DMA_INST_CHAN_MOVING f.val = true → d.moveOver f.val = true →
      Does (.channelMoveComplete f) s (d.put F.DMA_INST_CHAN_MOVING f.val 0)) ∧
    (st ≠ 0 → st ≠ 5 → Does (.channelFail c) s ((d.fault 15 1 20 n).chanFailed n)) ∧
    (∀ r : Rd, d.hst.reads.find? (fun (r : Rd) => r.tag == some tag.val && r.port == port.val) = some r → r.gen = d.gen r.inst →
      Does (.readCompletion port tag true false data) s (d.answerRead r (some data)).savesOver ∧
      Does (.readCompletion port tag false false data) s (d.answerRead r none).savesOver) ∧
    (∀ r : Rd, d.hst.reads.find? (fun (r : Rd) => r.tag == some tag.val) = some r →
      Does (.completionTimeout tag) s
        (Dev.answerRead (((d.reach r.due).count .HOST_CPL_TIMEOUT r.port).fault 4 1 20 r.port) r none).savesOver) ∧
    (∀ (k : BitVec 14) (cid : BitVec 16) o, d.answeredOp (fun o => o.fin == .cid k.toNat cid.toNat) = some o →
      Does (.cidFetchComplete k cid) s ((d.takeOp o).cidFetched k.toNat cid.toNat (d.opData o)))

/-- R400, R402, R403, R406: CREATE, ENABLE, RESET and REMOVE of an instance that the PF owns, in a state that the command takes, and
the end of its drain, in time or forced. -/
def Obligations.InstanceCommandsComplete : Prop :=
  ∀ (s : State) (p : Fin 4) (f : Fin 2052) (cold hold : Bool) (sh : Shares),
    let d := s.dev
    let n := f.val
    let st := d.get F.INST_STATE_STATE n
    (d.idleWin (.iw p) →
      (d.createFault p.val n sh = none →
        Does (.create p f cold sh) s
          ((d.created p.val n (if d.isEqual p.val then d.equalShares p.val n sh else sh) cold).iwDone p.val 0 n)) ∧
      (d.pfOf n = p.val →
        (st = 2 → Does (.enable p f) s ((d.put F.INST_STATE_STATE n 3).iwDone p.val 0 n)) ∧
        ((st = 2 ∨ st = 3) →
          let g := d.instanceReset n 4
          Does (.reset p f hold) s ((if hold then g.put F.INST_STATE_HOLD n 1 else g).iwWaits p n 3) ∧
          Does (.remove p f) s ((d.instanceReset n 5).iwWaits p n 4)) ∧
        (st = 4 →
          Does (.reset p f hold) s ((if hold then d.put F.INST_STATE_HOLD n 1 else d).iwWaits p n 3) ∧
          Does (.remove p f) s ((d.put F.INST_STATE_STATE n 5).iwWaits p n 4)))) ∧
    (d.isUp 20 = true → (st = 4 ∨ st = 5) →
      (d.inflightPrev n = 0 → Does (.drainEnd f) s (d.endDrain n)) ∧
      (∀ t, (d.instX n).drain = some t → d.inflightPrev n ≠ 0 →
        Does (.drainForced f) s
          (((((d.reach t).retag n (d.instX n).pgen).count .INST_DRAIN_FORCED (d.pfOf n)).fault 4 5 20 n).endDrain n)))

/-- R418, R421, R422, R423, R425, R427, R428: the migration commands of a PF's window on an instance of its own, in a state that the command takes, and their ends. -/
def Obligations.MigrationCommandsComplete : Prop :=
  ∀ (s : State) (p : Fin 4) (f : Fin 2052) (kek : Fin 64) (b0 b1 base addr : BitVec 64) (lg : BitVec 8) (size : BitVec 32),
    let d := s.dev
    let n := f.val
    let m := d.mig n
    (d.idleWin (.mw p) → d.pfOf n = p.val →
      (d.instEnabled n = true → d.flag F.MIG_STATE_TRACKING n = false → b0.toNat % 4096 = 0 → b1.toNat % 4096 = 0 → base.toNat % 4096 = 0 →
        12 ≤ lg.toNat → lg.toNat ≤ 26 → (d.fn n).ats = false →
        let g := d.setMig n { m with bank0 := b0.toNat, bank1 := b1.toNat, base := base.toNat, lg := lg.toNat, marks := [] }
        Does (.dirtyStart p f b0 b1 base lg) s (((g.put F.MIG_STATE_TRACKING n 1).put F.MIG_STATE_BANK n 0).mwDone p.val n 1 0)) ∧
      (d.flag F.MIG_STATE_TRACKING n = true →
        Does (.dirtySwap p f) s (d.closeBank p n 2) ∧
        Does (.dirtyStop p f) s ((d.closeBank p n 3).put F.MIG_STATE_TRACKING n 0)) ∧
      (d.instEnabled n = true → (d.mstate n = 0 ∨ d.mstate n = 3) →
        let g := (d.put F.MIG_STATE_MSTATE n 1).resumeFn n
        let g := (g.instQs n).foldl (fun d q => d.dropFetched q) g
        Does (.freezeQuiesce p f kek) s ((g.setMig n { g.mig n with kek := kek.val }).mwWaits p n 4)) ∧
      (d.instEnabled n = true → d.mstate n = 0 →
        let g := d.put F.MIG_STATE_MSTATE n 3
        let g := g.pauseFn n (g.fn n)
        Does (.freezeInPlace p f kek) s ((g.setMig n { g.mig n with kek := kek.val }).mwDone p.val n 4 0)) ∧
      (2 ≤ d.mstate n → Does (.thaw p f) s (((d.put F.MIG_STATE_MSTATE n 0).resumeFn n).mwDone p.val n 7 0)) ∧
      (d.mstate n = 2 → (d.cry.keks.get m.kek).key ≠ [] → (d.cry.keks.get m.kek).export_ = true →
        let x := d.imgSections n
        let req := 64 + x.2.length
        req ≤ size.toNat →
        let g := ((cut64k x.2).mapIdx fun i b => (i, b)).foldl (fun d e =>
          d.hostWrite p.val 9 (addr.toNat + 64 + 65536 * e.1) e.2 (.image n)) d
        let g := g.hostWrite p.val 9 addr.toNat (g.imgHeader n x.1 req) (.image n)
        let c := g.chanOf p.val
        let g := g.addOp c { inst := p.val, gen := g.gen p.val, src := 0xC, read := true, addr := g.rd .DMA_CHAN_STATUS_ADDR c,
                             fin := .saveFlush n }
        Does (.save p f addr size) s ((g.setMig n { g.mig n with pages := req }).mwWaits p n 5)) ∧
      (∀ raw, d.get F.INST_STATE_STATE n = 2 → d.mstate n = 0 → d.get F.STM_FW_STATUS_RUN_INSTAR ≤ leNat (slice raw 6 2) →
        let req := leNat (slice raw 0xC 4)
        Does (.migrationRestore p f kek size (some raw)) s
          (match d.restoreFault n (d.cry.keks.get kek.val) (leNat (slice raw 6 2)) size.toNat raw with
            | some (st, sec) => d.mwDone p.val n 6 st [(0x208, req + sec * 2 ^ 32)]
            | none => (d.restore p.val n (d.cry.keks.get kek.val).key (leNat (slice raw 0x12 2))
                ((sectsOf (leNat (slice raw 8 2)) (slice raw 64 (req - 64))).getD [])).mwDone p.val n 6 0 [(0x208, req)]))) ∧
    (d.isUp 20 = true → ∀ w, m.win = some w →
      (d.mstate n = 1 → d.quiesceWaits n = false →
        Does (.quiesced f) s (((d.put F.MIG_STATE_MSTATE n 2).setMig n { m with win := none }).mwDone w n 4 0)) ∧
      ((m.opc = 2 ∨ m.opc = 3) → (d.chanOps.any fun o => m.ops.contains o.id || o.fin == .migFlush n) = false →
        d.hst.rdOps.filter (fun o => o.fin == .migFlush n) = [] →
        let g := d.setMig n { m with win := none, ops := [] }
        Does (.dirtySwapComplete f) s (g.mwDone w n m.opc 0 [(0x208, m.pages + (1 - g.get F.MIG_STATE_BANK n) * 2 ^ 32)])))

/-- R431 to R434: a mailbox message is sent, cancelled, taken, and times out. `up` names the mailbox from the tenant to the manager. -/
def Obligations.MailboxCommandsComplete : Prop :=
  ∀ (s : State) (f : Fin 2052) (up : Bool) (q : Requester), s.dev.isUp 20 = true →
    let d := s.dev
    let n := f.val
    (d.halted = false →
      (d.mbxPending n up = false →
        let old := d.get (F.MBX_TX_STATUS_SEQ.atEnd up) n
        let seq := if old = 0xFFFF then 1 else old + 1
        let g := d.put (F.MBX_TX_STATUS_SEQ.atEnd up) n seq
        let h := g.mbxPlace n up ((List.range 8).map fun k => g.rd (Reg.atEnd .MBX_TX_MSG up) (n * 8 + k)) 0 (g.gen (g.mbxSender n up)) seq
        g.present (g.mbxReceiver n up) = true →
        Does (.send f up) s ((h.mbxState n up 1 0).setMbxDue n up (some (h.mono + h.get (F.MBX_TX_CFG_TMO_MS.atEnd up) n * 1000000)))) ∧
      (d.mbxPending n up = true →
        Does (.cancel f up) s (((d.put (F.MBX_RX_INFO_FULL.atEnd (!up)) n 0).setMbxDue n up none).mbxState n up 0 0))) ∧
    Does (.rxTake q f up) s ((d.mbxTake n up).2.emit (.rsp q.code [(d.mbxTake n up).1])) ∧
    (∀ t, d.hst.mbxDue.get (mbxKey n up) = some t →
      Does (.mailboxTimeout f up) s ((d.reach t).mbxTimeout n up 1))

/-! ### The steward, firmware, fuses and secure channels -/

/-- R290, R440, R442, R443, R444, R585, R589, R594, R596, R597: what the running steward does with a command of a mailbox or secure channel that it takes, where the
arguments are good: images, bindings, configuration items, keys, injection, and the timeout of a command that waits. -/
def Obligations.StewardCommandsComplete : Prop :=
  ∀ (s : State) (m : Fin 16) (tmo : BitVec 14),
    let d := s.dev
    (d.stewardTakes m tmo →
      (∀ p, stmPf m = some p →
        (∀ (off : BitVec 64) (len : BitVec 32) b, d.shmOk p off.toNat len.toNat = true →
          let raw := slice (b ++ List.replicate len.toNat 0) 0 len.toNat
          Does (.imageLoad m tmo off len (some b)) s
            (match imageBreach raw len.toNat, d.signBreach raw, d.loadImage p raw with
             | some x, _, _ => d.stmDone m 6 x
             | none, some x, _ => (d.fault 10 2 24 p).stmDone m 6 x
             | none, none, none => d.stmDone m 7
             | none, none, some r => r.2.stmDone m 0 0 [(0x208, r.1)])) ∧
        (∀ (id : BitVec 32) x, d.image id.toNat = some x → x.owner = p → d.imageUsed id.toNat = false →
          (d.stw.moults.any fun j => j.entries.any (·.image == some id.toNat)) = false →
          Does (.imageDrop m tmo id) s
            (Dev.stmDone { d with stw := { d.stw with imgs := d.stw.imgs.set id.toNat none } } m 0)) ∧
        (∀ (id : BitVec 32) (slot : BitVec 8) (inst : BitVec 16) (off : BitVec 64) map,
          d.bindFault p id.toNat slot.toNat inst.toNat 0 4 off.toNat map = none →
          Does (.slotBind m tmo id slot inst off map) s (d.bindSlots m tmo 3 p [bindEntry id.toNat slot.toNat inst.toNat map])) ∧
        (∀ slot : BitVec 8, d.slotOwner slot.toNat = some p →
          Does (.slotUnbind m tmo slot) s (d.moultWaits m tmo 4 p [{ slot := slot.toNat, image := none }])) ∧
        (∀ l : List MoultArg, l ≠ [] → l.length ≤ 15 → d.moultFault p l = none →
          Does (.moultSet m tmo l) s (d.bindSlots m tmo 0x14 p (l.map fun a => bindEntry a.1 a.2.1 a.2.2.1 a.2.2.2.2))) ∧
        (∀ item : BitVec 16, 1 ≤ item.toNat → item.toNat ≤ 3 →
          Does (.cfgGet m tmo item) s
            (d.stmDone m 0 0 (resBytes (d.stw.cfg.get (if item.toNat = 3 then 3 + 0x10000 * p else item.toNat))))) ∧
        Does (.fwInfo m tmo) s
          (d.stmDone m 0 0 [(0x208, d.get F.STM_FW_STATUS_RUN_INSTAR + d.stw.isa % 2 ^ 16 * 2 ^ 16 + d.get F.STM_FW_STATUS_ACTIVE_SLOT * 2 ^ 32)]) ∧
        (let x := d.stw.flash
         let top := x.wear.cells.foldl (fun a c => max a c.2.erases) 0
         Does (.flashInfo m tmo) s
           (d.stmDone m 0 0 [(0x208, x.sparesFree % 2 ^ 16 * 2 ^ 32 + x.inState 1 % 2 ^ 16 * 2 ^ 48),
             (0x210, x.inState 2 % 2 ^ 16 + top % 2 ^ 32 * 2 ^ 32), (0x218, x.endurance)]))) ∧
      (stmPf m = some 0 → ∀ (item : BitVec 16) v, d.cfgBad item.toNat v = false → d.stw.flash.full = false →
        let k := if item.toNat = 3 then 3 + 0x10000 * v.getD 0 0 else item.toNat
        let g : Dev := { d with stw := { d.stw with cfg := d.stw.cfg.set k (slice v 0 248) } }
        Does (.cfgSet m tmo item v) s
          ((g.putRecord { type := 1, instar := g.get F.STM_FW_STATUS_RUN_INSTAR, key := k, data := slice v 0 248 }).stmDone m 0)) ∧
      (stmPf m = some 0 → ∀ (off : BitVec 64) (len : BitVec 16) (slot : BitVec 8) (inst : BitVec 16) b,
        1 ≤ len.toNat → len.toNat ≤ 16383 → inst.toNat ≤ 2051 → d.shmOk 0 off.toNat len.toNat = true →
        let st := (d.nextStamp 6).1
        let cls := (Config.injectClass st).toNat
        let key := (Config.injectKey st).toNat
        ∀ r, d.takeCells (35 * 8 + cls) (cellsOf len.toNat) = some r → d.robRoom key = true →
        let tok : Token := { inst := inst.toNat, okey := key, slot := slot.toNat, len := len.toNat, head := min 256 len.toNat }
        let x : Item := { tok := tok, data := slice (b ++ List.replicate len.toNat 0) 0 len.toNat, iap := 35, cls := cls,
                          resv := r.2.resv, shared := r.2.shared, headroom := r.2.head }
        Does (.inject m tmo off len slot inst (some b)) s ((r.1.accept 6 x).stmDone m 0 0 [(0x208, st)])) ∧
      (stmSecure m = true → ∀ (slot : BitVec 16) (kslot owner len : BitVec 8) key, d.pfExists owner.toNat = true →
        (slot.toNat ≤ 32767 → (slice key 44 4).any (· != 0) = false → (d.cry.keys.get slot.toNat).refs = 0 →
          let b := slice (key ++ List.replicate 48 0) 0 48
          Does (.keyLoad m tmo slot owner key) s
            (Dev.stmDone { d with cry := { d.cry with keys := d.cry.keys.set slot.toNat { key := b, owner := owner.toNat } } } m 0 0
              [(0x208, kcvOf b)])) ∧
        (kslot.toNat ≤ 63 → (len.toNat = 16 ∨ len.toNat = 32) → ∀ exp,
          let b := slice (key ++ List.replicate len.toNat 0) 0 len.toNat
          Does (.kekLoad m tmo kslot owner exp len key) s
            (Dev.stmDone { d with cry := { d.cry with keks := d.cry.keks.set kslot.toNat { key := b, owner := owner.toNat, export_ := exp } } }
              m 0 0 [(0x208, kcvOf b)])))) ∧
    (∀ t, d.stw.due.get m.val = some t → (d.win (.stm m)).st = 1 → (d.reach t).entering = false → (d.reach t).stw.running = true →
      (d.reach t).stw.wasReset = false →
      let g : Dev := { d.reach t with stw := { (d.reach t).stw with moults := (d.reach t).stw.moults.filter (·.win != m.val) } }
      Does (.stewardCmdTimeout m) s ((g.winDone (.stm m) [(0x200, 9 + 1 * 256)]).setStmDue m.val none))

/-- R584, R585, R586, R589, R590, R594, R596: firmware and flash commands of PF0's mailbox where the flash works; the commitment, records, log
compaction and wear ledger; and the moult's switch and retirement. -/
def Obligations.FirmwareCommandsComplete : Prop :=
  ∀ (s : State) (m : Fin 16) (tmo : BitVec 14) (off : BitVec 64) (len slotOff : BitVec 32) (b : List Nat) (fq : Fin 4),
    let d := s.dev
    let n := len.toNat
    let raw := slice (b ++ List.replicate n 0) 0 n
    (d.stewardTakes m tmo → stmPf m = some 0 → d.flashFull = false →
      (fq.val ≠ 3 →
        (1 ≤ n → n ≤ 2 ^ 20 → slotOff.toNat % 256 = 0 → slotOff.toNat + n ≤ 0x4000000 → d.shmOk 0 off.toNat n = true →
          let a := slotBase d.standby + slotOff.toNat
          let e := d.openSession.sessionErase fq.val (sectorsOf a n)
          e.2 = true → Does (.fwWrite m tmo off len slotOff (some b) fq) s ((e.1.setFlash (e.1.stw.flash.write a raw)).fwDone m 0x10 0 0 0)) ∧
        Does (.fwFinish m tmo fq) s
          (let w := d.slotImage d.standby
           match d.fwFault w with
           | some x => (d.fwFaultRaised w x.1).endSession.fwDone m 0x11 6 x.1 x.2
           | none =>
             if d.get F.STM_FW_STATUS_RUN_INSTAR < leNat (slice w 0x1C 2) then d.endSession.fwDone m 0x11 6 6 0x1C
             else (d.setBoot { d.stw.flash.boot with trial := true, tries := 3 }).endSession.fwDone m 0x11 0 0 0) ∧
        (d.onTrial = true → ∀ miss,
          Does (.fwCommit m tmo false miss fq) s (d.commitTrial.fwDone m 0x12 0 0 0) ∧
          Does (.fwCommit m tmo true miss fq) s ((d.commitTrial.rollbackAdvance miss d.commitTrial.stw.index).1.fwDone m 0x12 0 0 0)) ∧
        (64 ≤ n → n ≤ 2 ^ 20 → d.shmOk 0 off.toNat n = true →
          let x := d.stw.flash
          let a := 0x8D00000 + x.chryOlder * 0x100000
          let seq := max ((x.chrySeq 0).getD 0) ((x.chrySeq 1).getD 0) + 1
          let e := ((sectorsOf a 0x100000).drop 1).foldl (fun (e : Dev × Bool) sec => if e.2 then e.1.eraseSector sec 0 else e)
            (d.eraseSector (a / 65536) fq.val)
          e.2 = true → Does (.chryWrite m tmo off len (some b) fq) s
            ((e.1.setFlash (e.1.stw.flash.write a (splice raw 8 (toLe 4 seq)))).fwDone m 0x15 0 0 0))) ∧
      (d.stw.flash.boot.trial = true →
        Does (.fwAbort m tmo) s ((d.setBoot { d.stw.flash.boot with trial := false }).endSession.fwDone m 0x13 0 0 0))) ∧
    (d.stw.running = true →
      (∀ t, d.stw.runAt = some t → d.onTrial = true → d.flashFull = false → (d.stw.flash.boardWord 4).getD 600 ≠ 0xFFFFFFFE →
        Does .autoCommit s (d.reach (t + (d.stw.flash.boardWord 4).getD 600 * 1000000000)).commitTrial) ∧
      (∀ r rest, d.stw.flash.wait = r :: rest → d.flashFull = false → d.stw.flash.head + r.size ≤ d.stw.flash.tail + 58 * 65536 → rest ≠ [] →
        Does (.recordWrite 0) s
          ((d.setFlash (Flash.append { d.stw.flash with wait := rest } r)).raiseLocal 24 31 r.type 0)) ∧
      Does (.logCompaction fq) s (d.compactLog fq.val) ∧
      (d.stw.flash.dirty.isSome = true → Does (.wearLedgerWrite fq) s (d.writeLedgerCopy fq.val))) ∧
    (d.isUp 21 = true →
      (∀ j, d.stw.moults.find? (·.win == m.val) = some j → (∀ e ∈ j.entries, d.get F.BUF_SLOT_STATE_RETIRING e.slot = 0) →
        let g := d.moultSwitch (j.entries.map fun e => (e.slot, d.moultNew j.pf e))
        let g : Dev := { g with stw := { g.stw with moults := g.stw.moults.erase j } }
        Does (.moultSwitch m) s
          (let h := j.entries.foldl (fun d e => d.bindRecords e) g
           h.stmDone m 0 0 (h.moultRes j.opc j.entries))) ∧
      (∀ slot : BitVec 8, d.get F.BUF_SLOT_STATE_RETIRING slot.toNat ≠ 0 →
        d.verCount slot.toNat (d.get F.BUF_SLOT_STATE_RETIRING slot.toNat) = 0 →
        let v := d.get F.BUF_SLOT_STATE_RETIRING slot.toNat
        Does (.moultRetired slot) s
          (((d.freeVer slot.toNat v).put F.BUF_SLOT_STATE_RETIRING slot.toNat 0).raiseLocal 24 30 slot.toNat v).unbindGone))

/-- R331, R441, R557, R562, R563, R565, R570: fuse sensing and its timeout; PROGRAM, LC_ADVANCE and ROLLBACK_ADVANCE from a source that reaches the fuse window, of
words that may be programmed and are blank; JTAG; BAR4 and IDE. -/
def Obligations.FuseCommandsComplete : Prop :=
  ∀ (s : State) (src : PwSource) (word : BitVec 9) (data : List (BitVec 32)) (miss : List FuseMiss) (t tj : BitVec 8),
    let d := s.dev
    let ws := (List.range data.length).map (word.toNat + ·)
    (d.stw.start.sensing = true → ∀ ov bad (w : Fin 512),
      Does (.fuseSense tj ov bad) s (d.senseDone tj.toNat ov bad) ∧
      Does (.senseTimeout w) s (((d.reach (d.stw.start.ref + 5000000)).fault 12 5 25 w.val).secureHold w.val)) ∧
    (d.pwTakes src →
      (1 ≤ data.length → data.length ≤ 24 → word.toNat + data.length ≤ 511 → (∀ w ∈ ws, d.mayProgram w = true ∧ d.fuseBlank w = true) →
        Does (.program src word data miss) s (Dev.pwVerified (d.blowAll miss (ws.zip (data.map (·.toNat)))))) ∧
      (1 ≤ d.get F.FUSE_STATUS_LC → d.get F.FUSE_STATUS_LC ≤ 2 → d.fuseBlank (d.get F.FUSE_STATUS_LC) = true →
        Does (.lcAdvance src miss) s (Dev.pwVerified (d.blowAll miss [(d.get F.FUSE_STATUS_LC, setPattern)]))) ∧
      (d.get F.FUSE_STATUS_LC ≠ 0 → d.get F.FUSE_STATUS_LC ≠ 3 → d.rollbackV < t.toNat → t.toNat ≤ 64 →
        ∀ g, d.advanceTo miss t.toNat = (g, none) → Does (.rollbackAdvance src t miss) s (g.pwDone 0 0))) ∧
    (∀ i, (d.jtagAccepts i = true → Does (.jtagInstruction i) s d) ∧ (d.jtagAccepts i = false → Does (.jtagInstruction i) s (d.fault 10 7 25))) ∧
    (d.isUp 20 = true → ∀ (f : Fin 2052) (p : Fin 4) (x : Fin 5) (h : Fin 2) (act : Fin 3),
      (f.val = p.val → d.get F.FUSE_STATUS_LC ≠ 0 → d.get F.FUSE_STATUS_LC ≠ 3 → d.trusted (d.hostPortOf f.val) x.val = true →
        Does (.bar4Request f p (some x) true) s d ∧ Does (.bar4Request f p (some x) false) s d) ∧
      (let k := h.val * 5 + x.val
       Does (.ideKmMessage h x act) s
         ((d.ideKm k act.val).put F.IDE_STREAM_TRUSTED k (b2n (x.val != 0 && bit ((d.ideKm k act.val).fuseVal 4) (h.val * 4 + x.val))))))

/-! ### Events, faults and the group -/

/-- R453, R455, R462, R463, R464, R471, R473, R475, R476, R537: events are delivered, MSI-X messages written, fault messages collected, FATAL asserted and its silence
reported, and the faults that a part or a clock raises. -/
def Obligations.EventsAndFaultsComplete : Prop :=
  ∀ (s : State) (k : Nat) (f : Fin 2052) (v : Fin 2048) (n : Fin 26) (lost : List (Nat × Nat)),
    let d := s.dev
    (d.isUp 20 = true →
      (∀ e, d.evq[k]? = some e → (∀ x ∈ d.evq.take k, evtIsland x.id ≠ evtIsland e.id) →
        let g : Dev := { d.reach (d.heldTill (evtIsland e.id) 20 e.sent) with evq := d.evq.eraseIdx k }
        (e.id < 0x40 → Does (.eventRaise k) s (g.deliverInst e)) ∧
        (0x40 ≤ e.id → e.id < 0x570 → Does (.eventRaise k) s (g.deliverDev e))) ∧
      (d.vecReady f.val v.val = true → (d.vec f.val v.val).last = none →
        Does (.msixMessage f v) s
          ((d.setVec f.val v.val { d.vec f.val v.val with pend := false, last := some d.mono }).hostWrite f.val 0xB
            (d.vec f.val v.val).addr (toLe 4 (d.vec f.val v.val).data)))) ∧
    (d.isUp 25 = true →
      (∀ m, d.ftq[k]? = some m → (∀ x ∈ d.ftq.take k, x.island ≠ m.island) →
        Does (.faultMessage (.inFlight k) lost) s (Dev.collect { d.reach (d.heldTill m.island 25 m.sent) with ftq := d.ftq.eraseIdx k } m lost)) ∧
      (∀ cls kind island block addr detail, kindLevel cls kind ≠ none → island < 26 → d.isUp island = true →
        (∀ x ∈ d.ftq, x.island ≠ island) →
        Does (.faultMessage (.detected cls kind island block addr detail) lost) s
          ((d.reach (d.heldTill island 25 d.mono)).collect
            ⟨cls, kind, island, block % 32, addr % 2 ^ 52, detail % 2 ^ 32, d.mono⟩ lost)) ∧
      (bit (d.get F.FCOL_FPSW_FATAL) n.val = false →
        let g := d.put F.FCOL_FPSW_FATAL 0 (setBits (d.get F.FCOL_FPSW_FATAL) n.val 1 1)
        Does (.fatalAssert n) s { g with fc := { g.fc with silent := g.fc.silent.set n.val (some g.mono) } }) ∧
      (∀ t, d.fc.silent.get n.val = some t →
        let g := d.reach (t + 10000)
        Does (.fatalSilent n) s
          (Dev.collect { g with fc := { g.fc with silent := g.fc.silent.set n.val none } } { cls := 4, kind := 0x0C, island := n.val } [])) ∧
      (∀ seq : BitVec 16, Does (.faultAck seq) s (d.ackFault seq.toNat)) ∧
      Does .logMemoryFailure s ((d.fatal 25).put F.FCOL_STATUS_LOG_FAILED 0 1) ∧
      (∀ p : Fin 16, bit (d.get F.FCOL_PART_ISO_POD) p.val = true → d.stw.running = true → d.podStays p.val = false →
        let g := ((d.rewriteDir p.val).put F.FCOL_PART_ISO_POD 0 (setBits (d.get F.FCOL_PART_ISO_POD) p.val 1 0)).setIsland p.val true
        Does (.isolationClear p) s (if g.podsDue then g.loadPod p.val else g))) ∧
    (∀ u : Fin 64,
      (d.isUp 22 = true → Does (.operationHang 0 u) s (d.fault 4 8 22 (u.val % 8))) ∧
      (d.isUp 20 = true → Does (.operationHang 1 u) s (d.fault 4 9 20 u.val) ∧ Does (.operationHang 2 u) s (d.fault 4 0x0A 20 (u.val % 4)))) ∧
    (d.isUp 24 = true → d.stw.running = true → Does .stewardWatchdog s (d.fault 4 7 24)) ∧
    (∀ p : Fin 16, d.isUp p.val = true →
      Does (.droopFloor p) s
        (((d.put F.POD_CLK_STATUS_FREQ_MHZ p.val 1200).put F.POD_CLK_STATUS_AT_FLOOR p.val 1).fault 6 7 p.val p.val 1200)) ∧
    (d.isUp n.val = true →
      (∀ (b : Fin 32) (mem syn : BitVec 8), d.fc.storm.get ((n.val * 32 + b.val) * 256 + mem.toNat) = none →
        let g : Dev := { d with fc := { d.fc with storm := d.fc.storm.set ((n.val * 32 + b.val) * 256 + mem.toNat) (some d.mono) } }
        Does (.ceStorm n b mem syn) s (g.fault 0 0x0B n.val (syn.toNat + mem.toNat * 256) 0 0 (some b.val))) ∧
      (2 < (d.sys.localErr.get n.val).natAbs →
        Does (.dtbAlign n) s (d.fault 11 6 n.val n.val (d.sys.localErr.get n.val).natAbs)) ∧
      ((d.sys.localErr.get n.val).natAbs ≤ 2 → Does (.dtbAlign n) s d) ∧
      (∀ e : BitVec 16, Does (.dtbSync n e) s { d with sys := { d.sys with localErr := d.sys.localErr.set n.val (signed 16 e.toNat) } }))

/-- R478, R483, R484, R495: what members send each other: hellos, and copies forwarded, acknowledged, refused and sent again. -/
def Obligations.GroupTrafficCompletes : Prop :=
  ∀ (s : State) (l : Fin 3) (b : List Nat) (m : Fin 5) (fseq : BitVec 32) (st c : Nat),
    let d := s.dev
    (d.isUp 25 = true → d.flag F.GRP_CFG_ENABLE = true →
      (d.linkActive l.val = true →
        let g := d.reach (d.gp.helloAt.get l.val + 100000)
        let h : Dev := { g with gp := { g.gp with helloAt := g.gp.helloAt.set l.val g.mono } }
        Does (.helloSend l) s (h.elSend l.val
          { cls := 0, src := h.me, dst := h.get F.NET_EL_STATUS_PEER_MEMBER (l.val + 1) + 1, data := h.helloBytes l.val })) ∧
      (let w0 := leNat (slice b 0 4)
       let n := w0 % 8
       let h : Heard := { at_ := d.mono, state := bits w0 3 3, ptp := bit w0 6, direct := bits w0 7 4, vmaj := bits w0 11 4,
                          vmin := bits w0 15 4, epoch := leNat (slice b 4 4), digest := leNat (slice b 8 8) }
       let gp := { d.gp with hello := d.gp.hello.set n (some h), echo := d.gp.echo.set l.val (some (leNat (slice b 16 8), d.now)) }
       let g : Dev := { d with grp := { d.grp with direct := d.grp.direct.set n h.direct }, gp := gp }
       d.linkActive l.val = true → n ≠ d.me → 1 ≤ n → n ≤ 4 → g.get F.GRP_STATUS_LEADER ≠ n →
       Does (.helloReceive l b) s (g.memberHeard n h)) ∧
      (let src := leNat (slice b 4 4) % 4 + 1
       let f := leNat (slice b 0 4)
       d.isUp 21 = true → bits (leNat (slice b 4 4)) 2 2 + 1 = d.me → f = d.gp.expect.get src →
       ∀ r, d.arrive l.val src b = some r →
       let g := r.count .GRP_FWD_RX (src - 1)
       let y := g.gp.verdicts.set (src * 1024 + f % 1024) (some (f, true))
       let h : Dev := { g with gp := { g.gp with expect := g.gp.expect.set src ((f + 1) % 2 ^ 32), verdicts := y } }
       Does (.forwardedCopyArrival l b) s (h.fwdAck src f true)) ∧
      (d.get F.GRP_STATUS_STATE = 3 → d.get F.GRP_STATUS_LEADER ≠ d.me → d.get F.GRP_STATUS_LEADER ≠ 0 →
        d.peerOn (d.get F.GRP_STATUS_LEADER) = false → d.flag F.GRP_STATUS_TIME_DIVERGED = false →
        Does .timeDiverged s (((d.reach (d.gp.directAt + 1000000000)).put F.GRP_STATUS_TIME_DIVERGED 0 1).fault 13 3 25))) ∧
    (d.isUp 21 = true →
      (∀ f, d.grp.fwd.find? (fun f => f.member == m.val && f.fseq == fseq.toNat && f.redo.isNone) = some f →
        Does (.forwardAck m fseq true) s
          (Dev.count { d with grp := { d.grp with fwd := d.grp.fwd.map fun x => if x = f then { x with redo := some (d.mono + 2000) } else x } }
            .GRP_FWD_REFUSED (m.val - 1)) ∧
        (let g : Dev := { d with grp := { d.grp with fwd := d.grp.fwd.erase f } }
         Does (.forwardAck m fseq false) s ((if f.c = 0 then g.outcome f.stamp 0 0 else g).endCopy f.stamp f.c))) ∧
      (∀ f t k q, d.grp.fwd.find? (fun f => f.member == m.val && f.fseq == fseq.toNat) = some f → f.redo = some t →
        let g : Dev := { d.reach t with grp := { (d.reach t).grp with fwd := (d.reach t).grp.fwd.erase f } }
        g.copy f.stamp f.c = some k → g.queueOf k = some q →
        Does (.refuseResend m fseq) s ((g.joinQueue f.stamp f.c q k).setCopy f.stamp f.c fun x => { x with hold := k.hold })) ∧
      (∀ k t, d.copy st c = some k → k.dtype = 2 → k.st ≠ .gone → d.halted = false → k.hold = some t →
        Does (.groupHoldExpiry st c) s ((((d.reach t).count .GRP_FWD_HOLD_DROP (bits k.dest 15 2)).loseCopy st c 4 3).dropFwd st c)))

/-- R486, R487, R489 to R495: the group's configuration commits and its membership. The leader with a majority starts a commit; members prepare,
answer and apply at the instant; a leader that is lost, a fence, and its end. -/
def Obligations.GroupMembershipCompletes : Prop :=
  ∀ (s : State) (off t : BitVec 64) (len epoch : BitVec 32) (data enc : List Nat) (m ld : Fin 5) (cur : BitVec 4),
    let d := s.dev
    (d.idleWin .gw →
      (let raw := slice (data ++ List.replicate len.toNat 0) 0 len.toNat
       d.isLeader = true → d.majority ≤ (ofMask (d.get F.GRP_STATUS_CURRENT)).length + b2n (d.bmcVotes && d.bmcHeard) → d.gp.run = none →
       d.shmOk 0 off.toNat len.toNat = true → encBreach raw len.toNat = none → (d.grpTables raw).2 = true →
       Does (.groupCommit off len (some data)) s
         ((d.winBusy .gw).startCommit raw (d.nextCurrent raw []) (d.get F.GRP_STATUS_EPOCH + 1) true)) ∧
      (let g : Dev := { d with gp := { d.gp with held := true } }
       (g.get F.GRP_STATUS_STATE = 3 → Does .groupLeave s ((g.leaveService 2).gwDone 0 0)) ∧
       (g.get F.GRP_STATUS_STATE ≠ 3 → Does .groupLeave s (g.gwDone 0 0))) ∧
      Does .groupRejoin s (Dev.gwDone { d with gp := { d.gp with held := false, memberAt := d.mono } } 0 0)) ∧
    (d.isUp 25 = true → d.flag F.GRP_CFG_ENABLE = true →
      (m.val ≠ d.me → encBreach enc enc.length = none → (d.grpTables enc).2 = true → d.heardOf m.val = none →
        Does (.prepare m epoch cur ld enc) s
          (Dev.emit { d with gp := { d.gp with prep := some { epoch := epoch.toNat, current := cur.toNat, leader := ld.val, enc := enc, at_ := d.mono } } }
            (.group m.val 1 []))) ∧
      (∀ r, d.gp.run = some r → inMask r.prep.current m.val = true → r.prep.apply = none → m.val ∉ r.ready →
        Does (.ready m true) s (d.commitFails r 5 m.val) ∧
        (let q := { r with ready := r.ready ++ [m.val] }
         let g : Dev := { d with gp := { d.gp with run := some q } }
         (g.commitReady q = true → Does (.ready m false) s (g.commitGo q)) ∧ (g.commitReady q = false → Does (.ready m false) s g))) ∧
      (∀ p, d.gp.prep = some p →
        Does (.commit t) s { d with gp := { d.gp with prep := some { p with apply := some (t.toNat - d.sys.steps) } } } ∧
        (∀ a, p.apply = some a → Does .commitApply s ((d.reach a).commitApply p)) ∧
        (p.apply = none → d.gp.run = none →
          Does .preparedDiscard s
            { d.reach (p.at_ + 100000000) with gp := { (d.reach (p.at_ + 100000000)).gp with prep := none } })) ∧
      Does .groupAbort s { d with gp := { d.gp with prep := none } } ∧
      (∀ r, d.gp.run = some r → r.prep.apply = none →
        Does .prepareTimeout s ((d.reach (r.prep.at_ + 10000000)).commitFails r 6
          (((ofMask r.prep.current).find? fun m => m != d.me && !r.ready.contains m).getD 0))) ∧
      (let l := members.filter fun m => inMask (d.get F.GRP_STATUS_CONFIGURED) m && (m == d.me || d.joinable m)
       let e := (members.map fun m => match d.heardOf m with | some h => h.epoch | none => 0).foldl max (d.get F.GRP_STATUS_EPOCH)
       d.get F.GRP_STATUS_STATE = 2 → d.gp.held = false → d.gp.timeLeft = false → d.gp.run = none → d.grp.set ≠ [] →
       (members.any fun m => m != d.me && d.inContact m) = false → d.chooseLeader l = d.me →
       d.majority ≤ l.length + b2n (d.bmcVotes && d.bmcHeard) →
       Does .groupForm s ((d.reach (d.gp.memberAt + 2 * d.superframe)).startCommit d.grp.set l (e + 1) false)) ∧
      (let old := d.get F.GRP_STATUS_LEADER
       let left := (ofMask (d.get F.GRP_STATUS_CURRENT)).filter fun m => m != old && d.inContact m
       let new := d.chooseLeader left
       let g := d.grpSet 3 new (d.get F.GRP_STATUS_CURRENT)
       d.get F.GRP_STATUS_STATE = 3 → old ≠ d.me → old ≠ 0 → d.inContact old = false →
       (new ≠ g.me → Does .leaderLost s g) ∧ (new = g.me → g.gp.prep = none → Does .leaderLost s (g.membership [old]))) ∧
      (let g := d.grpWatch
       (∀ a, g.gp.below = some a → g.get F.GRP_STATUS_STATE = 3 →
         Does .selfFence s (((g.reach (a + g.fenceNs)).leaveService 5).fault 13 5 25)) ∧
       (∀ a, g.gp.okAt = some a → g.get F.GRP_STATUS_STATE = 5 →
         let h : Dev := { g.reach (a + 100000000) with gp := { (g.reach (a + 100000000)).gp with memberAt := (g.reach (a + 100000000)).mono } }
         Does .fenceRecovery s (h.grpSet 2 (h.get F.GRP_STATUS_LEADER) (h.get F.GRP_STATUS_CURRENT))) ∧
       (∀ a, g.isLeader = true → m.val ≠ g.me → inMask (g.get F.GRP_STATUS_CURRENT) m.val = true → g.gp.away.get m.val = some a →
         Does (.memberLost m) s (((g.reach (a + g.fenceNs)).fault 13 6 25 m.val).membership [m.val]))) ∧
      (∀ x, d.tbl.repl.find? (·.seq == epoch.toNat) = some x → d.isLeader = true →
        Does (.replicatedApplyTimeout epoch.toNat) s ((d.reach x.due).membership x.left))) ∧
    (d.isUp 22 = true →
      (∀ seq op, d.tbl.replGot ≤ seq → d.isLeader = false →
        let g : Dev := { (d.tableOp op).1 with tbl := { (d.tableOp op).1.tbl with replGot := seq + 1 } }
        Does (.replicatedWrite (.write seq op)) s (g.emit (.replAck (g.get F.GRP_STATUS_LEADER) seq))) ∧
      (∀ k seq,
        let l := d.tbl.repl.map fun (x : Repl) => if x.seq = seq then { x with left := x.left.filter (· != k) } else x
        Does (.replicatedWrite (.applied k seq)) s (Dev.replSettle { d with tbl := { d.tbl with repl := l } })) ∧
      (∀ (n : Fin 1024) (ix : Nat) (div : BitVec 4), d.isLeader = true → inMask (d.get F.GRP_STATUS_CURRENT) m.val = true → d.tScope n.val = 1 →
        let win := d.get F.TABLE_AGE_CFG_PERIOD_MS n.val * 1000000
        let l := (d.tbl.idleRep.filter fun r => decide (d.mono ≤ r.2.2.2 + win) && !(r.1 == m.val && r.2.1 == n.val && r.2.2.1 == ix))
          ++ [(m.val, n.val, ix, d.mono)]
        (∃ k ∈ ofMask (d.get F.GRP_STATUS_CURRENT), inMask div.toNat k = false ∧ ∀ r ∈ l, ¬ (r.1 = k ∧ r.2.1 = n.val ∧ r.2.2.1 = ix)) →
        Does (.replicatedAgingReport m n ix div) s { d with tbl := { d.tbl with idleRep := l } }))

/-- R497 to R502: the beacon line, where the group is enabled. A beacon leaves in its slot, three that fail silence it, hold-over ends in
rendezvous, and what is heard is taken. -/
def Obligations.BeaconLineCompletes : Prop :=
  ∀ (s : State) (b : List Nat) (at_ : Nat) (targets : BitVec 4), s.dev.isUp 25 = true → s.dev.flag F.GRP_CFG_ENABLE = true →
    let d := s.dev
    let own := d.gblRoll
    (d.gbl.rend = none →
      let g := (own.reach (own.gblNext own.me)).gblRoll
      (g.gblQuiet = false → Does (.beaconTransmit true) s g.gblBad ∧
        (g.gblReport = none →
          let h := g.emit (.gbl 0 (g.gblBytes 0 false g.gbl.prev 0 0))
          Does (.beaconTransmit false) s (h.reach (h.mono + h.gblFrame false)))) ∧
      (let x := own.gbl.wake.getD (targets.toNat, 1)
       let w := (own.reach (own.gblNext 5 + (x.2 - 1) * own.superframe)).gblRoll
       w.gblQuiet = false →
       (∀ r : Fin 4, Does (.wakeFrameSend targets true r) s (Dev.gblBad { w with gbl := { w.gbl with wake := some (x.1, r.val + 1) } })) ∧
       (let h := w.emit (.gbl 1 (w.gblBytes 1 false x.1 0 0))
        Does (.wakeFrameSend targets false 0) s (Dev.reach { h with gbl := { h.gbl with wake := none } } (h.mono + h.gblFrame false)))) ∧
      (d.gbl.lineAwake = none →
        let h := (d.reach (d.gbl.last + d.gblHold)).count .GRP_RENDEZVOUS_CNT
        Does .holdOverExpiry s { h with gbl := { h.gbl with rend := some h.mono } })) ∧
    (∀ t, d.gbl.rend = some t →
      let g := (d.reach (t + (1 + d.me) * d.superframe)).gblRoll
      let g := (g.reach (g.gblNext g.me)).gblRoll
      g.gblQuiet = false →
      let h := g.emit (.gbl 0 (g.gblBytes 0 true 0 0 0))
      let h := h.reach (g.mono + g.gblFrame true)
      Does .rendezvousWaitExpiry s { h with gbl := { h.gbl with rend := some h.mono } }) ∧
    Does (.beaconReceive b at_) s (d.gblHear 0 b at_ (bits (b.getD 0 0) 2 3) fun slot st d => d.gblBeacon b slot st) ∧
    Does (.announceReceive b at_) s (d.gblHear 2 b at_ 6 fun _ _ d => d) ∧
    Does (.wakeReceive b at_) s (d.gblHear 1 b at_ 5 fun _ _ d =>
      let src := bits (b.getD 0 0) 2 3
      if d.get F.PWR_STATE_STATE ≠ 1 ∧ d.get F.PWR_STATE_STATE ≠ 4 then d.raiseLocal 25 2 src
      else if inMask (b.getD 3 0 % 16) d.me then (d.defer 2 src 0).cocoonWake 0 else d) ∧
    (d.gbl.trim.isSome = true → Does .slotTrim s ((d.reach (d.gbl.base + d.superframe)).gblRoll)) ∧
    (d.gbl.silenced = none → 3 ≤ d.gbl.bad + b2n d.gbl.badNow →
      Does .slotSilenced s
        (Dev.fault { d with gbl := { d.gbl with silenced := some (d.gbl.base + 3 * d.superframe), starts := {} } } 13 8 25 d.me)) ∧
    Does .wakePulse s (d.cocoonWake 1) ∧
    (d.gbl.cocoon = true → d.gbl.lineAwake = none →
      Does .gblLineAwake s { d with gbl := { d.gbl with lineAwake := some (d.mono, d.mono) } })

/-! ### The management bus and Eyespot -/

/-- R505, R506, R573, R574: MCTP packets join into messages, and each control, vendor and SPDM message that waits is answered. -/
def Obligations.ManagementMessagesComplete : Prop :=
  ∀ (s : State) (b : List (BitVec 8)) (src : BitVec 8) (tag : Fin 8) (m : MctpMsg) (c : Fin 4), s.dev.isUp 24 = true →
    let d := s.dev
    let taken := d.setMgt fun x => { x with msgs := x.msgs.erase m }
    let waits (p : MctpMsg → Bool) : Prop := d.mgt.msgs.find? p = some m
    let bytes := b.map (·.toNat)
    let n := bytes.length
    (bytes.getD 0 0 = d.smbAddr * 2 → 2 ≤ n →
      (pecOf (bytes.take (n - 1)) = bytes.getD (n - 1) 0 → Does (.mctpPacket b) s (d.mctpPacket bytes)) ∧
      (pecOf (bytes.take (n - 1)) ≠ bytes.getD (n - 1) 0 → Does (.mctpPacket b) s (d.count .MGT_SMB_PEC_ERR))) ∧
    (∀ r, d.partial_ src.toNat tag.val = some r →
      Does (.reassemblyTimeout src tag) s ((d.reach (r.at_ + 100000000)).dropPart src.toNat tag.val).mctpDrop) ∧
    (waits (isCtl 1) → 5 ≤ m.bytes.length → m.byte 3 % 4 ≤ 1 → m.byte 4 ≠ 0 → m.byte 4 ≠ 255 →
      Does .setEndpointId s (((taken.put F.MGT_SMB_STATUS_EID 0 (m.byte 4)).put F.MGT_SMB_STATUS_EID_VALID 0 1).ctlReply m 0 [0, m.byte 4, 0])) ∧
    (waits (isCtl 2) → Does .getEndpointId s (taken.ctlReply m 0 [taken.get F.MGT_SMB_STATUS_EID, 0, 0])) ∧
    (waits (isCtl 3) → Does .getEndpointUuid s (taken.ctlReply m 0 (slice (Config.endpointUuid taken.serial) 0 16))) ∧
    (waits (isCtl 4) → m.byte 3 ∈ [0xFF, 0, 5, 6, 0x7E] →
      Does .getMctpVersionSupport s (taken.ctlReply m 0 (Config.mctpVersions (m.byte 3)))) ∧
    (waits (isCtl 5) → Does .getMessageTypeSupport s (taken.ctlReply m 0 [3, 5, 6, 0x7E])) ∧
    (waits (isCtl 6) → m.byte 3 = 0 → Does .getVendorDefinedMessageSupport s (taken.ctlReply m 0 [0xFF, 0, 0xB3, 0xDC, 0, 0])) ∧
    (waits (isVendor 1) → d.flag F.FUSE_STATUS_SECURE_HOLD = false →
      Does .identify s (taken.vendorReply m 0
        (toLe 2 0x4832 ++ [0xB1, taken.get F.GRP_STATUS_ID, taken.get F.PWR_STATE_STATE, taken.stewardState] ++ toLe 2 0xFFFF))) ∧
    (waits (isVendor 2) →
      Does .health s (taken.vendorReply m 0 (toLe 4 (taken.rd .FCOL_STATUS 0) ++ toLe 4 (taken.rd .FCOL_FPSW 0) ++ toLe 4 (taken.rd .GRP_STATUS 0)))) ∧
    (taken.stewardState = 1 →
      (waits (isVendor 3) → 1 ≤ m.byte 8 → m.byte 8 ≤ 8 →
        Does .logRead s (taken.vendorReply m 0 ((List.range (m.byte 8)).foldl (fun l i =>
          let q := leNat (slice m.bytes 6 2) + i
          l ++ taken.logBytes (if 0xFFFF < q then q - 0xFFFF else q)) []))) ∧
      (waits (isVendor 4) → m.byte 6 ≤ 31 →
        Does .moduleStatus s (taken.vendorReply m 0 (toLe 4 (taken.rd .MGT_MOD_STATUS (m.byte 6)) ++ toLe 8 (taken.rd .MGT_MOD_FLAGS (m.byte 6))))) ∧
      (waits (isVendor 5) → m.byte 6 ≤ 31 → 1 ≤ m.byte 10 → m.byte 10 ≤ 128 →
        Does .moduleRead s (taken.modRequest (m.byte 6)
          { by_ := .vendor m, op := .read (m.byte 6) (m.byte 7) (m.byte 8) (m.byte 9) (m.byte 10) })) ∧
      (waits (isVendor 6) → m.session ≠ none → m.byte 6 ≤ 31 → 1 ≤ m.byte 10 → m.byte 10 ≤ 8 →
        Does .moduleWrite s (taken.modRequest (m.byte 6)
          { by_ := .vendor m, op := .write (m.byte 6) (m.byte 7) (m.byte 8) (m.byte 9) (slice m.bytes 11 (m.byte 10)) })) ∧
      (waits (isVendor 7) → d.stmReady = none → ∀ ch (h : ch + 8 < 16), m.session = some ch → taken.mgt.stm.get (ch + 8) = none →
        Does .stewardCmd s ((taken.stmFree ⟨ch + 8, h⟩).setMgt fun x => { x with stm := x.stm.set (ch + 8) (some m) }))) ∧
    (∀ w q, d.stmReady = some (w, q) →
      Does .stewardCmd s (((d.vendorReply q 0 (d.win (.stm w)).stmBytes).stmFree w).setMgt fun x => { x with stm := x.stm.set w.val none })) ∧
    (d.stw.running = true →
      let spdm (code : Nat) : Prop := waits fun m => m.byte 0 == 5 && m.byte 2 == code && m.session.isNone
      let q := m.bytes.drop 1
      (spdm 0xE0 → Does (.getMeasurements .mctp) s (taken.reply m (5 :: taken.measures q))) ∧
      (taken.noSecrets = false →
        (spdm 0x82 → Does (.getCertificate .mctp) s (taken.reply m (5 :: taken.certPortion q))) ∧
        (spdm 0x83 → q.getD 2 0 = 0 →
          Does (.challenge .mctp) s (taken.reply m (5 :: ([0x12, 0x03, 0, 1] ++ Config.spdmRest 0x03 q taken.mono)))) ∧
        (spdm 0xE4 → ∀ ch, [4, 5, 6, 7].find? (fun c => !taken.stw.sessions.contains c) = some ch →
          Does (.keyExchange .mctp) s
            ((taken.bindSession ch m.src).reply m (5 :: ([0x12, 0x64, 0, 0] ++ toLe 2 ch ++ Config.spdmRest 0x64 q taken.mono)))))) ∧
    (c.val + 4 ∈ d.stw.sessions → d.mgt.msgs.find? (fun m => m.byte 0 == 5 && m.session == some (c.val + 4)) = none →
      let g : Dev := { d with stw := { d.stw with sessions := d.stw.sessions.erase (c.val + 4) } }
      Does (.spdmSessionEnd c) s
        (g.setMgt fun x => { x with eids := x.eids.set (c.val + 4) 0, stm := x.stm.set (c.val + 4 + 8) none,
                                    msgs := x.msgs.filter fun m => m.session != some (c.val + 4) }).showSessions)

/-- R509, R510, R512, R513, R515, R518, R519, R534: the I2C ports. A transaction leaves and is answered, a lost arbitration backs off, a bus that
hangs is timed out and recovered; modules are polled, read and written, and the rails commanded and read. -/
def Obligations.I2cCommandsComplete : Prop :=
  ∀ (s : State) (p : Fin 4) (a : I2cAnswer) (byte draw bank page off len : BitVec 8) (bit_ : Fin 8) (m : Fin 32) (r : Fin 4)
    (data : List (BitVec 8)), s.dev.isUp 24 = true →
    let d := s.dev
    (∀ q t, d.i2cQueue p.val = q :: t → d.flag F.MGT_I2C_STATUS_FAILED p.val = false →
      (q.wait = none → Does (.i2cTransaction p.castSucc a) s ((d.i2cEmit p.val q.op).i2cAnswered p.val q t a)) ∧
      (q.wait = none → q.lost < 8 →
        Does (.arbitrationLost p.castSucc byte bit_) s
          ((d.arbLog p.val byte.toNat bit_.val (q.lost + 1)).setI2c p.val
            ({ q with lost := q.lost + 1, wait := some (d.arbLog p.val byte.toNat bit_.val (q.lost + 1)).mono } :: t))) ∧
      (∀ w, q.wait = some w → Does (.arbBackoffExpiry p.castSucc draw) s
        ((d.reach (w + 50000 + draw.toNat * 1000)).setI2c p.val ({ q with wait := none } :: t))) ∧
      Does (.busTimeout p.castSucc true) s ((d.count .MGT_BUS_TMO p.val).i2cEnds p.val i2cBUS_TIMEOUT []) ∧
      Does (.busTimeout p.castSucc false) s ((d.count .MGT_BUS_TMO p.val).i2cEnds p.val i2cBUS_TIMEOUT [])) ∧
    (∀ b t, d.mgt.smb = b :: t → d.mgt.smbWait = none →
      Does (.i2cTransaction 4 a) s ((d.setMgt fun x => { x with smb := t, smbLost := 0 }).emit (.i2c 4 (b.getD 0 0 / 2) (b.drop 1)))) ∧
    (d.get F.MGT_I2C_CFG_ROLE p.val ≠ 0 →
      (d.flag F.MGT_I2C_STATUS_FAILED p.val = false →
        Does (.busRecovery p true) s (d.count .MGT_BUS_RECOVER p.val) ∧ Does (.busRecovery p false) s (d.portFails p.val)) ∧
      (d.flag F.MGT_I2C_STATUS_FAILED p.val = true →
        Does (.busRecovery p true) s
          (((d.reach (d.mgt.failAt.get p.val + 1000000000)).count .MGT_BUS_RECOVER p.val).put F.MGT_I2C_STATUS_FAILED p.val 0))) ∧
    (d.stw.running = true → d.flag F.MGT_MOD_MAP_VALID m.val = true → d.get F.MGT_I2C_CFG_ROLE (d.get F.MGT_MOD_MAP_PORT m.val) = 1 →
      let g := d.reach (d.mgt.polled.get m.val + d.get F.MGT_I2C_CFG_POLL_MS (d.get F.MGT_MOD_MAP_PORT m.val) * 1000000)
      Does (.modulePoll m) s
        ((g.setMgt fun x => { x with polled := x.polled.set m.val g.mono }).modRequest m.val { by_ := .poll, op := .poll m.val })) ∧
    (d.halted = false → (d.win .tw).st = 0 → 1 ≤ len.toNat →
      (len.toNat ≤ 128 → Does (.modRead m bank page off len) s
        ((d.winBusy .tw).modRequest m.val { by_ := .window, op := .read m.val bank.toNat page.toNat off.toNat len.toNat })) ∧
      (len.toNat ≤ 8 → Does (.modWrite m bank page off len data) s
        ((d.winBusy .tw).modRequest m.val
          { by_ := .window, op := .write m.val bank.toNat page.toNat off.toNat (slice (data.map (·.toNat)) 0 len.toNat) }))) ∧
    (∀ mv, d.mgt.want.get r.val = some mv →
      let g := d.reach (d.mgt.sentAt.get r.val + 1000000)
      Does (.voutCommand r) s
        ((g.setMgt fun x => { x with want := x.want.set r.val none, sentAt := x.sentAt.set r.val g.mono }).railRequest r.val
          { by_ := .rail, op := .vout r.val (min 900 (max 650 mv)) })) ∧
    (d.stw.running = true → d.flag F.MGT_AVS_RAIL_VALID r.val = true →
      let g := d.reach (d.mgt.readAt.get r.val + 10000000)
      Does (.avsTelemetry r) s
        ((g.setMgt fun x => { x with readAt := x.readAt.set r.val g.mono }).railRequest r.val { by_ := .rail, op := .telemetry r.val })) ∧
    (d.stw.running = true → (d.lowerCaps r.val).flag F.PWR_AVS_STATUS_USABLE r.val = false →
      Does (.avsTargetUpdate r) s ((d.lowerCaps r.val).raiseCaps r.val)) ∧
    (d.stw.running = true →
      let e := d.lowerCaps r.val
      let raw := e.railRaw r.val
      let target := min 900 (max 650 raw)
      let f := (if raw = target then e else e.fault 6 6 24 r.val).put F.PWR_AVS_STATUS_TARGET_MV r.val target
      let now := f.get F.PWR_AVS_STATUS_CONFIRMED_MV r.val
      e.flag F.PWR_AVS_STATUS_USABLE r.val = true →
      (target = now → avsStep now target = now → Does (.avsTargetUpdate r) s (f.raiseCaps r.val)) ∧
      (target < now → avsStep now target ≠ now → Does (.avsTargetUpdate r) s
        ((f.setMgt fun x => { x with want := x.want.set r.val (some (avsStep now target)) }).raiseCaps r.val)) ∧
      (now < target → avsStep now target ≠ now → f.mgt.railBad.get r.val = false → Does (.avsTargetUpdate r) s
        (f.setMgt fun x => { x with want := x.want.set r.val (some (avsStep now target)) })))

/-- R603, R605, R608, R609: Eyespot. A sample of the running channel is taken, one that stays out fails its channel, a single conversion is queued,
and the throttle's caps follow its conditions. -/
def Obligations.EyespotCommandsComplete : Prop :=
  ∀ (s : State) (v : Int) (ch : BitVec 5) (gain chop : BitVec 1) (osr : BitVec 3) (count : BitVec 4), s.dev.isUp 24 = true →
    let d := s.dev
    ((d.eye.runs = false ∨ d.eye.single = none) →
      let g := d.reach (d.eye.last + samplePeriod d.eye.cfg)
      Does (.sample v) s ((g.setEye fun e => { e with last := g.mono }).scanSample v)) ∧
    (∀ q, d.eye.runs = true → d.eye.single = some q →
      let g := d.reach (d.eye.last + samplePeriod (q.osr * 2))
      Does (.sample v) s ((g.setEye fun e => { e with last := g.mono }).singleSample q v)) ∧
    (d.eye.runs = false →
      let g := d.reach (d.eye.last + 10 * samplePeriod d.eye.cfg)
      g.get F.EYE_COND_COND g.eye.ch ≠ failedCond g.eye.ch →
      Does .sampleTimeout s (g.eyeFails g.eye.ch (g.get F.EYE_LAST_VALUE g.eye.ch))) ∧
    (d.halted = false → (d.win .sw).st = 0 → ch.toNat ≤ 23 → osr.toNat ≤ 4 → count.toNat ≠ 0 → (ch.toNat < 16 → gain.toNat = 0) →
      Does (.singleConversion ch gain osr chop count) s
        (let q : Single := { ch := ch.toNat, gain := gain.toNat, osr := osr.toNat, chop := chop.toNat, count := count.toNat }
         (d.winBusy .sw).setEye fun e => { e with single := some q })) ∧
    (d.stw.running = true →
      let m := d.throttleMask
      let mhz := d.get F.EYE_THROT_THROTTLE_MHZ
      let was := d.eye.capped
      let g := (List.range 4).foldl (fun d r => d.lowerCaps r) (d.setEye fun e => { e with capped := m, mhz := mhz })
      let h := (List.range 4).foldl (fun d r =>
        if bit m (4 * r) then
          (if d.get F.PWR_AVS_STATUS_TARGET_MV r ≤ d.get F.PWR_AVS_STATUS_CONFIRMED_MV r then d.raiseCaps r else d)
        else if bit was (4 * r) then d.releaseRail r else d) g
      (m = was → (m = 0 ∨ mhz = d.eye.mhz) → Does .throttleApply s h) ∧
      (m ≠ was → Does .throttleApply s (h.raiseLocal 24 9 m mhz)))

/-! ### Power, clocks, time and start-up -/

/-- R62, R162, R522 to R527, R529, R531, R542, R550, R551, R620: COCOON is requested, entered and left; the supplies, islands and resets; parked pods wake, and lost clocks
are reported. -/
def Obligations.PowerEventsComplete : Prop :=
  ∀ (s : State) (hist : List (Nat × List Nat)) (straps : BitVec 6) (v : BitVec 32) (n : Fin 26),
    let d := s.dev
    let st := d.get F.PWR_STATE_STATE
    (d.live 25 → st = 3 → d.stw.start.warm = none → d.stw.start.ledgers = none → d.flag F.PWR_STATE_XTAL_32K_OK = true →
      let e := d.cocoonState 4
      let e : Dev := { e with stw := { e.stw with moults := [], due := {} } }
      let busy := (List.range 16).filter fun m => (e.win (.stm (Fin.ofNat 16 m))).st == 1
      Does .cocoonReq s (Dev.warmLedgers (busy.foldl (fun d m => d.winDone (.stm (Fin.ofNat 16 m)) [(0x200, 9 + 4 * 256)]) e))) ∧
    (st = 4 → d.stw.start.ledgers = none → Does (.cocoonEntry hist) s (d.cocoonEnter hist)) ∧
    (∀ src : Fin 3, bit (d.rd .PWR_WAKE_CFG 0) src.val = true → d.pwr.latched = 0 →
      (st = 4 → Does (.cocoonWake src.castSucc) s { d with pwr := { d.pwr with latched := 2 ^ src.val } }) ∧
      (st = 1 → d.pwr.rail = false → Does (.cocoonWake src.castSucc) s (d.wakeUp (2 ^ src.val)))) ∧
    (st = 1 → d.pwr.rail = false → d.pwr.latched ≠ 0 → Does .latchedWake s ((d.reach (d.pwr.railAt + 100000000)).wakeUp d.pwr.latched)) ∧
    (d.pwr.off = false → d.pwr.good = false → d.pwr.rail = true → d.pwr.por = false →
      Does .pwrGoodAssert s { d with pwr := { d.pwr with good := true, pg := none, hold := some (d.mono + 2000000) } }) ∧
    (∀ t, d.pwr.pg = some t →
      let e := (d.reach t).railEn false
      Does .pwrGoodTimeout s (Dev.fault { e with pwr := { e.pwr with pg := none, latched := 0 } } 6 1 25 0xFFFF)) ∧
    (∀ t, d.pwr.hold = some t →
      let e : Dev := { d.reach t with pwr := { (d.reach t).pwr with hold := none } }
      (e.get F.PWR_STATE_STATE = 1 → Does (.islandRelease straps) s e.cocoonExit) ∧
      (e.get F.PWR_STATE_STATE ≠ 1 → e.pwr.relatch = true →
        let f := e.latchStraps straps.toNat
        Does (.islandRelease straps) s (Dev.refEvent { f with pwr := { f.pwr with relatch := false } } 0 true))) ∧
    (st ≠ 1 → d.pwr.good = true →
      let e := d.railsOn
      Does .pwrGoodFall s { e with sys := { e.sys with islReset := 2 ^ 25 - 1 }, pwr := { e.pwr with por := d.pwr.por, good := false, relatch := true } }) ∧
    (d.pwr.off = false → Does .porAssert s d.railsOn) ∧
    (d.pwr.por = true → d.pwr.off = false → d.pwr.good = true →
      let e : Dev := { d with pwr := { d.pwr with por := false, relatch := false }, sys := { d.sys with islReset := 2 ^ 25 - 1 } }
      Does (.porDeassert straps) s ((e.latchStraps straps.toNat).refEvent 0 true)) ∧
    (let e := d.coldReset
     let clear (x : FuseCopy) : FuseCopy := { blown := x.blown }
     let fuses := e.stw.fuses.mapListed fun _ (x : FuseWord) => { x with a := clear x.a, b := clear x.b }
     Does .aonPowerLoss s { e with net := {}, pwr := { por := true, off := true, rail := false, good := false },
                                   stw := { e.stw with fuses := fuses, health := false } }) ∧
    (d.isUp n.val = false → n.val ≠ 25 → 16 ≤ n.val → n.val ≠ 20 → n.val ≠ 24 → d.stw.start.warm = none → d.pwr.por = false →
      d.pwr.off = false → d.pwr.hold = none → st ≠ 1 → Does (.islandResetEnd n) s (d.setIsland n.val true)) ∧
    (d.isUp 25 = true →
      (v.toNat / 2 ^ 16 = 0x5752 → bit v.toNat 0 = true →
        Does (.warmReset false v) s (d.warmRequest 2) ∧ Does (.warmReset true v) s (d.warmRequest 3)) ∧
      (d.flag F.PWR_PARK_CFG_AUTO_WAKE = true → d.podsLoaded = true → ∀ p,
        (List.range 16).find? (fun p => d.isUp p && (d.get F.POD_PARK_CTL_STATE p == 1 || d.get F.POD_PARK_CTL_STATE p == 2)) = some p →
        d.pwr.wakeAt = 0 → Does .parkAutoWake s (Dev.parkRelease { d with pwr := { d.pwr with wakeAt := d.mono } } p)) ∧
      Does (.clockLoss 0) s (d.fault 11 3 25) ∧
      Does (.clockLoss 1) s ((d.put F.PWR_STATE_XTAL_32K_OK 0 0).fault 11 4 25) ∧
      (d.isUp 16 = true → Does (.clockLoss 2) s ((d.fault 11 1 25 0).netClockLost 0)) ∧
      (d.isUp 18 = true → Does (.clockLoss 3) s ((d.fault 11 1 25 1).netClockLost 1)) ∧
      (∀ h : Fin 2, d.isUp 20 = true → d.hpState h.val ≠ 0 →
        let e := d.fault 11 2 25 h.val
        Does (.clockLoss ⟨h.val + 4, by omega⟩) s
          (if e.get F.HOST_PORT_CFG_CLK_MODE h.val ≠ 2 ∧ e.hpState h.val = 2 then e.detach h.val else e)) ∧
      (d.isUp 21 = true → Does (.clockLoss 6) s (d.fault 11 5 25)) ∧
      Does .xtal32kRecover s (d.put F.PWR_STATE_XTAL_32K_OK 0 1)) ∧
    (∀ t, d.stw.start.warm = some t → Does .warmRelease s ((d.reach t).refEvent d.stw.start.cause false)) ∧
    (∀ t, d.stw.start.ledgers = some t →
      ((List.range 4).any d.warmUnwritten = false → Does .warmLedgerTimeout s d.ledgersOver) ∧
      ((List.range 4).any d.warmUnwritten = true → Does .warmLedgerTimeout s ((d.reach t).markUnwritten).ledgersOver)) ∧
    (∀ p : Fin 16, d.isUp p.val = true → d.get F.POD_PARK_CTL_STATE p.val = 3 → d.flag F.POD_PARK_CTL_PARK_REQ p.val = true → d.podsDue = false →
      Does (.podRun p) s (d.put F.POD_PARK_CTL_STATE p.val 1))

/-- R538, R539, R540: the DTB is stepped, adjusted, locked and steered. -/
def Obligations.TimeCommandsComplete : Prop :=
  ∀ (s : State) (v : BitVec 64) (a : BitVec 32), s.dev.live 25 →
    let d := s.dev
    (v ≠ 0 →
      let e := (d.reach (d.mono + 2000)).dtbStep v.toNat
      Does (.timeStep v) s e ∧ e.mono = d.mono + 2000 ∧ e.now = d.mono + 2000 + d.sys.steps + v.toNat) ∧
    (Rng.ok (.signed 500000000) 32 a.toNat = true →
      let e := d.writeFields .TIME_ADJ 0 a.toNat 15 []
      let e := e.put F.TIME_CTL_STEER_EN 0 0
      Does (.timeAdjWrite a) s { e with pwr := { e.pwr with adjAt := e.mono } }) ∧
    (d.flag F.TIME_CTL_LOCKED = true →
      Does .lockTimeout s (((d.reach (d.pwr.adjAt + d.get F.TIME_CTL_LOCK_TMO_S * 1000000000)).unlock).raiseLocal 25 17 0)) ∧
    (d.flag F.TIME_CTL_LOCKED = false → d.flag F.TIME_CTL_STEER_EN = true → d.get F.GRP_STATUS_STATE = 3 →
      d.get F.GRP_STATUS_LEADER ≠ d.me → d.pwr.steerAt = 0 →
      let o := max (-500000) (min 500000 (-(signed 64 (d.rd .GRP_TIME_OFFSET 0)) * 10))
      Does .timeSteer s (Dev.wr { d with pwr := { d.pwr with steerAt := d.mono } } .TIME_ADJ 0 (unsigned 32 o)))

/-- R347, R544 to R548, R581, R582: the steps of start-up, each from the step before it, and the Chrysalis path while they run. -/
def Obligations.StartUpStepsComplete : Prop :=
  ∀ (s : State) (reports : Bool) (n : Fin 4) (v : BitVec 32) (ports : List (BitVec 64)) (st : BitVec 48)
    (settings : List (Reg × Nat × BitVec 64)) (descs : List (Fin 1024 × BitVec 64 × BitVec 64)), s.dev.isUp 24 = true →
    let d := s.dev
    let b := d.stw.flash.boot
    let at_ (k : Nat) : Prop := d.stw.running = true ∧ d.stw.start.step = k ∧ d.halted = false
    (d.stw.start.step = 1 → d.get F.RST_START_PHASE = 1 → d.get F.RST_STRAPS_BOOTMODE < 3 → b.trial = false →
      Does (.bootSelect reports) s ((d.showBoot.setStart fun x => { x with first := b.active }).bootNext reports [b.active, 1 - b.active])) ∧
    (d.stw.start.step = 1 → d.get F.RST_START_PHASE = 1 → d.get F.RST_STRAPS_BOOTMODE < 3 → b.trial = true → b.tries ≠ 0 →
      Does (.bootSelect reports) s
        (((d.setBoot { b with tries := b.tries - 1 }).showBoot.setStart fun x => { x with first := 1 - b.active }).bootNext reports
          [1 - b.active, b.active])) ∧
    (d.stw.start.step = 1 → d.get F.RST_START_PHASE = 1 → d.get F.RST_STRAPS_BOOTMODE < 3 → b.trial = true → b.tries = 0 →
      Does (.bootSelect reports) s
        (((((d.setBoot { b with trial := false }).put F.STM_FW_STATUS_FALLBACK 0 1).showBoot).setStart fun x => { x with first := b.active }).bootNext
          reports [b.active, 1 - b.active])) ∧
    (d.stw.start.step = 1 → d.get F.RST_START_PHASE = 1 → 3 ≤ d.get F.RST_STRAPS_BOOTMODE → Does (.bootSelect reports) s d.recovery) ∧
    (∀ t, d.stw.start.wdog = some t → Does (.bootWatchdog reports) s ((d.reach t).slotFails reports)) ∧
    (at_ 2 →
      let e := d.readConfig
      let e := if e.bootMode = 2 then e else settings.foldl (fun d x => d.regWrite .steward x.1 x.2.1 x.2.2.toNat 0xFF []) e
      let l := match e.setting 2 2 with
        | some v => (List.range 4).map fun k => leNat (slice v (2 * k) 2)
        | none => []
      Does (.configApply settings) s
        (Dev.stepDone (Dev.railsStart (Dev.setLocks (Dev.loadAllots (Dev.checkAdmission (Dev.applySplit
          { e with hst := { e.hst with allot := l } }))))) 3)) ∧
    (at_ 3 → Does .microcodeLoad s (if (d.section? 2).isSome = true then d.stepDone 4 else d.slotFails true)) ∧
    (at_ 4 → Does .portRelease s
      ((((List.range 2).foldl (fun d h => d.setHport h { d.hport h with released := true }) d).stepDone 5).milestone 2)) ∧
    (at_ 5 →
      let e := (Dev.stepDone { d with stw := { d.stw with chry := d.chryTable } } 7).put F.RST_START_PHASE 0 3
      Does .chrysalisStart s
        (if (d.section? 4).isSome = false then d.slotFails true
         else if d.chryTable.lanes = [] then e
         else (((List.range 4).foldl (fun d n => d.chryGroup n) e).put F.RST_CHRY_STATUS_ACTIVE 0 1).milestone 3)) ∧
    (at_ 7 → d.get F.FCOL_PC_RETIRED_PCS ≠ 2 ^ 64 - 1 →
      Does (.hbmTraining 0) s (if (d.section? 3).isSome = true then (d.stepDone 8).milestone 4 else d.slotFails true)) ∧
    (at_ 7 → ∀ pc : Fin 64, d.get F.FCOL_PC_RETIRED_PCS ≠ 2 ^ 64 - 1 →
      let e := (d.retirePc pc.val []).fault 2 0x0B 21 pc.val
      e.get F.FCOL_PC_RETIRED_PCS ≠ 2 ^ 64 - 1 →
      Does (.hbmTraining (BitVec.ofNat 64 (2 ^ pc.val))) s (if (d.section? 3).isSome = true then (e.stepDone 8).milestone 4 else d.slotFails true)) ∧
    (at_ 8 →
      let pods (d : Dev) : Dev :=
        (List.range 16).foldl (fun (d : Dev) p => if d.isUp p && d.get F.POD_PARK_CTL_STATE p != 2 then d.loadPod p else d) d
      let f := (pods d.loadImages.loadBindings).loadDescs (descs.map fun x => (x.1.val, x.2.1.toNat, x.2.2.toNat))
      Does (.podLoad descs) s
        (if (d.section? 5).isSome = false then d.slotFails true
         else if d.bootMode = 2 then ((pods d).stepDone 9).milestone 5
         else ((if f.groupRecord = [] then f else f.grpSettings f.groupRecord).stepDone 9).milestone 5)) ∧
    (at_ 9 → Does .serviceSwitch s ((((d.put F.RST_CHRY_STATUS_ACTIVE 0 0).put F.RST_START_PHASE 0 4).stepDone 10).milestone 6)) ∧
    (at_ 10 →
      (d.groupDue n.val = true →
        let keep (p : Option ChryPort) : Option ChryPort :=
          match p with | some c => if c.lane / 8 = n.val then none else some c | none => none
        let e : Dev := { d with stw := { d.stw with chry := { d.stw.chry with ports := d.stw.chry.ports.map keep } } }
        let f := if e.bootMode = 2 then e
          else (List.range 8).foldl (fun (d : Dev) i => match ports[i]? with
            | some w => d.portCfgWrite (8 * n.val + i) w.toNat 0xFF []
            | none => d) (e.groupCfgWrite n.val v.toNat 15)
        Does (.retrainGroup n v ports) s (f.setStart fun x => { x with group := n.val, retrain := some (f.mono + 310000000) })) ∧
      (∀ t, d.stw.start.retrain = some t →
        Does .retrainTimeout s ((d.reach t).setStart fun x => { x with group := x.group + 1, retrain := none })) ∧
      (d.groupDue 4 = true →
        let e := (d.setStart fun x => { x with group := 4, retrain := none }).stepDone 12
        let e : Dev := { e with stw := { e.stw with runAt := some e.mono } }
        Does .runEntry s (((e.put F.RST_START_PHASE 0 5).powerState 3).milestone 7))) ∧
    (∀ x p out, d.isUp 21 = true → d.isUp 22 = true → d.item st.toNat = some x → x.chry = true → x.pst = .loading → x.disp = none →
      d.halted = false → d.stw.chry.forward x.data = some (p, out) → d.portUp p.lane = true →
      let k : Copy := { dest := chryQueue p.lane, dtype := 0, len := out.length }
      Does (.chrysalisForward st) s
        (((d.setItem st.toNat { x with data := out, committed := true, pst := .complete, copies := [k] }).count .RST_CHRY_FWD).releaseKey
          x.tok.okey))

/-! ### Whole-machine rules -/

/-- R88: a DONE window is released by RESULT_ACK with the SEQ it consumed, and its result and SEQ stay; any other RESULT_ACK is ignored
with cause ACK_MISMATCH; and a command written while STATE is BUSY or DONE is ignored with cause WINDOW_HELD, whichever window it is
written to. TAW_CMD and TAW_ARG hold the fields that the write leaves in them (R190). -/
def Obligations.ResultWindowsAreReleased : Prop :=
  ∀ (s : State),
    let d := s.dev
    (∀ (w : WinId) (a : BitVec 16), d.isUp w.island = true → d.halted = false →
      ((d.win w).st = 2 → (d.win w).seq = a.toNat →
        Does (.resultAck w a) s (d.setWin w { d.win w with st := 0 }) ∧
        ((d.setWin w { d.win w with st := 0 }).win w).res = (d.win w).res ∧ ((d.setWin w { d.win w with st := 0 }).win w).seq = (d.win w).seq) ∧
      (((d.win w).st ≠ 2 ∨ (d.win w).seq ≠ a.toNat) → Does (.resultAck w a) s (d.winIgnored w 8 cACK_MISMATCH))) ∧
    (let held (w : WinId) (c : Instr) : Prop :=
       d.isUp w.island = true → d.halted = false → (d.win w).st ≠ 0 → Does c s (d.winIgnored w 0x10 cWINDOW_HELD)
     let heldT (w : Fin 5) (x : WCmd) (c : Instr) : Prop :=
       d.isUp 22 = true → d.halted = false → (d.win (.taw w)).st ≠ 0 → Does c s ((d.tawStore w x).winIgnored (.taw w) 0x10 cWINDOW_HELD)
     (∀ (p : Fin 4) f cold sh hold, held (.iw p) (.create p f cold sh) ∧ held (.iw p) (.enable p f) ∧ held (.iw p) (.reset p f hold) ∧
       held (.iw p) (.remove p f)) ∧
     (∀ (p : Fin 4) f b0 b1 base lg kek addr size img, held (.mw p) (.dirtyStart p f b0 b1 base lg) ∧ held (.mw p) (.dirtySwap p f) ∧
       held (.mw p) (.dirtyStop p f) ∧ held (.mw p) (.freezeQuiesce p f kek) ∧ held (.mw p) (.freezeInPlace p f kek) ∧
       held (.mw p) (.thaw p f) ∧ held (.mw p) (.save p f addr size) ∧ held (.mw p) (.migrationRestore p f kek size img)) ∧
     (∀ (w : Fin 5) sa img ue slot kek wrap, held (.cw w) (.saCreate w sa img ue) ∧ held (.cw w) (.saDestroy w sa ue) ∧
       held (.cw w) (.saRead w sa ue) ∧ held (.cw w) (.keyLoadWrapped w slot kek wrap ue) ∧ held (.cw w) (.keyZero w slot ue) ∧
       held (.cw w) (.keyInfo w slot ue)) ∧
     (∀ off len data, held .gw (.groupCommit off len data) ∧ held .gw .groupLeave ∧ held .gw .groupRejoin) ∧
     (∀ (n : Fin 4) lane eye h v dwell, held (.eye n) (.eyeScan n lane eye h v dwell)) ∧
     (∀ ch gain osr chop count, held .sw (.singleConversion ch gain osr chop count)) ∧
     (∀ m bank page off (len : BitVec 8) data, 1 ≤ len.toNat →
       (len.toNat ≤ 128 → held .tw (.modRead m bank page off len)) ∧ (len.toNat ≤ 8 → held .tw (.modWrite m bank page off len data))) ∧
     (∀ src word data miss t, d.pwReach src = true → held .pw (.program src word data miss) ∧ held .pw (.lcAdvance src miss) ∧
       held .pw (.rollbackAdvance src t miss)) ∧
     (∀ m tmo off len data id slot inst map l item v slotOff fq miss adv, d.carried m = true →
       held (.stm m) (.imageLoad m tmo off len data) ∧ held (.stm m) (.imageDrop m tmo id) ∧ held (.stm m) (.slotBind m tmo id slot inst off map) ∧
       held (.stm m) (.slotUnbind m tmo slot) ∧ held (.stm m) (.moultSet m tmo l) ∧ held (.stm m) (.cfgSet m tmo item v) ∧
       held (.stm m) (.cfgGet m tmo item) ∧ held (.stm m) (.fwInfo m tmo) ∧ held (.stm m) (.fwWrite m tmo off len slotOff data fq) ∧
       held (.stm m) (.fwFinish m tmo fq) ∧ held (.stm m) (.fwCommit m tmo adv miss fq) ∧ held (.stm m) (.fwAbort m tmo) ∧
       held (.stm m) (.chryWrite m tmo off len data fq) ∧ held (.stm m) (.flashInfo m tmo)) ∧
     (∀ (m : Fin 16) tmo slot owner key kslot kowner exp klen off len islot inst data, d.carried m = true →
       held (.stm m) (.keyLoad m tmo slot owner key) ∧ held (.stm m) (.kekLoad m tmo kslot kowner exp klen key) ∧
       held (.stm m) (.inject m tmo off len islot inst data)) ∧
     (∀ (w : Fin 5) (n : Fin 1024) plen prio arg rst clr (h img cap : BitVec 64) (age learn : BitVec 32),
       heldT w { opc := 1, n := n.val, plen := plen, prio := prio, arg := arg } (.insert w n plen prio arg) ∧
       heldT w { opc := 2, n := n.val, rst := rst, plen := plen, prio := prio, arg := arg } (.modify w n rst plen prio arg) ∧
       heldT w { opc := 3, n := n.val, plen := plen, prio := prio, arg := arg } (.delete w n plen prio arg) ∧
       heldT w { opc := 4, n := n.val, plen := plen, prio := prio, arg := arg } (.read w n plen prio arg) ∧
       heldT w { opc := 5, n := n.val, arg := toLe 8 h.toNat } (.readHandle w n h) ∧
       heldT w { opc := 6, n := n.val, rst := rst, arg := arg } (.modifyHandle w n rst arg) ∧
       heldT w { opc := 7, n := n.val, arg := toLe 8 h.toNat } (.deleteHandle w n h) ∧
       heldT w { opc := 8, n := n.val, clr := clr, arg := toLe 8 h.toNat } (.cntRead w n clr h) ∧
       heldT w { opc := 12, n := n.val, arg := arg } (.lookup w n arg) ∧
       heldT w { opc := 9, n := n.val, arg := toLe 8 img.toNat ++ toLe 8 cap.toNat } (.descCreate w n img cap) ∧
       heldT w { opc := 10, n := n.val } (.descDestroy w n) ∧
       heldT w { opc := 11, n := n.val, arg := toLe 4 age.toNat ++ toLe 4 learn.toNat } (.descParam w n age learn)))

/-- R471: acknowledging a log entry by its SEQ sets its ACKED and changes no other entry and not FPSW; a SEQ that no unacknowledged entry
holds is ignored with cause ACK_MISMATCH. -/
def Obligations.FaultAcknowledgementSetsAcked : Prop :=
  ∀ (s : State) (seq : BitVec 16), s.dev.isUp 25 = true →
    let d := s.dev
    let found := d.fc.log.cells.find? fun c => match c.2 with | some e => !e.acked && e.seq == seq.toNat | none => false
    (∀ slot e, found = some (slot, some e) → ∃ f, Does (.faultAck seq) s f ∧ f.fc.log.get slot = some { e with acked := true } ∧
      (∀ j, j ≠ slot → f.fc.log.get j = d.fc.log.get j) ∧ f.rd .FCOL_FPSW 0 = d.rd .FCOL_FPSW 0) ∧
    (found = none → Does (.faultAck seq) s (d.ignored .FCOL_ACK 0 cACK_MISMATCH))

/-- R120: a fetch at a CODE offset at or beyond CODE_SIZE raises BRANCH at that offset, whatever the instruction. -/
def Obligations.FetchBeyondCodeRaisesBranch : Prop :=
  ∀ (s : State) (c : Instr) (th : Fin 2048) (g : Guard) (len : Nat), c.issuer = some (th, g, len) → s.dev.canIssue th.val = true →
    (s.dev.th th.val).code ≤ (s.dev.th th.val).pc → Does c s (s.dev.trap th.val kBRANCH (s.dev.th th.val).pc len)

/-- R116: an instruction whose guard is false moves the program counter past itself and changes nothing else, or raises ILLEGAL where its
form is illegal (R118); GP 0 with GN 1 is always false; and a thread that may not issue does nothing at all. -/
def Obligations.GuardedOffInstructionsOnlyAdvance : Prop :=
  ∀ (s : State) (c : Instr) (th : Fin 2048) (g : Guard) (len : Nat), c.issuer = some (th, g, len) →
    let d := s.dev
    (d.canIssue th.val = true → (d.th th.val).pc < (d.th th.val).code → g.holds (d.th th.val) = false →
      LeavesThread c s th (d.past th len) ∨ Does c s (d.trap th.val kILLEGAL (d.th th.val).pc len)) ∧
    (d.canIssue th.val = false → Does c s d) ∧
    (g.p.val = 0 → g.neg = true → g.holds (d.th th.val) = false)

/-- Every command answers a next state: it changes the device and the window commands held for RUN, and the queue is not its concern. So
every step answers a next state, and with nothing waiting and nothing held one edge of the AON clock passes (the model's own choice,
notes/assumptions/5.md). -/
def Obligations.EveryStepAnswers : Prop :=
  (∀ (c : Instr) (s : State), ∃ d l, exec c s = .next { dev := d, pending := s.pending, deferred := l }) ∧
  (∀ s : State, Safe s) ∧
  (∀ s : State, s.pending = [] → s.deferred = [] → step s = .next { s with dev := s.dev.tick })

/-- R86 and chapter 25, "When a window or mailbox command arrives before RUN", as an invariant of every step: a window holds at most one
command for RUN, and that command is one of its own. -/
def Obligations.WindowsHoldOneCommandEach : Prop :=
  ∀ (s t : State), s.heldOk → step s = .next t → t.heldOk

/-- The state after reset holds no window command, so it meets the invariant; its queue is empty, every register reads its reset value,
every counter 0, every window is IDLE with SEQ 0 and the fuse sense has begun (R542, R543, Table 03-7, R85, R86). Where the manual states no
reset value, the value is the model's (notes/assumptions/100.md). -/
def Obligations.ResetStateIsAsStated : Prop :=
  let s := State.reset
  s.heldOk ∧ s.pending = [] ∧ (∀ (r : Reg) (i : Nat), s.dev.rd r i = r.reset i) ∧ (∀ (c : Ctr) (i : Nat), s.dev.cnt c i = 0) ∧
  (∀ w : WinId, (s.dev.win w).st = 0 ∧ (s.dev.win w).seq = 0) ∧ s.dev.stw.start.sensing = true ∧ s.dev.stw.start.step = 0 ∧
  (∀ n, s.dev.isUp n = true) ∧ s.dev.halted = false ∧ s.dev.get F.RST_START_PHASE = 0 ∧
  (∀ m, s.dev.get F.MBX_TX_CFG_TMO_MS m = 100) ∧ s.dev.get F.GRP_STATUS_STATE = 0

/-- R77, R78: an increment past the largest value wraps a WRAP64 counter modulo 2^64 and stops a saturating one at its maximum, which sets
SAT and raises the counter's event; a counter that software has left below its maximum raises it again. -/
def Obligations.CountersSaturateOrWrap : Prop :=
  ∀ (d : Dev) (c : Ctr) (i n : Nat),
    ((c.cls = .sat16 ∨ c.cls = .sat32) → d.cnt c i ≤ c.cls.max → (d.count c i n).cnt c i = min c.cls.max (d.cnt c i + n)) ∧
    (c.cls = .wrap64 → (d.count c i n).cnt c i = (d.cnt c i + n) % 2 ^ 64) ∧
    ((c.cls = .sat16 ∨ c.cls = .sat32) → ∀ v, v < c.cls.max → c.cls.max ≤ v + n →
      (d.setCnt c i v).count c i n = (((d.setCnt c i v).setCnt c i c.cls.max).put F.BLK_STATUS_SAT (c.place.header i) 1).counterEvent c i) ∧
    (∀ (c' : Ctr) (j : Nat), (c' ≠ c ∨ j ≠ i) → (d.count c i n).cnt c' j = d.cnt c' j)
end

