-- ==== Sys2Proof/Laws/Exec.lean ====
section
/-!
SUPPORT. One lemma per command: `exec` calls the command's meaning. A proof about a command cites its lemma and never unfolds `exec`.
-/
namespace Sys2Proof.Laws
open Sys2Proof.Machine

@[simp] theorem exec_registerWrite {q t v be hw s} : exec (.registerWrite q t v be hw) s = execRegisterWrite q t v be hw s := rfl
@[simp] theorem exec_rcRead {q pod j s} : exec (.rcRead q pod j) s = execRcRead q pod j s := rfl
@[simp] theorem exec_halfReadLow {q t s} : exec (.halfReadLow q t) s = execHalfReadLow q t s := rfl
@[simp] theorem exec_halfReadHigh {q t s} : exec (.halfReadHigh q t) s = execHalfReadHigh q t s := rfl
@[simp] theorem exec_halfWriteLow {q t v s} : exec (.halfWriteLow q t v) s = execHalfWriteLow q t v s := rfl
@[simp] theorem exec_halfWriteHigh {q t v s} : exec (.halfWriteHigh q t v) s = execHalfWriteHigh q t v s := rfl
@[simp] theorem exec_resultAck {w ack s} : exec (.resultAck w ack) s = execResultAck w ack s := rfl
@[simp] theorem exec_reservedAccess {f isWrite s} : exec (.reservedAccess f isWrite) s = execReservedAccess f isWrite s := rfl
@[simp] theorem exec_epochSwitchRequest {q s} : exec (.epochSwitchRequest q) s = execEpochSwitchRequest q s := rfl
@[simp] theorem exec_epochPeriodExpiry {s} : exec .epochPeriodExpiry s = execEpochPeriodExpiry s := rfl
@[simp] theorem exec_epochSwitchInstant {s} : exec .epochSwitchInstant s = execEpochSwitchInstant s := rfl
@[simp] theorem exec_epochClose {s} : exec .epochClose s = execEpochClose s := rfl
@[simp] theorem exec_counterUpdate {c ix n issued s} : exec (.counterUpdate c ix n issued) s = execCounterUpdate c ix n issued s := rfl
@[simp] theorem exec_reqToIslandInReset {th tk s} : exec (.reqToIslandInReset th tk) s = execReqToIslandInReset th tk s := rfl
@[simp] theorem exec_discardToIslandInReset {a s} : exec (.discardToIslandInReset a) s = execDiscardToIslandInReset a s := rfl
@[simp] theorem exec_sequenceGap {src dst cls s} : exec (.sequenceGap src dst cls) s = execSequenceGap src dst cls s := rfl
@[simp] theorem exec_routerDeclaredFailed {r lost s} : exec (.routerDeclaredFailed r lost) s = execRouterDeclaredFailed r lost s := rfl
@[simp] theorem exec_rerouteHoldExpiry {r s} : exec (.rerouteHoldExpiry r) s = execRerouteHoldExpiry r s := rfl
@[simp] theorem exec_pseudoChannelRetire {pc copies entries s} : exec (.pseudoChannelRetire pc copies entries) s = execPseudoChannelRetire pc copies entries s := rfl
@[simp] theorem exec_structureRebuild {pc s} : exec (.structureRebuild pc) s = execStructureRebuild pc s := rfl
@[simp] theorem exec_frameReceive {p bytes ts badPre cut ovr s} : exec (.frameReceive p bytes ts badPre cut ovr) s = execFrameReceive p bytes ts badPre cut ovr s := rfl
@[simp] theorem exec_segmentAdmit {iap s} : exec (.segmentAdmit iap) s = execSegmentAdmit iap s := rfl
@[simp] theorem exec_tokenDispatch {st s} : exec (.tokenDispatch st) s = execTokenDispatch st s := rfl
@[simp] theorem exec_tokenBind {p s} : exec (.tokenBind p) s = execTokenBind p s := rfl
@[simp] theorem exec_tokenReissue {st s} : exec (.tokenReissue st) s = execTokenReissue st s := rfl
@[simp] theorem exec_commitMessage {k s} : exec (.commitMessage k) s = execCommitMessage k s := rfl
@[simp] theorem exec_batchTimeoutDiscard {st s} : exec (.batchTimeoutDiscard st) s = execBatchTimeoutDiscard st s := rfl
@[simp] theorem exec_effectApply {k ack s} : exec (.effectApply k ack) s = execEffectApply k ack s := rfl
@[simp] theorem exec_effectResend {k s} : exec (.effectResend k) s = execEffectResend k s := rfl
@[simp] theorem exec_lifetimeExpiry {st s} : exec (.lifetimeExpiry st) s = execLifetimeExpiry st s := rfl
@[simp] theorem exec_lifetimeSweep {s} : exec .lifetimeSweep s = execLifetimeSweep s := rfl
@[simp] theorem exec_portHoldExpiry {st c s} : exec (.portHoldExpiry st c) s = execPortHoldExpiry st c s := rfl
@[simp] theorem exec_schedulerPick {r s} : exec (.schedulerPick r) s = execSchedulerPick r s := rfl
@[simp] theorem exec_copySent {p ts ue s} : exec (.copySent p ts ue) s = execCopySent p ts ue s := rfl
@[simp] theorem exec_prefetch {q s} : exec (.prefetch q) s = execPrefetch q s := rfl
@[simp] theorem exec_pauseFrameReceived {p op vec qs s} : exec (.pauseFrameReceived p op vec qs) s = execPauseFrameReceived p op vec qs s := rfl
@[simp] theorem exec_pauseExpiry {p c s} : exec (.pauseExpiry p c) s = execPauseExpiry p c s := rfl
@[simp] theorem exec_pauseFrameSend {p s} : exec (.pauseFrameSend p) s = execPauseFrameSend p s := rfl
@[simp] theorem exec_pauseRepeat {p s} : exec (.pauseRepeat p) s = execPauseRepeat p s := rfl
@[simp] theorem exec_pfcStorm {p c s} : exec (.pfcStorm p c) s = execPfcStorm p c s := rfl
@[simp] theorem exec_groupModeWrite {n v s} : exec (.groupModeWrite n v) s = execGroupModeWrite n v s := rfl
@[simp] theorem exec_portUp {p s} : exec (.portUp p) s = execPortUp p s := rfl
@[simp] theorem exec_laneFaultDegrade {n k s} : exec (.laneFaultDegrade n k) s = execLaneFaultDegrade n k s := rfl
@[simp] theorem exec_degradeTimeout {p s} : exec (.degradeTimeout p) s = execDegradeTimeout p s := rfl
@[simp] theorem exec_restore {p s} : exec (.restore p) s = execRestore p s := rfl
@[simp] theorem exec_moduleInsertion {p found s} : exec (.moduleInsertion p found) s = execModuleInsertion p found s := rfl
@[simp] theorem exec_signalDetect {n k s} : exec (.signalDetect n k) s = execSignalDetect n k s := rfl
@[simp] theorem exec_lossOfSignal {n k s} : exec (.lossOfSignal n k) s = execLossOfSignal n k s := rfl
@[simp] theorem exec_adaptComplete {n k s} : exec (.adaptComplete n k) s = execAdaptComplete n k s := rfl
@[simp] theorem exec_histReject {n k s} : exec (.histReject n k) s = execHistReject n k s := rfl
@[simp] theorem exec_polarityAlternate {n k s} : exec (.polarityAlternate n k) s = execPolarityAlternate n k s := rfl
@[simp] theorem exec_pcsLock {n k s} : exec (.pcsLock n k) s = execPcsLock n k s := rfl
@[simp] theorem exec_lockFail {n k s} : exec (.lockFail n k) s = execLockFail n k s := rfl
@[simp] theorem exec_historySave {n k coeff s} : exec (.historySave n k coeff) s = execHistorySave n k coeff s := rfl
@[simp] theorem exec_laneCfgWrite {n k v s} : exec (.laneCfgWrite n k v) s = execLaneCfgWrite n k v s := rfl
@[simp] theorem exec_prbsEnable {n k v s} : exec (.prbsEnable n k v) s = execPrbsEnable n k v s := rfl
@[simp] theorem exec_prbsDisable {n k s} : exec (.prbsDisable n k) s = execPrbsDisable n k s := rfl
@[simp] theorem exec_marginRefresh {n k hl hr vt vb s} : exec (.marginRefresh n k hl hr vt vb) s = execMarginRefresh n k hl hr vt vb s := rfl
@[simp] theorem exec_eyeScan {n lane eye h v dwell s} : exec (.eyeScan n lane eye h v dwell) s = execEyeScan n lane eye h v dwell s := rfl
@[simp] theorem exec_eyeScanComplete {n err cmp s} : exec (.eyeScanComplete n err cmp) s = execEyeScanComplete n err cmp s := rfl
@[simp] theorem exec_elEnable {l v s} : exec (.elEnable l v) s = execElEnable l v s := rfl
@[simp] theorem exec_blockLock {l j inv s} : exec (.blockLock l j inv) s = execBlockLock l j inv s := rfl
@[simp] theorem exec_linkMap {l l0 l1 l2 l3 member link s} : exec (.linkMap l l0 l1 l2 l3 member link) s = execLinkMap l l0 l1 l2 l3 member link s := rfl
@[simp] theorem exec_mapRetry {l s} : exec (.mapRetry l) s = execMapRetry l s := rfl
@[simp] theorem exec_linkDeskew {l skew s} : exec (.linkDeskew l skew) s = execLinkDeskew l skew s := rfl
@[simp] theorem exec_qualCountdown {l s} : exec (.qualCountdown l) s = execQualCountdown l s := rfl
@[simp] theorem exec_qualWindowEnd {l e0 e1 e2 e3 s} : exec (.qualWindowEnd l e0 e1 e2 e3) s = execQualWindowEnd l e0 e1 e2 e3 s := rfl
@[simp] theorem exec_linkActive {l s} : exec (.linkActive l) s = execLinkActive l s := rfl
@[simp] theorem exec_qualFail {l s} : exec (.qualFail l) s = execQualFail l s := rfl
@[simp] theorem exec_failedRetry {l s} : exec (.failedRetry l) s = execFailedRetry l s := rfl
@[simp] theorem exec_erruicMessageReceive {l b badSync badBlock s} : exec (.erruicMessageReceive l b badSync badBlock) s = execErruicMessageReceive l b badSync badBlock s := rfl
@[simp] theorem exec_creditBlockReceive {l b s} : exec (.creditBlockReceive l b) s = execCreditBlockReceive l b s := rfl
@[simp] theorem exec_acknReceive {l b s} : exec (.acknReceive l b) s = execAcknReceive l b s := rfl
@[simp] theorem exec_creditSend {l s} : exec (.creditSend l) s = execCreditSend l s := rfl
@[simp] theorem exec_acknSend {l s} : exec (.acknSend l) s = execAcknSend l s := rfl
@[simp] theorem exec_replayTimeout {l s} : exec (.replayTimeout l) s = execReplayTimeout l s := rfl
@[simp] theorem exec_erruicLinkDown {l s} : exec (.erruicLinkDown l) s = execErruicLinkDown l s := rfl
@[simp] theorem exec_shaperEnable {lv n s} : exec (.shaperEnable lv n) s = execShaperEnable lv n s := rfl
@[simp] theorem exec_lookupRequest {th tk lines s} : exec (.lookupRequest th tk lines) s = execLookupRequest th tk lines s := rfl
@[simp] theorem exec_fillReturn {line s} : exec (.fillReturn line) s = execFillReturn line s := rfl
@[simp] theorem exec_walkComplete {w pick ue s} : exec (.walkComplete w pick ue) s = execWalkComplete w pick ue s := rfl
@[simp] theorem exec_lookupUnitFault {u applied lines s} : exec (.lookupUnitFault u applied lines) s = execLookupUnitFault u applied lines s := rfl
@[simp] theorem exec_t1CfgWrite {v s} : exec (.t1CfgWrite v) s = execT1CfgWrite v s := rfl
@[simp] theorem exec_remoteRequest {m id q lines s} : exec (.remoteRequest m id q lines) s = execRemoteRequest m id q lines s := rfl
@[simp] theorem exec_remoteResponse {id a lines s} : exec (.remoteResponse id a lines) s = execRemoteResponse id a lines s := rfl
@[simp] theorem exec_remoteTimeout {id s} : exec (.remoteTimeout id) s = execRemoteTimeout id s := rfl
@[simp] theorem exec_insert {w n plen prio arg s} : exec (.insert w n plen prio arg) s = execInsert w n plen prio arg s := rfl
@[simp] theorem exec_modify {w n rst plen prio arg s} : exec (.modify w n rst plen prio arg) s = execModify w n rst plen prio arg s := rfl
@[simp] theorem exec_delete {w n plen prio arg s} : exec (.delete w n plen prio arg) s = execDelete w n plen prio arg s := rfl
@[simp] theorem exec_read {w n plen prio arg s} : exec (.read w n plen prio arg) s = execRead w n plen prio arg s := rfl
@[simp] theorem exec_readHandle {w n handle s} : exec (.readHandle w n handle) s = execReadHandle w n handle s := rfl
@[simp] theorem exec_modifyHandle {w n rst arg s} : exec (.modifyHandle w n rst arg) s = execModifyHandle w n rst arg s := rfl
@[simp] theorem exec_deleteHandle {w n handle s} : exec (.deleteHandle w n handle) s = execDeleteHandle w n handle s := rfl
@[simp] theorem exec_cntRead {w n clr handle s} : exec (.cntRead w n clr handle) s = execCntRead w n clr handle s := rfl
@[simp] theorem exec_descCreate {w n img cap s} : exec (.descCreate w n img cap) s = execDescCreate w n img cap s := rfl
@[simp] theorem exec_descDestroy {w n s} : exec (.descDestroy w n) s = execDescDestroy w n s := rfl
@[simp] theorem exec_descParam {w n age learn s} : exec (.descParam w n age learn) s = execDescParam w n age learn s := rfl
@[simp] theorem exec_lookup {w n arg s} : exec (.lookup w n arg) s = execLookup w n arg s := rfl
@[simp] theorem exec_bulkBatch {p recs fin bytes s} : exec (.bulkBatch p recs fin bytes) s = execBulkBatch p recs fin bytes s := rfl
@[simp] theorem exec_bulkBatchTimeout {p k s} : exec (.bulkBatchTimeout p k) s = execBulkBatchTimeout p k s := rfl
@[simp] theorem exec_agingVisit {n ix s} : exec (.agingVisit n ix) s = execAgingVisit n ix s := rfl
@[simp] theorem exec_saCreate {w sa img ue s} : exec (.saCreate w sa img ue) s = execSaCreate w sa img ue s := rfl
@[simp] theorem exec_saDestroy {w sa ue s} : exec (.saDestroy w sa ue) s = execSaDestroy w sa ue s := rfl
@[simp] theorem exec_saRetireComplete {sa s} : exec (.saRetireComplete sa) s = execSaRetireComplete sa s := rfl
@[simp] theorem exec_saRead {w sa ue s} : exec (.saRead w sa ue) s = execSaRead w sa ue s := rfl
@[simp] theorem exec_keyLoadWrapped {w slot kek wrap ue s} : exec (.keyLoadWrapped w slot kek wrap ue) s = execKeyLoadWrapped w slot kek wrap ue s := rfl
@[simp] theorem exec_keyZero {w slot ue s} : exec (.keyZero w slot ue) s = execKeyZero w slot ue s := rfl
@[simp] theorem exec_keyInfo {w slot ue s} : exec (.keyInfo w slot ue) s = execKeyInfo w slot ue s := rfl
@[simp] theorem exec_cryptoVerdict {th tk ue s} : exec (.cryptoVerdict th tk ue) s = execCryptoVerdict th tk ue s := rfl
@[simp] theorem exec_connCfgWrite {c v s} : exec (.connCfgWrite c v) s = execConnCfgWrite c v s := rfl
@[simp] theorem exec_resyncArm {c seq s} : exec (.resyncArm c seq) s = execResyncArm c seq s := rfl
@[simp] theorem exec_cidFetchComplete {c cid s} : exec (.cidFetchComplete c cid) s = execCidFetchComplete c cid s := rfl
@[simp] theorem exec_rqDelivery {h s} : exec (.rqDelivery h) s = execRqDelivery h s := rfl
@[simp] theorem exec_rqBufferWaitExpiry {h s} : exec (.rqBufferWaitExpiry h) s = execRqBufferWaitExpiry h s := rfl
@[simp] theorem exec_perstAssert {h s} : exec (.perstAssert h) s = execPerstAssert h s := rfl
@[simp] theorem exec_perstDeassert {h s} : exec (.perstDeassert h) s = execPerstDeassert h s := rfl
@[simp] theorem exec_hotReset {h s} : exec (.hotReset h) s = execHotReset h s := rfl
@[simp] theorem exec_linkTrained {h w sp flit drs s} : exec (.linkTrained h w sp flit drs) s = execLinkTrained h w sp flit drs s := rfl
@[simp] theorem exec_detach {h s} : exec (.detach h) s = execDetach h s := rfl
@[simp] theorem exec_hostHoldExpiry {h s} : exec (.hostHoldExpiry h) s = execHostHoldExpiry h s := rfl
@[simp] theorem exec_bmeClear {f s} : exec (.bmeClear f) s = execBmeClear f s := rfl
@[simp] theorem exec_bmeSet {f s} : exec (.bmeSet f) s = execBmeSet f s := rfl
@[simp] theorem exec_bmeHoldExpiry {f s} : exec (.bmeHoldExpiry f) s = execBmeHoldExpiry f s := rfl
@[simp] theorem exec_flrVf {f s} : exec (.flrVf f) s = execFlrVf f s := rfl
@[simp] theorem exec_flrPf {p s} : exec (.flrPf p) s = execFlrPf p s := rfl
@[simp] theorem exec_readCompletion {port tag ok poisoned data s} : exec (.readCompletion port tag ok poisoned data) s = execReadCompletion port tag ok poisoned data s := rfl
@[simp] theorem exec_completionTimeout {tag s} : exec (.completionTimeout tag) s = execCompletionTimeout tag s := rfl
@[simp] theorem exec_vfEnable {p s} : exec (.vfEnable p) s = execVfEnable p s := rfl
@[simp] theorem exec_vfDisable {p s} : exec (.vfDisable p) s = execVfDisable p s := rfl
@[simp] theorem exec_atsInvalidate {f page n late s} : exec (.atsInvalidate f page n late) s = execAtsInvalidate f page n late s := rfl
@[simp] theorem exec_d3hotEntry {f s} : exec (.d3hotEntry f) s = execD3hotEntry f s := rfl
@[simp] theorem exec_ltrEnable {h s} : exec (.ltrEnable h) s = execLtrEnable h s := rfl
@[simp] theorem exec_heldLedgerWrite {p s} : exec (.heldLedgerWrite p) s = execHeldLedgerWrite p s := rfl
@[simp] theorem exec_configRequest {f c s} : exec (.configRequest f c) s = execConfigRequest f c s := rfl
@[simp] theorem exec_ledgerWrite {p s} : exec (.ledgerWrite p) s = execLedgerWrite p s := rfl
@[simp] theorem exec_warmLedgerTimeout {s} : exec .warmLedgerTimeout s = execWarmLedgerTimeout s := rfl
@[simp] theorem exec_queueEnable {q s} : exec (.queueEnable q) s = execQueueEnable q s := rfl
@[simp] theorem exec_queueDisable {q s} : exec (.queueDisable q) s = execQueueDisable q s := rfl
@[simp] theorem exec_queueStopped {q s} : exec (.queueStopped q) s = execQueueStopped q s := rfl
@[simp] theorem exec_queueResume {q idx s} : exec (.queueResume q idx) s = execQueueResume q idx s := rfl
@[simp] theorem exec_doorbellPi {f v whole s} : exec (.doorbellPi f v whole) s = execDoorbellPi f v whole s := rfl
@[simp] theorem exec_doorbellCq {f v whole s} : exec (.doorbellCq f v whole) s = execDoorbellCq f v whole s := rfl
@[simp] theorem exec_doorbellEq {f v whole s} : exec (.doorbellEq f v whole) s = execDoorbellEq f v whole s := rfl
@[simp] theorem exec_sliceVisit {sl s} : exec (.sliceVisit sl) s = execSliceVisit sl s := rfl
@[simp] theorem exec_descriptorFetchComplete {q ofList s} : exec (.descriptorFetchComplete q ofList) s = execDescriptorFetchComplete q ofList s := rfl
@[simp] theorem exec_descriptorAccept {q s} : exec (.descriptorAccept q) s = execDescriptorAccept q s := rfl
@[simp] theorem exec_payloadLoadComplete {st s} : exec (.payloadLoadComplete st) s = execPayloadLoadComplete st s := rfl
@[simp] theorem exec_headWriteBack {q s} : exec (.headWriteBack q) s = execHeadWriteBack q s := rfl
@[simp] theorem exec_cqEnable {c on s} : exec (.cqEnable c on) s = execCqEnable c on s := rfl
@[simp] theorem exec_eqEnable {e on s} : exec (.eqEnable e on) s = execEqEnable e on s := rfl
@[simp] theorem exec_ledgerAck {p v s} : exec (.ledgerAck p v) s = execLedgerAck p v s := rfl
@[simp] theorem exec_sliceFail {sl k s} : exec (.sliceFail sl k) s = execSliceFail sl k s := rfl
@[simp] theorem exec_burstGrant {g ue s} : exec (.burstGrant g ue) s = execBurstGrant g ue s := rfl
@[simp] theorem exec_flush {c s} : exec (.flush c) s = execFlush c s := rfl
@[simp] theorem exec_flushComplete {c s} : exec (.flushComplete c) s = execFlushComplete c s := rfl
@[simp] theorem exec_abort {c s} : exec (.abort c) s = execAbort c s := rfl
@[simp] theorem exec_channelStopped {c s} : exec (.channelStopped c) s = execChannelStopped c s := rfl
@[simp] theorem exec_resume {c s} : exec (.resume c) s = execResume c s := rfl
@[simp] theorem exec_channelMove {inst c s} : exec (.channelMove inst c) s = execChannelMove inst c s := rfl
@[simp] theorem exec_channelMoveComplete {inst s} : exec (.channelMoveComplete inst) s = execChannelMoveComplete inst s := rfl
@[simp] theorem exec_channelFail {c s} : exec (.channelFail c) s = execChannelFail c s := rfl
@[simp] theorem exec_create {p inst cold sh s} : exec (.create p inst cold sh) s = execCreate p inst cold sh s := rfl
@[simp] theorem exec_enable {p inst s} : exec (.enable p inst) s = execEnable p inst s := rfl
@[simp] theorem exec_reset {p inst hold s} : exec (.reset p inst hold) s = execReset p inst hold s := rfl
@[simp] theorem exec_remove {p inst s} : exec (.remove p inst) s = execRemove p inst s := rfl
@[simp] theorem exec_drainEnd {inst s} : exec (.drainEnd inst) s = execDrainEnd inst s := rfl
@[simp] theorem exec_drainForced {inst s} : exec (.drainForced inst) s = execDrainForced inst s := rfl
@[simp] theorem exec_dirtyStart {p inst bank0 bank1 base lg s} : exec (.dirtyStart p inst bank0 bank1 base lg) s = execDirtyStart p inst bank0 bank1 base lg s := rfl
@[simp] theorem exec_dirtySwap {p inst s} : exec (.dirtySwap p inst) s = execDirtySwap p inst s := rfl
@[simp] theorem exec_dirtySwapComplete {inst s} : exec (.dirtySwapComplete inst) s = execDirtySwapComplete inst s := rfl
@[simp] theorem exec_dirtyStop {p inst s} : exec (.dirtyStop p inst) s = execDirtyStop p inst s := rfl
@[simp] theorem exec_freezeQuiesce {p inst kek s} : exec (.freezeQuiesce p inst kek) s = execFreezeQuiesce p inst kek s := rfl
@[simp] theorem exec_quiesced {inst s} : exec (.quiesced inst) s = execQuiesced inst s := rfl
@[simp] theorem exec_freezeInPlace {p inst kek s} : exec (.freezeInPlace p inst kek) s = execFreezeInPlace p inst kek s := rfl
@[simp] theorem exec_save {p inst addr size s} : exec (.save p inst addr size) s = execSave p inst addr size s := rfl
@[simp] theorem exec_thaw {p inst s} : exec (.thaw p inst) s = execThaw p inst s := rfl
@[simp] theorem exec_send {inst up s} : exec (.send inst up) s = execSend inst up s := rfl
@[simp] theorem exec_cancel {inst up s} : exec (.cancel inst up) s = execCancel inst up s := rfl
@[simp] theorem exec_rxTake {q inst up s} : exec (.rxTake q inst up) s = execRxTake q inst up s := rfl
@[simp] theorem exec_mailboxTimeout {inst up s} : exec (.mailboxTimeout inst up) s = execMailboxTimeout inst up s := rfl
@[simp] theorem exec_imageLoad {m tmo off len data s} : exec (.imageLoad m tmo off len data) s = execImageLoad m tmo off len data s := rfl
@[simp] theorem exec_imageDrop {m tmo id s} : exec (.imageDrop m tmo id) s = execImageDrop m tmo id s := rfl
@[simp] theorem exec_slotBind {m tmo id slot inst off map s} : exec (.slotBind m tmo id slot inst off map) s = execSlotBind m tmo id slot inst off map s := rfl
@[simp] theorem exec_slotUnbind {m tmo slot s} : exec (.slotUnbind m tmo slot) s = execSlotUnbind m tmo slot s := rfl
@[simp] theorem exec_cfgSet {m tmo item v s} : exec (.cfgSet m tmo item v) s = execCfgSet m tmo item v s := rfl
@[simp] theorem exec_cfgGet {m tmo item s} : exec (.cfgGet m tmo item) s = execCfgGet m tmo item s := rfl
@[simp] theorem exec_keyLoad {m tmo slot owner key s} : exec (.keyLoad m tmo slot owner key) s = execKeyLoad m tmo slot owner key s := rfl
@[simp] theorem exec_kekLoad {m tmo slot owner exp len key s} : exec (.kekLoad m tmo slot owner exp len key) s = execKekLoad m tmo slot owner exp len key s := rfl
@[simp] theorem exec_inject {m tmo off len slot inst data s} : exec (.inject m tmo off len slot inst data) s = execInject m tmo off len slot inst data s := rfl
@[simp] theorem exec_fwInfo {m tmo s} : exec (.fwInfo m tmo) s = execFwInfo m tmo s := rfl
@[simp] theorem exec_stewardCmdTimeout {m s} : exec (.stewardCmdTimeout m) s = execStewardCmdTimeout m s := rfl
@[simp] theorem exec_bar4Request {f p x isWrite s} : exec (.bar4Request f p x isWrite) s = execBar4Request f p x isWrite s := rfl
@[simp] theorem exec_eventRaise {k s} : exec (.eventRaise k) s = execEventRaise k s := rfl
@[simp] theorem exec_msixMessage {f v s} : exec (.msixMessage f v) s = execMsixMessage f v s := rfl
@[simp] theorem exec_faultMessage {a lost s} : exec (.faultMessage a lost) s = execFaultMessage a lost s := rfl
@[simp] theorem exec_fatalAssert {n s} : exec (.fatalAssert n) s = execFatalAssert n s := rfl
@[simp] theorem exec_fatalSilent {n s} : exec (.fatalSilent n) s = execFatalSilent n s := rfl
@[simp] theorem exec_faultAck {seq s} : exec (.faultAck seq) s = execFaultAck seq s := rfl
@[simp] theorem exec_isolationClear {pod s} : exec (.isolationClear pod) s = execIsolationClear pod s := rfl
@[simp] theorem exec_logMemoryFailure {s} : exec .logMemoryFailure s = execLogMemoryFailure s := rfl
@[simp] theorem exec_operationHang {part u s} : exec (.operationHang part u) s = execOperationHang part u s := rfl
@[simp] theorem exec_stewardWatchdog {s} : exec .stewardWatchdog s = execStewardWatchdog s := rfl
@[simp] theorem exec_droopFloor {p s} : exec (.droopFloor p) s = execDroopFloor p s := rfl
@[simp] theorem exec_ceStorm {n block mem syndrome s} : exec (.ceStorm n block mem syndrome) s = execCeStorm n block mem syndrome s := rfl
@[simp] theorem exec_dtbAlign {n s} : exec (.dtbAlign n) s = execDtbAlign n s := rfl
@[simp] theorem exec_helloSend {l s} : exec (.helloSend l) s = execHelloSend l s := rfl
@[simp] theorem exec_helloReceive {l b s} : exec (.helloReceive l b) s = execHelloReceive l b s := rfl
@[simp] theorem exec_forwardedCopyArrival {l b s} : exec (.forwardedCopyArrival l b) s = execForwardedCopyArrival l b s := rfl
@[simp] theorem exec_forwardAck {m fseq refuse s} : exec (.forwardAck m fseq refuse) s = execForwardAck m fseq refuse s := rfl
@[simp] theorem exec_refuseResend {m fseq s} : exec (.refuseResend m fseq) s = execRefuseResend m fseq s := rfl
@[simp] theorem exec_groupHoldExpiry {st c s} : exec (.groupHoldExpiry st c) s = execGroupHoldExpiry st c s := rfl
@[simp] theorem exec_groupCommit {off len data s} : exec (.groupCommit off len data) s = execGroupCommit off len data s := rfl
@[simp] theorem exec_groupLeave {s} : exec .groupLeave s = execGroupLeave s := rfl
@[simp] theorem exec_groupRejoin {s} : exec .groupRejoin s = execGroupRejoin s := rfl
@[simp] theorem exec_prepare {m epoch cur ld enc s} : exec (.prepare m epoch cur ld enc) s = execPrepare m epoch cur ld enc s := rfl
@[simp] theorem exec_ready {m refuse s} : exec (.ready m refuse) s = execReady m refuse s := rfl
@[simp] theorem exec_commit {t s} : exec (.commit t) s = execCommit t s := rfl
@[simp] theorem exec_commitApply {s} : exec .commitApply s = execCommitApply s := rfl
@[simp] theorem exec_groupAbort {s} : exec .groupAbort s = execGroupAbort s := rfl
@[simp] theorem exec_prepareTimeout {s} : exec .prepareTimeout s = execPrepareTimeout s := rfl
@[simp] theorem exec_preparedDiscard {s} : exec .preparedDiscard s = execPreparedDiscard s := rfl
@[simp] theorem exec_groupForm {s} : exec .groupForm s = execGroupForm s := rfl
@[simp] theorem exec_leaderLost {s} : exec .leaderLost s = execLeaderLost s := rfl
@[simp] theorem exec_selfFence {s} : exec .selfFence s = execSelfFence s := rfl
@[simp] theorem exec_fenceRecovery {s} : exec .fenceRecovery s = execFenceRecovery s := rfl
@[simp] theorem exec_memberLost {m s} : exec (.memberLost m) s = execMemberLost m s := rfl
@[simp] theorem exec_replicatedWrite {a s} : exec (.replicatedWrite a) s = execReplicatedWrite a s := rfl
@[simp] theorem exec_replicatedApplyTimeout {seq s} : exec (.replicatedApplyTimeout seq) s = execReplicatedApplyTimeout seq s := rfl
@[simp] theorem exec_replicatedAgingReport {m n ix div s} : exec (.replicatedAgingReport m n ix div) s = execReplicatedAgingReport m n ix div s := rfl
@[simp] theorem exec_beaconTransmit {collide s} : exec (.beaconTransmit collide) s = execBeaconTransmit collide s := rfl
@[simp] theorem exec_beaconReceive {b at_ s} : exec (.beaconReceive b at_) s = execBeaconReceive b at_ s := rfl
@[simp] theorem exec_wakeReceive {b at_ s} : exec (.wakeReceive b at_) s = execWakeReceive b at_ s := rfl
@[simp] theorem exec_announceReceive {b at_ s} : exec (.announceReceive b at_) s = execAnnounceReceive b at_ s := rfl
@[simp] theorem exec_wakeFrameSend {targets collide retry s} : exec (.wakeFrameSend targets collide retry) s = execWakeFrameSend targets collide retry s := rfl
@[simp] theorem exec_slotTrim {s} : exec .slotTrim s = execSlotTrim s := rfl
@[simp] theorem exec_slotSilenced {s} : exec .slotSilenced s = execSlotSilenced s := rfl
@[simp] theorem exec_holdOverExpiry {s} : exec .holdOverExpiry s = execHoldOverExpiry s := rfl
@[simp] theorem exec_rendezvousWaitExpiry {s} : exec .rendezvousWaitExpiry s = execRendezvousWaitExpiry s := rfl
@[simp] theorem exec_wakePulse {s} : exec .wakePulse s = execWakePulse s := rfl
@[simp] theorem exec_mctpPacket {b s} : exec (.mctpPacket b) s = execMctpPacket b s := rfl
@[simp] theorem exec_reassemblyTimeout {src tag s} : exec (.reassemblyTimeout src tag) s = execReassemblyTimeout src tag s := rfl
@[simp] theorem exec_setEndpointId {s} : exec .setEndpointId s = execSetEndpointId s := rfl
@[simp] theorem exec_getEndpointId {s} : exec .getEndpointId s = execGetEndpointId s := rfl
@[simp] theorem exec_getEndpointUuid {s} : exec .getEndpointUuid s = execGetEndpointUuid s := rfl
@[simp] theorem exec_getMctpVersionSupport {s} : exec .getMctpVersionSupport s = execGetMctpVersionSupport s := rfl
@[simp] theorem exec_getMessageTypeSupport {s} : exec .getMessageTypeSupport s = execGetMessageTypeSupport s := rfl
@[simp] theorem exec_getVendorDefinedMessageSupport {s} : exec .getVendorDefinedMessageSupport s = execGetVendorDefinedMessageSupport s := rfl
@[simp] theorem exec_getMeasurements {via s} : exec (.getMeasurements via) s = execGetMeasurements via s := rfl
@[simp] theorem exec_getCertificate {via s} : exec (.getCertificate via) s = execGetCertificate via s := rfl
@[simp] theorem exec_challenge {via s} : exec (.challenge via) s = execChallenge via s := rfl
@[simp] theorem exec_keyExchange {via s} : exec (.keyExchange via) s = execKeyExchange via s := rfl
@[simp] theorem exec_identify {s} : exec .identify s = execIdentify s := rfl
@[simp] theorem exec_health {s} : exec .health s = execHealth s := rfl
@[simp] theorem exec_logRead {s} : exec .logRead s = execLogRead s := rfl
@[simp] theorem exec_moduleStatus {s} : exec .moduleStatus s = execModuleStatus s := rfl
@[simp] theorem exec_moduleRead {s} : exec .moduleRead s = execModuleRead s := rfl
@[simp] theorem exec_moduleWrite {s} : exec .moduleWrite s = execModuleWrite s := rfl
@[simp] theorem exec_stewardCmd {s} : exec .stewardCmd s = execStewardCmd s := rfl
@[simp] theorem exec_i2cTransaction {p a s} : exec (.i2cTransaction p a) s = execI2cTransaction p a s := rfl
@[simp] theorem exec_arbitrationLost {p at_ n s} : exec (.arbitrationLost p at_ n) s = execArbitrationLost p at_ n s := rfl
@[simp] theorem exec_arbBackoffExpiry {p draw s} : exec (.arbBackoffExpiry p draw) s = execArbBackoffExpiry p draw s := rfl
@[simp] theorem exec_busTimeout {p target s} : exec (.busTimeout p target) s = execBusTimeout p target s := rfl
@[simp] theorem exec_busRecovery {p clears s} : exec (.busRecovery p clears) s = execBusRecovery p clears s := rfl
@[simp] theorem exec_modulePoll {m s} : exec (.modulePoll m) s = execModulePoll m s := rfl
@[simp] theorem exec_voutCommand {r s} : exec (.voutCommand r) s = execVoutCommand r s := rfl
@[simp] theorem exec_avsTelemetry {r s} : exec (.avsTelemetry r) s = execAvsTelemetry r s := rfl
@[simp] theorem exec_modRead {m bank page off len s} : exec (.modRead m bank page off len) s = execModRead m bank page off len s := rfl
@[simp] theorem exec_modWrite {m bank page off len data s} : exec (.modWrite m bank page off len data) s = execModWrite m bank page off len data s := rfl
@[simp] theorem exec_cocoonReq {s} : exec .cocoonReq s = execCocoonReq s := rfl
@[simp] theorem exec_cocoonEntry {hist s} : exec (.cocoonEntry hist) s = execCocoonEntry hist s := rfl
@[simp] theorem exec_cocoonWake {src s} : exec (.cocoonWake src) s = execCocoonWake src s := rfl
@[simp] theorem exec_pwrGoodAssert {s} : exec .pwrGoodAssert s = execPwrGoodAssert s := rfl
@[simp] theorem exec_pwrGoodTimeout {s} : exec .pwrGoodTimeout s = execPwrGoodTimeout s := rfl
@[simp] theorem exec_islandRelease {straps s} : exec (.islandRelease straps) s = execIslandRelease straps s := rfl
@[simp] theorem exec_pwrGoodFall {s} : exec .pwrGoodFall s = execPwrGoodFall s := rfl
@[simp] theorem exec_porAssert {s} : exec .porAssert s = execPorAssert s := rfl
@[simp] theorem exec_porDeassert {straps s} : exec (.porDeassert straps) s = execPorDeassert straps s := rfl
@[simp] theorem exec_aonPowerLoss {s} : exec .aonPowerLoss s = execAonPowerLoss s := rfl
@[simp] theorem exec_parkAutoWake {s} : exec .parkAutoWake s = execParkAutoWake s := rfl
@[simp] theorem exec_clockLoss {c s} : exec (.clockLoss c) s = execClockLoss c s := rfl
@[simp] theorem exec_xtal32kRecover {s} : exec .xtal32kRecover s = execXtal32kRecover s := rfl
@[simp] theorem exec_timeStep {v s} : exec (.timeStep v) s = execTimeStep v s := rfl
@[simp] theorem exec_timeAdjWrite {v s} : exec (.timeAdjWrite v) s = execTimeAdjWrite v s := rfl
@[simp] theorem exec_lockTimeout {s} : exec .lockTimeout s = execLockTimeout s := rfl
@[simp] theorem exec_timeSteer {s} : exec .timeSteer s = execTimeSteer s := rfl
@[simp] theorem exec_dtbSync {n e s} : exec (.dtbSync n e) s = execDtbSync n e s := rfl
@[simp] theorem exec_avsTargetUpdate {r s} : exec (.avsTargetUpdate r) s = execAvsTargetUpdate r s := rfl
@[simp] theorem exec_warmReset {steward v s} : exec (.warmReset steward v) s = execWarmReset steward v s := rfl
@[simp] theorem exec_warmRelease {s} : exec .warmRelease s = execWarmRelease s := rfl
@[simp] theorem exec_fuseSense {tj ov bad s} : exec (.fuseSense tj ov bad) s = execFuseSense tj ov bad s := rfl
@[simp] theorem exec_senseTimeout {w s} : exec (.senseTimeout w) s = execSenseTimeout w s := rfl
@[simp] theorem exec_bootSelect {reports s} : exec (.bootSelect reports) s = execBootSelect reports s := rfl
@[simp] theorem exec_bootWatchdog {reports s} : exec (.bootWatchdog reports) s = execBootWatchdog reports s := rfl
@[simp] theorem exec_configApply {settings s} : exec (.configApply settings) s = execConfigApply settings s := rfl
@[simp] theorem exec_microcodeLoad {s} : exec .microcodeLoad s = execMicrocodeLoad s := rfl
@[simp] theorem exec_portRelease {s} : exec .portRelease s = execPortRelease s := rfl
@[simp] theorem exec_chrysalisStart {s} : exec .chrysalisStart s = execChrysalisStart s := rfl
@[simp] theorem exec_hbmTraining {failed s} : exec (.hbmTraining failed) s = execHbmTraining failed s := rfl
@[simp] theorem exec_podLoad {descs s} : exec (.podLoad descs) s = execPodLoad descs s := rfl
@[simp] theorem exec_serviceSwitch {s} : exec .serviceSwitch s = execServiceSwitch s := rfl
@[simp] theorem exec_retrainGroup {n v ports s} : exec (.retrainGroup n v ports) s = execRetrainGroup n v ports s := rfl
@[simp] theorem exec_retrainTimeout {s} : exec .retrainTimeout s = execRetrainTimeout s := rfl
@[simp] theorem exec_runEntry {s} : exec .runEntry s = execRunEntry s := rfl
@[simp] theorem exec_chrysalisForward {st s} : exec (.chrysalisForward st) s = execChrysalisForward st s := rfl
@[simp] theorem exec_program {src word data miss s} : exec (.program src word data miss) s = execProgram src word data miss s := rfl
@[simp] theorem exec_lcAdvance {src miss s} : exec (.lcAdvance src miss) s = execLcAdvance src miss s := rfl
@[simp] theorem exec_rollbackAdvance {src t miss s} : exec (.rollbackAdvance src t miss) s = execRollbackAdvance src t miss s := rfl
@[simp] theorem exec_jtagInstruction {j s} : exec (.jtagInstruction j) s = execJtagInstruction j s := rfl
@[simp] theorem exec_fwWrite {m tmo off len slotOff data fq s} : exec (.fwWrite m tmo off len slotOff data fq) s = execFwWrite m tmo off len slotOff data fq s := rfl
@[simp] theorem exec_fwFinish {m tmo fq s} : exec (.fwFinish m tmo fq) s = execFwFinish m tmo fq s := rfl
@[simp] theorem exec_fwCommit {m tmo adv miss fq s} : exec (.fwCommit m tmo adv miss fq) s = execFwCommit m tmo adv miss fq s := rfl
@[simp] theorem exec_fwAbort {m tmo s} : exec (.fwAbort m tmo) s = execFwAbort m tmo s := rfl
@[simp] theorem exec_moultSet {m tmo l s} : exec (.moultSet m tmo l) s = execMoultSet m tmo l s := rfl
@[simp] theorem exec_chryWrite {m tmo off len data fq s} : exec (.chryWrite m tmo off len data fq) s = execChryWrite m tmo off len data fq s := rfl
@[simp] theorem exec_flashInfo {m tmo s} : exec (.flashInfo m tmo) s = execFlashInfo m tmo s := rfl
@[simp] theorem exec_autoCommit {s} : exec .autoCommit s = execAutoCommit s := rfl
@[simp] theorem exec_recordWrite {fq s} : exec (.recordWrite fq) s = execRecordWrite fq s := rfl
@[simp] theorem exec_logCompaction {fq s} : exec (.logCompaction fq) s = execLogCompaction fq s := rfl
@[simp] theorem exec_wearLedgerWrite {fq s} : exec (.wearLedgerWrite fq) s = execWearLedgerWrite fq s := rfl
@[simp] theorem exec_moultSwitch {m s} : exec (.moultSwitch m) s = execMoultSwitch m s := rfl
@[simp] theorem exec_moultRetired {slot s} : exec (.moultRetired slot) s = execMoultRetired slot s := rfl
@[simp] theorem exec_sample {v s} : exec (.sample v) s = execSample v s := rfl
@[simp] theorem exec_sampleTimeout {s} : exec .sampleTimeout s = execSampleTimeout s := rfl
@[simp] theorem exec_singleConversion {ch gain osr chop count s} : exec (.singleConversion ch gain osr chop count) s = execSingleConversion ch gain osr chop count s := rfl
@[simp] theorem exec_throttleApply {s} : exec .throttleApply s = execThrottleApply s := rfl
@[simp] theorem exec_coreCtlWrite {core v own s} : exec (.coreCtlWrite core v own) s = execCoreCtlWrite core v own s := rfl
@[simp] theorem exec_quantumExpiry {core s} : exec (.quantumExpiry core) s = execQuantumExpiry core s := rfl
@[simp] theorem exec_threadWake {th s} : exec (.threadWake th) s = execThreadWake th s := rfl
@[simp] theorem exec_ticketComplete {th tk ue s} : exec (.ticketComplete th tk ue) s = execTicketComplete th tk ue s := rfl
@[simp] theorem exec_watchdog {th s} : exec (.watchdog th) s = execWatchdog th s := rfl
@[simp] theorem exec_handlerDeadline {th s} : exec (.handlerDeadline th) s = execHandlerDeadline th s := rfl
@[simp] theorem exec_slotHandlerWrite {pod slot v s} : exec (.slotHandlerWrite pod slot v) s = execSlotHandlerWrite pod slot v s := rfl
@[simp] theorem exec_supervisorWrite {pod v s} : exec (.supervisorWrite pod v) s = execSupervisorWrite pod v s := rfl
@[simp] theorem exec_supervisorHandover {pod s} : exec (.supervisorHandover pod) s = execSupervisorHandover pod s := rfl
@[simp] theorem exec_supervisorRestart {pod s} : exec (.supervisorRestart pod) s = execSupervisorRestart pod s := rfl
@[simp] theorem exec_parkRequest {pod s} : exec (.parkRequest pod) s = execParkRequest pod s := rfl
@[simp] theorem exec_podParked {pod s} : exec (.podParked pod) s = execPodParked pod s := rfl
@[simp] theorem exec_parkCancel {pod s} : exec (.parkCancel pod) s = execParkCancel pod s := rfl
@[simp] theorem exec_podWake {pod s} : exec (.podWake pod) s = execPodWake pod s := rfl
@[simp] theorem exec_podRun {pod s} : exec (.podRun pod) s = execPodRun pod s := rfl
@[simp] theorem exec_ngAdd {th gd w rd ra rb s} : exec (.ngAdd th gd w rd ra rb) s = execNgAdd th gd w rd ra rb s := rfl
@[simp] theorem exec_ngSub {th gd w rd ra rb s} : exec (.ngSub th gd w rd ra rb) s = execNgSub th gd w rd ra rb s := rfl
@[simp] theorem exec_ngAnd {th gd w rd ra rb s} : exec (.ngAnd th gd w rd ra rb) s = execNgAnd th gd w rd ra rb s := rfl
@[simp] theorem exec_ngOr {th gd w rd ra rb s} : exec (.ngOr th gd w rd ra rb) s = execNgOr th gd w rd ra rb s := rfl
@[simp] theorem exec_ngXor {th gd w rd ra rb s} : exec (.ngXor th gd w rd ra rb) s = execNgXor th gd w rd ra rb s := rfl
@[simp] theorem exec_ngAndn {th gd w rd ra rb s} : exec (.ngAndn th gd w rd ra rb) s = execNgAndn th gd w rd ra rb s := rfl
@[simp] theorem exec_ngShl {th gd w rd ra rb s} : exec (.ngShl th gd w rd ra rb) s = execNgShl th gd w rd ra rb s := rfl
@[simp] theorem exec_ngShr {th gd w rd ra rb s} : exec (.ngShr th gd w rd ra rb) s = execNgShr th gd w rd ra rb s := rfl
@[simp] theorem exec_ngSar {th gd w rd ra rb s} : exec (.ngSar th gd w rd ra rb) s = execNgSar th gd w rd ra rb s := rfl
@[simp] theorem exec_ngRol {th gd w rd ra rb s} : exec (.ngRol th gd w rd ra rb) s = execNgRol th gd w rd ra rb s := rfl
@[simp] theorem exec_ngMin {th gd w rd ra rb s} : exec (.ngMin th gd w rd ra rb) s = execNgMin th gd w rd ra rb s := rfl
@[simp] theorem exec_ngMax {th gd w rd ra rb s} : exec (.ngMax th gd w rd ra rb) s = execNgMax th gd w rd ra rb s := rfl
@[simp] theorem exec_ngMinu {th gd w rd ra rb s} : exec (.ngMinu th gd w rd ra rb) s = execNgMinu th gd w rd ra rb s := rfl
@[simp] theorem exec_ngMaxu {th gd w rd ra rb s} : exec (.ngMaxu th gd w rd ra rb) s = execNgMaxu th gd w rd ra rb s := rfl
@[simp] theorem exec_ngMul {th gd w rd ra rb s} : exec (.ngMul th gd w rd ra rb) s = execNgMul th gd w rd ra rb s := rfl
@[simp] theorem exec_ngMulhu {th gd w rd ra rb s} : exec (.ngMulhu th gd w rd ra rb) s = execNgMulhu th gd w rd ra rb s := rfl
@[simp] theorem exec_ngDivu {th gd w rd ra rb s} : exec (.ngDivu th gd w rd ra rb) s = execNgDivu th gd w rd ra rb s := rfl
@[simp] theorem exec_ngRemu {th gd w rd ra rb s} : exec (.ngRemu th gd w rd ra rb) s = execNgRemu th gd w rd ra rb s := rfl
@[simp] theorem exec_ngPrd {th gd rd s} : exec (.ngPrd th gd rd) s = execNgPrd th gd rd s := rfl
@[simp] theorem exec_ngPwr {th gd ra s} : exec (.ngPwr th gd ra) s = execNgPwr th gd ra s := rfl
@[simp] theorem exec_ngAddi {th gd rd ra imm s} : exec (.ngAddi th gd rd ra imm) s = execNgAddi th gd rd ra imm s := rfl
@[simp] theorem exec_ngAndi {th gd rd ra imm s} : exec (.ngAndi th gd rd ra imm) s = execNgAndi th gd rd ra imm s := rfl
@[simp] theorem exec_ngOri {th gd rd ra imm s} : exec (.ngOri th gd rd ra imm) s = execNgOri th gd rd ra imm s := rfl
@[simp] theorem exec_ngXori {th gd rd ra imm s} : exec (.ngXori th gd rd ra imm) s = execNgXori th gd rd ra imm s := rfl
@[simp] theorem exec_ngMovi {th gd rd imm s} : exec (.ngMovi th gd rd imm) s = execNgMovi th gd rd imm s := rfl
@[simp] theorem exec_ngMovhi {th gd rd ra imm s} : exec (.ngMovhi th gd rd ra imm) s = execNgMovhi th gd rd ra imm s := rfl
@[simp] theorem exec_ngShiShl {th gd w rd ra amt s} : exec (.ngShiShl th gd w rd ra amt) s = execNgShiShl th gd w rd ra amt s := rfl
@[simp] theorem exec_ngShiShr {th gd w rd ra amt s} : exec (.ngShiShr th gd w rd ra amt) s = execNgShiShr th gd w rd ra amt s := rfl
@[simp] theorem exec_ngShiSar {th gd w rd ra amt s} : exec (.ngShiSar th gd w rd ra amt) s = execNgShiSar th gd w rd ra amt s := rfl
@[simp] theorem exec_ngShiRol {th gd w rd ra amt s} : exec (.ngShiRol th gd w rd ra amt) s = execNgShiRol th gd w rd ra amt s := rfl
@[simp] theorem exec_ngCmp {th gd w mode cond pd ra rb s} : exec (.ngCmp th gd w mode cond pd ra rb) s = execNgCmp th gd w mode cond pd ra rb s := rfl
@[simp] theorem exec_ngCmpi {th gd w mode cond pd ra imm s} : exec (.ngCmpi th gd w mode cond pd ra imm) s = execNgCmpi th gd w mode cond pd ra imm s := rfl
@[simp] theorem exec_ngPlog {th gd pop pd pa pb s} : exec (.ngPlog th gd pop pd pa pb) s = execNgPlog th gd pop pd pa pb s := rfl
@[simp] theorem exec_ngExtu {th gd rd ra pos wm1 s} : exec (.ngExtu th gd rd ra pos wm1) s = execNgExtu th gd rd ra pos wm1 s := rfl
@[simp] theorem exec_ngExts {th gd rd ra pos wm1 s} : exec (.ngExts th gd rd ra pos wm1) s = execNgExts th gd rd ra pos wm1 s := rfl
@[simp] theorem exec_ngIns {th gd rd ra pos wm1 s} : exec (.ngIns th gd rd ra pos wm1) s = execNgIns th gd rd ra pos wm1 s := rfl
@[simp] theorem exec_ngBswap16 {th gd w rd ra s} : exec (.ngBswap16 th gd w rd ra) s = execNgBswap16 th gd w rd ra s := rfl
@[simp] theorem exec_ngBswap32 {th gd w rd ra s} : exec (.ngBswap32 th gd w rd ra) s = execNgBswap32 th gd w rd ra s := rfl
@[simp] theorem exec_ngBswap64 {th gd rd ra s} : exec (.ngBswap64 th gd rd ra) s = execNgBswap64 th gd rd ra s := rfl
@[simp] theorem exec_ngClz {th gd w rd ra s} : exec (.ngClz th gd w rd ra) s = execNgClz th gd w rd ra s := rfl
@[simp] theorem exec_ngCtz {th gd w rd ra s} : exec (.ngCtz th gd w rd ra) s = execNgCtz th gd w rd ra s := rfl
@[simp] theorem exec_ngPopc {th gd w rd ra s} : exec (.ngPopc th gd w rd ra) s = execNgPopc th gd w rd ra s := rfl
@[simp] theorem exec_ngCrc32cB {th gd rd ra rb s} : exec (.ngCrc32cB th gd rd ra rb) s = execNgCrc32cB th gd rd ra rb s := rfl
@[simp] theorem exec_ngCrc32cW {th gd rd ra rb s} : exec (.ngCrc32cW th gd rd ra rb) s = execNgCrc32cW th gd rd ra rb s := rfl
@[simp] theorem exec_ngCrc32cD {th gd rd ra rb s} : exec (.ngCrc32cD th gd rd ra rb) s = execNgCrc32cD th gd rd ra rb s := rfl
@[simp] theorem exec_ngCsadd {th gd rd ra rb s} : exec (.ngCsadd th gd rd ra rb) s = execNgCsadd th gd rd ra rb s := rfl
@[simp] theorem exec_ngCsfold {th gd w rd ra s} : exec (.ngCsfold th gd w rd ra) s = execNgCsfold th gd w rd ra s := rfl
@[simp] theorem exec_ngSel {th gd n neg rd ra rb s} : exec (.ngSel th gd n neg rd ra rb) s = execNgSel th gd n neg rd ra rb s := rfl
@[simp] theorem exec_ngBr {th gd off s} : exec (.ngBr th gd off) s = execNgBr th gd off s := rfl
@[simp] theorem exec_ngCall {th gd off s} : exec (.ngCall th gd off) s = execNgCall th gd off s := rfl
@[simp] theorem exec_ngJr {th gd rd ra imm s} : exec (.ngJr th gd rd ra imm) s = execNgJr th gd rd ra imm s := rfl
@[simp] theorem exec_ngLdl {th gd sz sx rd ra off s} : exec (.ngLdl th gd sz sx rd ra off) s = execNgLdl th gd sz sx rd ra off s := rfl
@[simp] theorem exec_ngStl {th gd sz rs ra off s} : exec (.ngStl th gd sz rs ra off) s = execNgStl th gd sz rs ra off s := rfl
@[simp] theorem exec_ngLdp {th gd sz be rd ra off s} : exec (.ngLdp th gd sz be rd ra off) s = execNgLdp th gd sz be rd ra off s := rfl
@[simp] theorem exec_ngLk {th gd tk tref ra rb s} : exec (.ngLk th gd tk tref ra rb) s = execNgLk th gd tk tref ra rb s := rfl
@[simp] theorem exec_ngLks {th gd tk tref ra rb s} : exec (.ngLks th gd tk tref ra rb) s = execNgLks th gd tk tref ra rb s := rfl
@[simp] theorem exec_ngLkc {th gd tk s} : exec (.ngLkc th gd tk) s = execNgLkc th gd tk s := rfl
@[simp] theorem exec_ngTrd {th gd tk tref ra rb s} : exec (.ngTrd th gd tk tref ra rb) s = execNgTrd th gd tk tref ra rb s := rfl
@[simp] theorem exec_ngReach {th gd tk ra rb s} : exec (.ngReach th gd tk ra rb) s = execNgReach th gd tk ra rb s := rfl
@[simp] theorem exec_ngHrd {th gd tk ra rb s} : exec (.ngHrd th gd tk ra rb) s = execNgHrd th gd tk ra rb s := rfl
@[simp] theorem exec_ngCsrrd {th gd is32 tk ra rb s} : exec (.ngCsrrd th gd is32 tk ra rb) s = execNgCsrrd th gd is32 tk ra rb s := rfl
@[simp] theorem exec_ngTkst {th gd tk rd s} : exec (.ngTkst th gd tk rd) s = execNgTkst th gd tk rd s := rfl
@[simp] theorem exec_ngTkpeek {th gd tk rd s} : exec (.ngTkpeek th gd tk rd) s = execNgTkpeek th gd tk rd s := rfl
@[simp] theorem exec_ngTktest {th gd tk pd s} : exec (.ngTktest th gd tk pd) s = execNgTktest th gd tk pd s := rfl
@[simp] theorem exec_ngTkcan {th gd tk s} : exec (.ngTkcan th gd tk) s = execNgTkcan th gd tk s := rfl
@[simp] theorem exec_ngRddtb {th gd rd s} : exec (.ngRddtb th gd rd) s = execNgRddtb th gd rd s := rfl
@[simp] theorem exec_ngSettc {th gd ra s} : exec (.ngSettc th gd ra) s = execNgSettc th gd ra s := rfl
@[simp] theorem exec_ngRdtc {th gd rd s} : exec (.ngRdtc th gd rd) s = execNgRdtc th gd rd s := rfl
@[simp] theorem exec_ngWaitt {th gd rd rb s} : exec (.ngWaitt th gd rd rb) s = execNgWaitt th gd rd rb s := rfl
@[simp] theorem exec_ngHapp {th gd ra s} : exec (.ngHapp th gd ra) s = execNgHapp th gd ra s := rfl
@[simp] theorem exec_ngHclr {th gd s} : exec (.ngHclr th gd) s = execNgHclr th gd s := rfl
@[simp] theorem exec_ngHpop {th gd s} : exec (.ngHpop th gd) s = execNgHpop th gd s := rfl
@[simp] theorem exec_ngVerdict {th gd tk ra rb s} : exec (.ngVerdict th gd tk ra rb) s = execNgVerdict th gd tk ra rb s := rfl
@[simp] theorem exec_ngSaqry {th gd tk ra rb s} : exec (.ngSaqry th gd tk ra rb) s = execNgSaqry th gd tk ra rb s := rfl
@[simp] theorem exec_ngTwrInsert {th gd tref ra rb s} : exec (.ngTwrInsert th gd tref ra rb) s = execNgTwrInsert th gd tref ra rb s := rfl
@[simp] theorem exec_ngTwrModify {th gd tref ra rb s} : exec (.ngTwrModify th gd tref ra rb) s = execNgTwrModify th gd tref ra rb s := rfl
@[simp] theorem exec_ngTwrDelete {th gd tref ra s} : exec (.ngTwrDelete th gd tref ra) s = execNgTwrDelete th gd tref ra s := rfl
@[simp] theorem exec_ngCntaEntry {th gd tref ra rb s} : exec (.ngCntaEntry th gd tref ra rb) s = execNgCntaEntry th gd tref ra rb s := rfl
@[simp] theorem exec_ngCntaProg {th gd ra rb s} : exec (.ngCntaProg th gd ra rb) s = execNgCntaProg th gd ra rb s := rfl
@[simp] theorem exec_ngAtom {th gd tref ra s} : exec (.ngAtom th gd tref ra) s = execNgAtom th gd tref ra s := rfl
@[simp] theorem exec_ngEmit {th gd ra rb s} : exec (.ngEmit th gd ra rb) s = execNgEmit th gd ra rb s := rfl
@[simp] theorem exec_ngEmitEnd {th gd ra rb s} : exec (.ngEmitEnd th gd ra rb) s = execNgEmitEnd th gd ra rb s := rfl
@[simp] theorem exec_ngDisc {th gd ra s} : exec (.ngDisc th gd ra) s = execNgDisc th gd ra s := rfl
@[simp] theorem exec_ngDiscEnd {th gd ra s} : exec (.ngDiscEnd th gd ra) s = execNgDiscEnd th gd ra s := rfl
@[simp] theorem exec_ngDmawImmediate {th gd ra rb s} : exec (.ngDmawImmediate th gd ra rb) s = execNgDmawImmediate th gd ra rb s := rfl
@[simp] theorem exec_ngDmawRange {th gd ra s} : exec (.ngDmawRange th gd ra) s = execNgDmawRange th gd ra s := rfl
@[simp] theorem exec_ngMbxp {th gd ra rb s} : exec (.ngMbxp th gd ra rb) s = execNgMbxp th gd ra rb s := rfl
@[simp] theorem exec_ngCsrw {th gd is32 ra rb s} : exec (.ngCsrw th gd is32 ra rb) s = execNgCsrw th gd is32 ra rb s := rfl
@[simp] theorem exec_ngSaup {th gd ra rb s} : exec (.ngSaup th gd ra rb) s = execNgSaup th gd ra rb s := rfl
@[simp] theorem exec_ngEvt {th gd ra s} : exec (.ngEvt th gd ra) s = execNgEvt th gd ra s := rfl
@[simp] theorem exec_ngEnd {th gd s} : exec (.ngEnd th gd) s = execNgEnd th gd s := rfl
@[simp] theorem exec_ngFnpop {th gd rd ra s} : exec (.ngFnpop th gd rd ra) s = execNgFnpop th gd rd ra s := rfl
@[simp] theorem exec_ngThctl {th gd ra rb s} : exec (.ngThctl th gd ra rb) s = execNgThctl th gd ra rb s := rfl
@[simp] theorem exec_ngSstd {th gd ra rb s} : exec (.ngSstd th gd ra rb) s = execNgSstd th gd ra rb s := rfl
@[simp] theorem exec_ngHretry {th gd s} : exec (.ngHretry th gd) s = execNgHretry th gd s := rfl
@[simp] theorem exec_ngHskip {th gd s} : exec (.ngHskip th gd) s = execNgHskip th gd s := rfl
@[simp] theorem exec_ngHdisc {th gd ra s} : exec (.ngHdisc th gd ra) s = execNgHdisc th gd ra s := rfl
@[simp] theorem exec_ngHesc {th gd s} : exec (.ngHesc th gd) s = execNgHesc th gd s := rfl
@[simp] theorem exec_ngRdfk {th gd rd s} : exec (.ngRdfk th gd rd) s = execNgRdfk th gd rd s := rfl
@[simp] theorem exec_migrationRestore {p inst kek size img s} : exec (.migrationRestore p inst kek size img) s = execMigrationRestore p inst kek size img s := rfl
@[simp] theorem exec_remoteFault {p far s} : exec (.remoteFault p far) s = execRemoteFault p far s := rfl
@[simp] theorem exec_pfcStormEnd {p c s} : exec (.pfcStormEnd p c) s = execPfcStormEnd p c s := rfl
@[simp] theorem exec_timeDiverged {s} : exec .timeDiverged s = execTimeDiverged s := rfl
@[simp] theorem exec_gblLineAwake {s} : exec .gblLineAwake s = execGblLineAwake s := rfl
@[simp] theorem exec_islandResetEnd {n s} : exec (.islandResetEnd n) s = execIslandResetEnd n s := rfl
@[simp] theorem exec_ideKmMessage {h x act s} : exec (.ideKmMessage h x act) s = execIdeKmMessage h x act s := rfl
@[simp] theorem exec_spdmSessionEnd {c s} : exec (.spdmSessionEnd c) s = execSpdmSessionEnd c s := rfl
@[simp] theorem exec_latchedWake {s} : exec .latchedWake s = execLatchedWake s := rfl
@[simp] theorem exec_d0Entry {f s} : exec (.d0Entry f) s = execD0Entry f s := rfl

end Sys2Proof.Laws
end

