-- ==== Sys2Proof/Laws/Tbl.lean ====
section
/-!
SUPPORT. Sparse tables: what a read after a write gives, and that every write keeps the canonical form.
-/
namespace Sys2Proof.Machine

theorem cellGet_cellPut_same {α : Type} (t : List (Nat × α)) (k : Nat) (v : α) : cellGet (cellPut t k v) k = some v := by
  induction t with
  | nil => simp [cellPut, cellGet]
  | cons c t ih =>
    obtain ⟨j, w⟩ := c
    simp only [cellPut]
    split
    · simp [cellGet]
    · split
      · simp [cellGet]
      · simp [cellGet, ih, Ne.symm ‹k ≠ j›]

theorem cellGet_cellPut_ne {α : Type} (t : List (Nat × α)) (k j : Nat) (v : α) (h : j ≠ k) :
    cellGet (cellPut t k v) j = cellGet t j := by
  induction t with
  | nil => simp [cellPut, cellGet, Ne.symm h]
  | cons c t ih =>
    obtain ⟨i, w⟩ := c
    simp only [cellPut]
    split
    · simp [cellGet, Ne.symm h]
    · split
      · subst_vars; simp [cellGet, Ne.symm h]
      · simp [cellGet, ih]

theorem cellGet_cellDel_same {α : Type} (t : List (Nat × α)) (k : Nat) : cellGet (cellDel t k) k = none := by
  induction t with
  | nil => rfl
  | cons c t ih =>
    obtain ⟨j, w⟩ := c
    simp only [cellDel]
    split
    · exact ih
    · simp [cellGet, *]

theorem cellGet_cellDel_ne {α : Type} (t : List (Nat × α)) (k j : Nat) (h : j ≠ k) : cellGet (cellDel t k) j = cellGet t j := by
  induction t with
  | nil => rfl
  | cons c t ih =>
    obtain ⟨i, w⟩ := c
    simp only [cellDel]
    split
    · subst_vars; simp [cellGet, ih, Ne.symm h]
    · simp [cellGet, ih]

/-- A write reads back, an unlisted key standing for the default. -/
theorem cellSet_get_same {α : Type} [DecidableEq α] (d : α) (t : List (Nat × α)) (k : Nat) (v : α) :
    (cellGet (cellSet d t k v) k).getD d = v := by
  unfold cellSet
  split
  · simp [cellGet_cellDel_same, *]
  · simp [cellGet_cellPut_same]

/-- A write leaves every other key alone. -/
theorem cellSet_get_ne {α : Type} [DecidableEq α] (d : α) (t : List (Nat × α)) (k j : Nat) (v : α) (h : j ≠ k) :
    cellGet (cellSet d t k v) j = cellGet t j := by
  unfold cellSet
  split
  · exact cellGet_cellDel_ne t k j h
  · exact cellGet_cellPut_ne t k j v h

@[simp] theorem Tbl.get_set_same {α : Type} [Inhabited α] [DecidableEq α] (t : Tbl α) (k : Nat) (v : α) : (t.set k v).get k = v :=
  cellSet_get_same default t.cells k v

theorem Tbl.get_set_ne {α : Type} [Inhabited α] [DecidableEq α] (t : Tbl α) (k j : Nat) (v : α) (h : j ≠ k) :
    (t.set k v).get j = t.get j := by
  simp [Tbl.get, Tbl.set, cellSet_get_ne default t.cells k j v h]

/-- A table's read after a write. -/
theorem Tbl.get_set {α : Type} [Inhabited α] [DecidableEq α] (t : Tbl α) (k j : Nat) (v : α) :
    (t.set k v).get j = if j = k then v else t.get j := by
  split
  · subst_vars; exact Tbl.get_set_same t _ v
  · exact Tbl.get_set_ne t k j v ‹_›

@[simp] theorem Tbl.get_empty {α : Type} [Inhabited α] (k : Nat) : ({} : Tbl α).get k = default := rfl

/-! ### The canonical form -/

/-- A key lies above the one before it. -/
def above (lo : Option Nat) (k : Nat) : Prop := ∀ l, lo = some l → l < k

theorem cellsWf_cons {α : Type} [DecidableEq α] (d : Nat → α) (lo : Option Nat) (k : Nat) (v : α) (t : List (Nat × α)) :
    cellsWf d lo ((k, v) :: t) = true ↔ above lo k ∧ v ≠ d k ∧ cellsWf d (some k) t = true := by
  cases lo <;> simp [cellsWf, above, and_assoc]

theorem cellsWf_cellPut {α : Type} [DecidableEq α] (d : Nat → α) (t : List (Nat × α)) (lo : Option Nat) (k : Nat) (v : α)
    (h : cellsWf d lo t = true) (hv : v ≠ d k) (hlo : above lo k) : cellsWf d lo (cellPut t k v) = true := by
  induction t generalizing lo with
  | nil => exact (cellsWf_cons ..).2 ⟨hlo, hv, rfl⟩
  | cons c t ih =>
    obtain ⟨j, w⟩ := c
    obtain ⟨h1, h2, h3⟩ := (cellsWf_cons ..).1 h
    simp only [cellPut]
    split
    · exact (cellsWf_cons ..).2 ⟨hlo, hv, (cellsWf_cons ..).2 ⟨fun l hl => by cases hl; assumption, h2, h3⟩⟩
    · split
      · subst_vars; exact (cellsWf_cons ..).2 ⟨hlo, hv, h3⟩
      · exact (cellsWf_cons ..).2 ⟨h1, h2, ih (some j) h3 fun l hl => by cases hl; omega⟩

theorem cellsWf_mono {α : Type} [DecidableEq α] (d : Nat → α) (t : List (Nat × α)) (lo : Option Nat) (k : Nat)
    (h : cellsWf d (some k) t = true) (hk : above lo k) : cellsWf d lo t = true := by
  cases t with
  | nil => rfl
  | cons c t =>
    obtain ⟨j, w⟩ := c
    obtain ⟨h1, h2, h3⟩ := (cellsWf_cons ..).1 h
    exact (cellsWf_cons ..).2 ⟨fun l hl => Nat.lt_trans (hk l hl) (h1 k rfl), h2, h3⟩

theorem cellsWf_cellDel {α : Type} [DecidableEq α] (d : Nat → α) (t : List (Nat × α)) (lo : Option Nat) (k : Nat)
    (h : cellsWf d lo t = true) : cellsWf d lo (cellDel t k) = true := by
  induction t generalizing lo with
  | nil => rfl
  | cons c t ih =>
    obtain ⟨j, w⟩ := c
    obtain ⟨h1, h2, h3⟩ := (cellsWf_cons ..).1 h
    simp only [cellDel]
    split
    · exact ih lo (cellsWf_mono d t lo j h3 h1)
    · exact (cellsWf_cons ..).2 ⟨h1, h2, ih (some j) h3⟩

/-- A write where an unlisted key reads as its default keeps the canonical form. -/
theorem cellsWf_cellSet {α : Type} [DecidableEq α] (d : Nat → α) (t : List (Nat × α)) (k : Nat) (v : α)
    (h : cellsWf d none t = true) : cellsWf d none (cellSet (d k) t k v) = true := by
  unfold cellSet
  split
  · exact cellsWf_cellDel _ _ _ _ h
  · exact cellsWf_cellPut _ _ _ _ _ h ‹_› (fun l hl => by cases hl)

/-- Every write of a table keeps its canonical form. -/
theorem Tbl.set_wf {α : Type} [Inhabited α] [DecidableEq α] (t : Tbl α) (k : Nat) (v : α) (h : t.wf = true) : (t.set k v).wf = true :=
  cellsWf_cellSet (fun _ => default) t.cells k v h

theorem Tbl.modify_wf {α : Type} [Inhabited α] [DecidableEq α] (t : Tbl α) (k : Nat) (f : α → α) (h : t.wf = true) :
    (t.modify k f).wf = true := Tbl.set_wf t k _ h

theorem Tbl.empty_wf {α : Type} [Inhabited α] [DecidableEq α] : ({} : Tbl α).wf = true := rfl

theorem foldl_set_wf {α β : Type} [Inhabited α] [DecidableEq α] (g : β → Nat) (f : β → α) (l : List β) (u : Tbl α)
    (h : u.wf = true) : (l.foldl (fun u c => u.set (g c) (f c)) u).wf = true := by
  induction l generalizing u with
  | nil => exact h
  | cons c l ih => exact ih _ (Tbl.set_wf u _ _ h)

theorem Tbl.mapListed_wf {α : Type} [Inhabited α] [DecidableEq α] (t : Tbl α) (f : Nat → α → α) (h : t.wf = true) :
    (t.mapListed f).wf = true := foldl_set_wf (β := Nat × α) (fun c => c.1) (fun c => f c.1 c.2) t.cells t h

end Sys2Proof.Machine
end

