-- ==== Sys2Proof/Laws/Regs.lean ====
section
/-!
SUPPORT. Registers and their fields: what a read gives after a write of the same field, of another field and of another register, and
that a write keeps the canonical form of the register list.
-/
namespace Sys2Proof.Machine

/-! ### Bit fields of numbers -/

theorem bits_testBit (v lo w i : Nat) : (bits v lo w).testBit i = (decide (i < w) && v.testBit (lo + i)) := by
  simp [bits, Nat.testBit_mod_two_pow, Nat.testBit_div_two_pow, Nat.add_comm]

theorem setBits_eq (v lo w x : Nat) :
    setBits v lo w x = 2 ^ lo * (2 ^ w * (v / 2 ^ (lo + w)) + x % 2 ^ w) + v % 2 ^ lo := by
  have h1 : v = 2 ^ lo * (v / 2 ^ lo) + v % 2 ^ lo := (Nat.div_add_mod v (2 ^ lo)).symm
  have h2 : v / 2 ^ lo = 2 ^ w * (v / 2 ^ lo / 2 ^ w) + v / 2 ^ lo % 2 ^ w := (Nat.div_add_mod _ _).symm
  have h3 : v / 2 ^ lo / 2 ^ w = v / 2 ^ (lo + w) := by rw [Nat.div_div_eq_div_mul, Nat.pow_add]
  unfold setBits bits
  rw [h3] at h2
  have hm : 2 ^ lo * (v / 2 ^ lo) = 2 ^ lo * (2 ^ w * (v / 2 ^ (lo + w))) + v / 2 ^ lo % 2 ^ w * 2 ^ lo := by
    conv => lhs; rw [h2]
    rw [Nat.mul_add, Nat.mul_comm (v / 2 ^ lo % 2 ^ w)]
  have hx : 2 ^ lo * (x % 2 ^ w) = x % 2 ^ w * 2 ^ lo := Nat.mul_comm _ _
  rw [Nat.mul_add, hx]
  omega

theorem setBits_testBit (v lo w x i : Nat) :
    (setBits v lo w x).testBit i = if lo ≤ i ∧ i < lo + w then x.testBit (i - lo) else v.testBit i := by
  rw [setBits_eq, Nat.testBit_two_pow_mul_add _ (Nat.mod_lt _ (Nat.two_pow_pos lo)),
    Nat.testBit_two_pow_mul_add _ (Nat.mod_lt _ (Nat.two_pow_pos w))]
  simp only [Nat.testBit_mod_two_pow, Nat.testBit_div_two_pow]
  by_cases h1 : i < lo
  · simp [h1, Nat.not_le.2 h1]
  · by_cases h2 : i < lo + w
    · simp [h1, show i - lo < w by omega, show lo ≤ i by omega, h2]
    · simp [h1, show ¬ i - lo < w by omega, h2, show i - lo - w + (lo + w) = i by omega]

theorem bits_lt (v lo w : Nat) : bits v lo w < 2 ^ w := Nat.mod_lt _ (Nat.two_pow_pos w)

/-- A field written reads back, at its width. -/
theorem bits_setBits_same (v lo w x : Nat) : bits (setBits v lo w x) lo w = x % 2 ^ w := by
  apply Nat.eq_of_testBit_eq
  intro i
  simp only [bits_testBit, setBits_testBit, Nat.testBit_mod_two_pow]
  by_cases h : i < w <;> simp [h]

/-- A field written leaves the fields beside it alone. -/
theorem bits_setBits_ne (v lo w x lo' w' : Nat) (h : lo' + w' ≤ lo ∨ lo + w ≤ lo') :
    bits (setBits v lo w x) lo' w' = bits v lo' w' := by
  apply Nat.eq_of_testBit_eq
  intro i
  simp only [bits_testBit, setBits_testBit]
  by_cases hi : i < w'
  · have hn : ¬ (lo ≤ lo' + i ∧ lo' + i < lo + w) := by omega
    simp [hn]
  · simp [hi]

/-- A truncation beyond a field leaves it alone. -/
theorem bits_mod (v lo w n : Nat) (h : lo + w ≤ n) : bits (v % 2 ^ n) lo w = bits v lo w := by
  apply Nat.eq_of_testBit_eq
  intro i
  simp only [bits_testBit, Nat.testBit_mod_two_pow]
  by_cases hi : i < w
  · simp [hi, show lo + i < n by omega]
  · simp [hi]

@[simp] theorem b2n_true : b2n true = 1 := rfl
@[simp] theorem b2n_false : b2n false = 0 := rfl

/-! ### Keys -/

theorem Reg.ctorIdx_lt (r : Reg) : r.ctorIdx < 512 := by cases r <;> decide

theorem Reg.ctorIdx_inj {r r' : Reg} (h : r.ctorIdx = r'.ctorIdx) : r = r' := by
  rw [← Reg.ofNat_ctorIdx r, h, Reg.ofNat_ctorIdx]

theorem Ctr.ctorIdx_lt (c : Ctr) : c.ctorIdx < 512 := by cases c <;> decide

theorem Ctr.ctorIdx_inj {c c' : Ctr} (h : c.ctorIdx = c'.ctorIdx) : c = c' := by
  rw [← Ctr.ofNat_ctorIdx c, h, Ctr.ofNat_ctorIdx]

/-- Registers are kept under one key each. -/
theorem Reg.key_inj {r r' : Reg} {i j : Nat} (h : r.key i = r'.key j) : r = r' ∧ i = j := by
  have h1 := r.ctorIdx_lt
  have h2 := r'.ctorIdx_lt
  unfold Reg.key at h
  have : i = j := by omega
  exact ⟨Reg.ctorIdx_inj (by omega), this⟩

/-- Counters are kept under one key each. -/
theorem Ctr.key_inj {c c' : Ctr} {i j : Nat} (h : c.key i = c'.key j) : c = c' ∧ i = j := by
  have h1 := c.ctorIdx_lt
  have h2 := c'.ctorIdx_lt
  unfold Ctr.key at h
  have : i = j := by omega
  exact ⟨Ctr.ctorIdx_inj (by omega), this⟩

/-! ### Registers -/

@[simp] theorem Dev.rd_wr_same (d : Dev) (r : Reg) (i v : Nat) : (d.wr r i v).rd r i = v % 2 ^ r.width :=
  cellSet_get_same (r.reset i) d.regs (r.key i) (v % 2 ^ r.width)

theorem Dev.rd_wr_ne (d : Dev) (r r' : Reg) (i j v : Nat) (h : r' ≠ r ∨ j ≠ i) : (d.wr r i v).rd r' j = d.rd r' j := by
  have hk : r'.key j ≠ r.key i := fun e => by
    obtain ⟨h1, h2⟩ := Reg.key_inj e
    cases h with
    | inl h => exact h h1
    | inr h => exact h h2
  simp [Dev.rd, Dev.wr, cellSet_get_ne _ _ _ _ _ hk]

/-- A field written reads back at its width. -/
theorem Dev.get_put_same (d : Dev) (f : Fld) (i v : Nat) (h : f.lo + f.w ≤ f.reg.width) : (d.put f i v).get f i = v % 2 ^ f.w := by
  simp only [Dev.get, Dev.put, Dev.rd_wr_same]
  rw [bits_mod _ _ _ _ h, bits_setBits_same]

/-- A field written leaves another field, register or element alone. -/
theorem Dev.get_put_ne (d : Dev) (f f' : Fld) (i j v : Nat)
    (h : f'.reg ≠ f.reg ∨ j ≠ i ∨ (f'.lo + f'.w ≤ f'.reg.width ∧ (f'.lo + f'.w ≤ f.lo ∨ f.lo + f.w ≤ f'.lo))) :
    (d.put f i v).get f' j = d.get f' j := by
  by_cases hr : f'.reg = f.reg ∧ j = i
  · obtain ⟨h1, h2⟩ := hr
    subst h2
    have h3 : f'.lo + f'.w ≤ f'.reg.width ∧ (f'.lo + f'.w ≤ f.lo ∨ f.lo + f.w ≤ f'.lo) := by
      rcases h with h | h | h
      · exact absurd h1 h
      · exact absurd rfl h
      · exact h
    unfold Dev.get Dev.put
    rw [h1, Dev.rd_wr_same, ← h1, bits_mod _ _ _ _ h3.1, bits_setBits_ne _ _ _ _ _ _ h3.2]
  · unfold Dev.get Dev.put
    rw [Dev.rd_wr_ne]
    by_cases h1 : f'.reg = f.reg
    · exact Or.inr fun e => hr ⟨h1, e⟩
    · exact Or.inl h1

/-- A field written leaves another register alone. -/
theorem Dev.rd_put_ne (d : Dev) (f : Fld) (r : Reg) (i j v : Nat) (h : r ≠ f.reg ∨ j ≠ i) : (d.put f i v).rd r j = d.rd r j :=
  Dev.rd_wr_ne d f.reg r i j _ h

/-- The register list is in its canonical form. -/
def Dev.regsWf (d : Dev) : Bool := cellsWf regDefault none d.regs

theorem regDefault_key (r : Reg) (i : Nat) : regDefault (r.key i) = r.reset i := by
  have h : r.key i % 512 = r.ctorIdx ∧ r.key i / 512 = i := by
    have := r.ctorIdx_lt
    unfold Reg.key
    omega
  have ha : Reg.all[r.ctorIdx]? = some r := by cases r <;> rfl
  simp [regDefault, h.1, h.2, ha]

/-- A register write keeps the canonical form. -/
theorem Dev.wr_regsWf (d : Dev) (r : Reg) (i v : Nat) (h : d.regsWf = true) : (d.wr r i v).regsWf = true := by
  unfold Dev.regsWf Dev.wr
  rw [← regDefault_key r i]
  exact cellsWf_cellSet regDefault d.regs (r.key i) _ h

theorem Dev.put_regsWf (d : Dev) (f : Fld) (i v : Nat) (h : d.regsWf = true) : (d.put f i v).regsWf = true :=
  Dev.wr_regsWf d f.reg i _ h

/-! ### Counters -/

@[simp] theorem Dev.cnt_setCnt_same (d : Dev) (c : Ctr) (i v : Nat) : (d.setCnt c i v).cnt c i = v := Tbl.get_set_same d.ctrs (c.key i) v

theorem Dev.cnt_setCnt_ne (d : Dev) (c c' : Ctr) (i j v : Nat) (h : c' ≠ c ∨ j ≠ i) : (d.setCnt c i v).cnt c' j = d.cnt c' j := by
  refine Tbl.get_set_ne d.ctrs _ _ v fun e => ?_
  obtain ⟨h1, h2⟩ := Ctr.key_inj e
  cases h with
  | inl h => exact h h1
  | inr h => exact h h2

end Sys2Proof.Machine
end

