-- ==== Sys2Proof/Laws/State.lean ====
section
/-!
SUPPORT. What each update of the device leaves alone: one lemma per part per update.
-/
namespace Sys2Proof.Machine

@[simp] theorem State.on_eq (s : State) (f : Dev → Dev) : s.on f = .next { s with dev := f s.dev } := rfl

theorem Dev.onIsland_up (d : Dev) (n : Nat) (f : Dev → Dev) (h : d.isUp n = true) : d.onIsland n f = f d := by
  simp [Dev.onIsland, h]

theorem Dev.onIsland_down (d : Dev) (n : Nat) (f : Dev → Dev) (h : d.isUp n = false) : d.onIsland n f = d := by
  simp [Dev.onIsland, h]

theorem Dev.byWrite_live (d : Dev) (r : Reg) (i : Nat) (f : Dev → Dev) (h : d.halted = false) : d.byWrite r i f = f d := by
  simp [Dev.byWrite, h]

theorem Dev.byWrite_halted (d : Dev) (r : Reg) (i : Nat) (f : Dev → Dev) (h : d.halted = true) :
    d.byWrite r i f = d.ignored r i cLOCKED := by
  simp [Dev.byWrite, h]

/-! When a register is written -/
@[simp] theorem Dev.wr_ctrs (d : Dev) (r : Reg) (i v : Nat) : (d.wr r i v).ctrs = d.ctrs := rfl
@[simp] theorem Dev.wr_closed (d : Dev) (r : Reg) (i v : Nat) : (d.wr r i v).closed = d.closed := rfl
@[simp] theorem Dev.wr_rlatch (d : Dev) (r : Reg) (i v : Nat) : (d.wr r i v).rlatch = d.rlatch := rfl
@[simp] theorem Dev.wr_wlatch (d : Dev) (r : Reg) (i v : Nat) : (d.wr r i v).wlatch = d.wlatch := rfl
@[simp] theorem Dev.wr_epoch (d : Dev) (r : Reg) (i v : Nat) : (d.wr r i v).epoch = d.epoch := rfl
@[simp] theorem Dev.wr_wins (d : Dev) (r : Reg) (i v : Nat) : (d.wr r i v).wins = d.wins := rfl
@[simp] theorem Dev.wr_sys (d : Dev) (r : Reg) (i v : Nat) : (d.wr r i v).sys = d.sys := rfl
@[simp] theorem Dev.wr_evq (d : Dev) (r : Reg) (i v : Nat) : (d.wr r i v).evq = d.evq := rfl
@[simp] theorem Dev.wr_ftq (d : Dev) (r : Reg) (i v : Nat) : (d.wr r i v).ftq = d.ftq := rfl
@[simp] theorem Dev.wr_out (d : Dev) (r : Reg) (i v : Nat) : (d.wr r i v).out = d.out := rfl
@[simp] theorem Dev.wr_ths (d : Dev) (r : Reg) (i v : Nat) : (d.wr r i v).ths = d.ths := rfl
@[simp] theorem Dev.wr_cores (d : Dev) (r : Reg) (i v : Nat) : (d.wr r i v).cores = d.cores := rfl
@[simp] theorem Dev.wr_pods (d : Dev) (r : Reg) (i v : Nat) : (d.wr r i v).pods = d.pods := rfl
@[simp] theorem Dev.wr_shl (d : Dev) (r : Reg) (i v : Nat) : (d.wr r i v).shl = d.shl := rfl
@[simp] theorem Dev.wr_slots (d : Dev) (r : Reg) (i v : Nat) : (d.wr r i v).slots = d.slots := rfl
@[simp] theorem Dev.wr_trefs (d : Dev) (r : Reg) (i v : Nat) : (d.wr r i v).trefs = d.trefs := rfl
@[simp] theorem Dev.wr_lastVer (d : Dev) (r : Reg) (i v : Nat) : (d.wr r i v).lastVer = d.lastVer := rfl
@[simp] theorem Dev.wr_items (d : Dev) (r : Reg) (i v : Nat) : (d.wr r i v).items = d.items := rfl
@[simp] theorem Dev.wr_cmsgs (d : Dev) (r : Reg) (i v : Nat) : (d.wr r i v).cmsgs = d.cmsgs := rfl
@[simp] theorem Dev.wr_effq (d : Dev) (r : Reg) (i v : Nat) : (d.wr r i v).effq = d.effq := rfl
@[simp] theorem Dev.wr_applied (d : Dev) (r : Reg) (i v : Nat) : (d.wr r i v).applied = d.applied := rfl
@[simp] theorem Dev.wr_buf (d : Dev) (r : Reg) (i v : Nat) : (d.wr r i v).buf = d.buf := rfl
@[simp] theorem Dev.wr_tbl (d : Dev) (r : Reg) (i v : Nat) : (d.wr r i v).tbl = d.tbl := rfl
@[simp] theorem Dev.wr_cry (d : Dev) (r : Reg) (i v : Nat) : (d.wr r i v).cry = d.cry := rfl
@[simp] theorem Dev.wr_saDir (d : Dev) (r : Reg) (i v : Nat) : (d.wr r i v).saDir = d.saDir := rfl
@[simp] theorem Dev.wr_hst (d : Dev) (r : Reg) (i v : Nat) : (d.wr r i v).hst = d.hst := rfl
@[simp] theorem Dev.wr_net (d : Dev) (r : Reg) (i v : Nat) : (d.wr r i v).net = d.net := rfl
@[simp] theorem Dev.wr_grp (d : Dev) (r : Reg) (i v : Nat) : (d.wr r i v).grp = d.grp := rfl
@[simp] theorem Dev.wr_stw (d : Dev) (r : Reg) (i v : Nat) : (d.wr r i v).stw = d.stw := rfl
@[simp] theorem Dev.wr_fc (d : Dev) (r : Reg) (i v : Nat) : (d.wr r i v).fc = d.fc := rfl
@[simp] theorem Dev.wr_pwr (d : Dev) (r : Reg) (i v : Nat) : (d.wr r i v).pwr = d.pwr := rfl
@[simp] theorem Dev.wr_eye (d : Dev) (r : Reg) (i v : Nat) : (d.wr r i v).eye = d.eye := rfl
@[simp] theorem Dev.wr_mgt (d : Dev) (r : Reg) (i v : Nat) : (d.wr r i v).mgt = d.mgt := rfl
@[simp] theorem Dev.wr_gp (d : Dev) (r : Reg) (i v : Nat) : (d.wr r i v).gp = d.gp := rfl
@[simp] theorem Dev.wr_gbl (d : Dev) (r : Reg) (i v : Nat) : (d.wr r i v).gbl = d.gbl := rfl
@[simp] theorem Dev.wr_isUp (d : Dev) (r : Reg) (i v : Nat) (m : Nat) : (d.wr r i v).isUp m = d.isUp m := rfl

/-! When a field is written -/
@[simp] theorem Dev.put_ctrs (d : Dev) (f : Fld) (i v : Nat) : (d.put f i v).ctrs = d.ctrs := rfl
@[simp] theorem Dev.put_closed (d : Dev) (f : Fld) (i v : Nat) : (d.put f i v).closed = d.closed := rfl
@[simp] theorem Dev.put_rlatch (d : Dev) (f : Fld) (i v : Nat) : (d.put f i v).rlatch = d.rlatch := rfl
@[simp] theorem Dev.put_wlatch (d : Dev) (f : Fld) (i v : Nat) : (d.put f i v).wlatch = d.wlatch := rfl
@[simp] theorem Dev.put_epoch (d : Dev) (f : Fld) (i v : Nat) : (d.put f i v).epoch = d.epoch := rfl
@[simp] theorem Dev.put_wins (d : Dev) (f : Fld) (i v : Nat) : (d.put f i v).wins = d.wins := rfl
@[simp] theorem Dev.put_sys (d : Dev) (f : Fld) (i v : Nat) : (d.put f i v).sys = d.sys := rfl
@[simp] theorem Dev.put_evq (d : Dev) (f : Fld) (i v : Nat) : (d.put f i v).evq = d.evq := rfl
@[simp] theorem Dev.put_ftq (d : Dev) (f : Fld) (i v : Nat) : (d.put f i v).ftq = d.ftq := rfl
@[simp] theorem Dev.put_out (d : Dev) (f : Fld) (i v : Nat) : (d.put f i v).out = d.out := rfl
@[simp] theorem Dev.put_ths (d : Dev) (f : Fld) (i v : Nat) : (d.put f i v).ths = d.ths := rfl
@[simp] theorem Dev.put_cores (d : Dev) (f : Fld) (i v : Nat) : (d.put f i v).cores = d.cores := rfl
@[simp] theorem Dev.put_pods (d : Dev) (f : Fld) (i v : Nat) : (d.put f i v).pods = d.pods := rfl
@[simp] theorem Dev.put_shl (d : Dev) (f : Fld) (i v : Nat) : (d.put f i v).shl = d.shl := rfl
@[simp] theorem Dev.put_slots (d : Dev) (f : Fld) (i v : Nat) : (d.put f i v).slots = d.slots := rfl
@[simp] theorem Dev.put_trefs (d : Dev) (f : Fld) (i v : Nat) : (d.put f i v).trefs = d.trefs := rfl
@[simp] theorem Dev.put_lastVer (d : Dev) (f : Fld) (i v : Nat) : (d.put f i v).lastVer = d.lastVer := rfl
@[simp] theorem Dev.put_items (d : Dev) (f : Fld) (i v : Nat) : (d.put f i v).items = d.items := rfl
@[simp] theorem Dev.put_cmsgs (d : Dev) (f : Fld) (i v : Nat) : (d.put f i v).cmsgs = d.cmsgs := rfl
@[simp] theorem Dev.put_effq (d : Dev) (f : Fld) (i v : Nat) : (d.put f i v).effq = d.effq := rfl
@[simp] theorem Dev.put_applied (d : Dev) (f : Fld) (i v : Nat) : (d.put f i v).applied = d.applied := rfl
@[simp] theorem Dev.put_buf (d : Dev) (f : Fld) (i v : Nat) : (d.put f i v).buf = d.buf := rfl
@[simp] theorem Dev.put_tbl (d : Dev) (f : Fld) (i v : Nat) : (d.put f i v).tbl = d.tbl := rfl
@[simp] theorem Dev.put_cry (d : Dev) (f : Fld) (i v : Nat) : (d.put f i v).cry = d.cry := rfl
@[simp] theorem Dev.put_saDir (d : Dev) (f : Fld) (i v : Nat) : (d.put f i v).saDir = d.saDir := rfl
@[simp] theorem Dev.put_hst (d : Dev) (f : Fld) (i v : Nat) : (d.put f i v).hst = d.hst := rfl
@[simp] theorem Dev.put_net (d : Dev) (f : Fld) (i v : Nat) : (d.put f i v).net = d.net := rfl
@[simp] theorem Dev.put_grp (d : Dev) (f : Fld) (i v : Nat) : (d.put f i v).grp = d.grp := rfl
@[simp] theorem Dev.put_stw (d : Dev) (f : Fld) (i v : Nat) : (d.put f i v).stw = d.stw := rfl
@[simp] theorem Dev.put_fc (d : Dev) (f : Fld) (i v : Nat) : (d.put f i v).fc = d.fc := rfl
@[simp] theorem Dev.put_pwr (d : Dev) (f : Fld) (i v : Nat) : (d.put f i v).pwr = d.pwr := rfl
@[simp] theorem Dev.put_eye (d : Dev) (f : Fld) (i v : Nat) : (d.put f i v).eye = d.eye := rfl
@[simp] theorem Dev.put_mgt (d : Dev) (f : Fld) (i v : Nat) : (d.put f i v).mgt = d.mgt := rfl
@[simp] theorem Dev.put_gp (d : Dev) (f : Fld) (i v : Nat) : (d.put f i v).gp = d.gp := rfl
@[simp] theorem Dev.put_gbl (d : Dev) (f : Fld) (i v : Nat) : (d.put f i v).gbl = d.gbl := rfl
@[simp] theorem Dev.put_isUp (d : Dev) (f : Fld) (i v : Nat) (m : Nat) : (d.put f i v).isUp m = d.isUp m := rfl

/-! When a counter is set -/
@[simp] theorem Dev.setCnt_regs (d : Dev) (c : Ctr) (i v : Nat) : (d.setCnt c i v).regs = d.regs := rfl
@[simp] theorem Dev.setCnt_closed (d : Dev) (c : Ctr) (i v : Nat) : (d.setCnt c i v).closed = d.closed := rfl
@[simp] theorem Dev.setCnt_rlatch (d : Dev) (c : Ctr) (i v : Nat) : (d.setCnt c i v).rlatch = d.rlatch := rfl
@[simp] theorem Dev.setCnt_wlatch (d : Dev) (c : Ctr) (i v : Nat) : (d.setCnt c i v).wlatch = d.wlatch := rfl
@[simp] theorem Dev.setCnt_epoch (d : Dev) (c : Ctr) (i v : Nat) : (d.setCnt c i v).epoch = d.epoch := rfl
@[simp] theorem Dev.setCnt_wins (d : Dev) (c : Ctr) (i v : Nat) : (d.setCnt c i v).wins = d.wins := rfl
@[simp] theorem Dev.setCnt_sys (d : Dev) (c : Ctr) (i v : Nat) : (d.setCnt c i v).sys = d.sys := rfl
@[simp] theorem Dev.setCnt_evq (d : Dev) (c : Ctr) (i v : Nat) : (d.setCnt c i v).evq = d.evq := rfl
@[simp] theorem Dev.setCnt_ftq (d : Dev) (c : Ctr) (i v : Nat) : (d.setCnt c i v).ftq = d.ftq := rfl
@[simp] theorem Dev.setCnt_out (d : Dev) (c : Ctr) (i v : Nat) : (d.setCnt c i v).out = d.out := rfl
@[simp] theorem Dev.setCnt_ths (d : Dev) (c : Ctr) (i v : Nat) : (d.setCnt c i v).ths = d.ths := rfl
@[simp] theorem Dev.setCnt_cores (d : Dev) (c : Ctr) (i v : Nat) : (d.setCnt c i v).cores = d.cores := rfl
@[simp] theorem Dev.setCnt_pods (d : Dev) (c : Ctr) (i v : Nat) : (d.setCnt c i v).pods = d.pods := rfl
@[simp] theorem Dev.setCnt_shl (d : Dev) (c : Ctr) (i v : Nat) : (d.setCnt c i v).shl = d.shl := rfl
@[simp] theorem Dev.setCnt_slots (d : Dev) (c : Ctr) (i v : Nat) : (d.setCnt c i v).slots = d.slots := rfl
@[simp] theorem Dev.setCnt_trefs (d : Dev) (c : Ctr) (i v : Nat) : (d.setCnt c i v).trefs = d.trefs := rfl
@[simp] theorem Dev.setCnt_lastVer (d : Dev) (c : Ctr) (i v : Nat) : (d.setCnt c i v).lastVer = d.lastVer := rfl
@[simp] theorem Dev.setCnt_items (d : Dev) (c : Ctr) (i v : Nat) : (d.setCnt c i v).items = d.items := rfl
@[simp] theorem Dev.setCnt_cmsgs (d : Dev) (c : Ctr) (i v : Nat) : (d.setCnt c i v).cmsgs = d.cmsgs := rfl
@[simp] theorem Dev.setCnt_effq (d : Dev) (c : Ctr) (i v : Nat) : (d.setCnt c i v).effq = d.effq := rfl
@[simp] theorem Dev.setCnt_applied (d : Dev) (c : Ctr) (i v : Nat) : (d.setCnt c i v).applied = d.applied := rfl
@[simp] theorem Dev.setCnt_buf (d : Dev) (c : Ctr) (i v : Nat) : (d.setCnt c i v).buf = d.buf := rfl
@[simp] theorem Dev.setCnt_tbl (d : Dev) (c : Ctr) (i v : Nat) : (d.setCnt c i v).tbl = d.tbl := rfl
@[simp] theorem Dev.setCnt_cry (d : Dev) (c : Ctr) (i v : Nat) : (d.setCnt c i v).cry = d.cry := rfl
@[simp] theorem Dev.setCnt_saDir (d : Dev) (c : Ctr) (i v : Nat) : (d.setCnt c i v).saDir = d.saDir := rfl
@[simp] theorem Dev.setCnt_hst (d : Dev) (c : Ctr) (i v : Nat) : (d.setCnt c i v).hst = d.hst := rfl
@[simp] theorem Dev.setCnt_net (d : Dev) (c : Ctr) (i v : Nat) : (d.setCnt c i v).net = d.net := rfl
@[simp] theorem Dev.setCnt_grp (d : Dev) (c : Ctr) (i v : Nat) : (d.setCnt c i v).grp = d.grp := rfl
@[simp] theorem Dev.setCnt_stw (d : Dev) (c : Ctr) (i v : Nat) : (d.setCnt c i v).stw = d.stw := rfl
@[simp] theorem Dev.setCnt_fc (d : Dev) (c : Ctr) (i v : Nat) : (d.setCnt c i v).fc = d.fc := rfl
@[simp] theorem Dev.setCnt_pwr (d : Dev) (c : Ctr) (i v : Nat) : (d.setCnt c i v).pwr = d.pwr := rfl
@[simp] theorem Dev.setCnt_eye (d : Dev) (c : Ctr) (i v : Nat) : (d.setCnt c i v).eye = d.eye := rfl
@[simp] theorem Dev.setCnt_mgt (d : Dev) (c : Ctr) (i v : Nat) : (d.setCnt c i v).mgt = d.mgt := rfl
@[simp] theorem Dev.setCnt_gp (d : Dev) (c : Ctr) (i v : Nat) : (d.setCnt c i v).gp = d.gp := rfl
@[simp] theorem Dev.setCnt_gbl (d : Dev) (c : Ctr) (i v : Nat) : (d.setCnt c i v).gbl = d.gbl := rfl
@[simp] theorem Dev.setCnt_rd (d : Dev) (c : Ctr) (i v : Nat) (q : Reg) (j : Nat) : (d.setCnt c i v).rd q j = d.rd q j := rfl
@[simp] theorem Dev.setCnt_get (d : Dev) (c : Ctr) (i v : Nat) (q : Fld) (j : Nat) : (d.setCnt c i v).get q j = d.get q j := rfl
@[simp] theorem Dev.setCnt_isUp (d : Dev) (c : Ctr) (i v : Nat) (m : Nat) : (d.setCnt c i v).isUp m = d.isUp m := rfl

/-! When a result window is changed -/
@[simp] theorem Dev.setWin_regs (d : Dev) (w : WinId) (x : Win) : (d.setWin w x).regs = d.regs := rfl
@[simp] theorem Dev.setWin_ctrs (d : Dev) (w : WinId) (x : Win) : (d.setWin w x).ctrs = d.ctrs := rfl
@[simp] theorem Dev.setWin_closed (d : Dev) (w : WinId) (x : Win) : (d.setWin w x).closed = d.closed := rfl
@[simp] theorem Dev.setWin_rlatch (d : Dev) (w : WinId) (x : Win) : (d.setWin w x).rlatch = d.rlatch := rfl
@[simp] theorem Dev.setWin_wlatch (d : Dev) (w : WinId) (x : Win) : (d.setWin w x).wlatch = d.wlatch := rfl
@[simp] theorem Dev.setWin_epoch (d : Dev) (w : WinId) (x : Win) : (d.setWin w x).epoch = d.epoch := rfl
@[simp] theorem Dev.setWin_sys (d : Dev) (w : WinId) (x : Win) : (d.setWin w x).sys = d.sys := rfl
@[simp] theorem Dev.setWin_evq (d : Dev) (w : WinId) (x : Win) : (d.setWin w x).evq = d.evq := rfl
@[simp] theorem Dev.setWin_ftq (d : Dev) (w : WinId) (x : Win) : (d.setWin w x).ftq = d.ftq := rfl
@[simp] theorem Dev.setWin_out (d : Dev) (w : WinId) (x : Win) : (d.setWin w x).out = d.out := rfl
@[simp] theorem Dev.setWin_ths (d : Dev) (w : WinId) (x : Win) : (d.setWin w x).ths = d.ths := rfl
@[simp] theorem Dev.setWin_cores (d : Dev) (w : WinId) (x : Win) : (d.setWin w x).cores = d.cores := rfl
@[simp] theorem Dev.setWin_pods (d : Dev) (w : WinId) (x : Win) : (d.setWin w x).pods = d.pods := rfl
@[simp] theorem Dev.setWin_shl (d : Dev) (w : WinId) (x : Win) : (d.setWin w x).shl = d.shl := rfl
@[simp] theorem Dev.setWin_slots (d : Dev) (w : WinId) (x : Win) : (d.setWin w x).slots = d.slots := rfl
@[simp] theorem Dev.setWin_trefs (d : Dev) (w : WinId) (x : Win) : (d.setWin w x).trefs = d.trefs := rfl
@[simp] theorem Dev.setWin_lastVer (d : Dev) (w : WinId) (x : Win) : (d.setWin w x).lastVer = d.lastVer := rfl
@[simp] theorem Dev.setWin_items (d : Dev) (w : WinId) (x : Win) : (d.setWin w x).items = d.items := rfl
@[simp] theorem Dev.setWin_cmsgs (d : Dev) (w : WinId) (x : Win) : (d.setWin w x).cmsgs = d.cmsgs := rfl
@[simp] theorem Dev.setWin_effq (d : Dev) (w : WinId) (x : Win) : (d.setWin w x).effq = d.effq := rfl
@[simp] theorem Dev.setWin_applied (d : Dev) (w : WinId) (x : Win) : (d.setWin w x).applied = d.applied := rfl
@[simp] theorem Dev.setWin_buf (d : Dev) (w : WinId) (x : Win) : (d.setWin w x).buf = d.buf := rfl
@[simp] theorem Dev.setWin_tbl (d : Dev) (w : WinId) (x : Win) : (d.setWin w x).tbl = d.tbl := rfl
@[simp] theorem Dev.setWin_cry (d : Dev) (w : WinId) (x : Win) : (d.setWin w x).cry = d.cry := rfl
@[simp] theorem Dev.setWin_saDir (d : Dev) (w : WinId) (x : Win) : (d.setWin w x).saDir = d.saDir := rfl
@[simp] theorem Dev.setWin_hst (d : Dev) (w : WinId) (x : Win) : (d.setWin w x).hst = d.hst := rfl
@[simp] theorem Dev.setWin_net (d : Dev) (w : WinId) (x : Win) : (d.setWin w x).net = d.net := rfl
@[simp] theorem Dev.setWin_grp (d : Dev) (w : WinId) (x : Win) : (d.setWin w x).grp = d.grp := rfl
@[simp] theorem Dev.setWin_stw (d : Dev) (w : WinId) (x : Win) : (d.setWin w x).stw = d.stw := rfl
@[simp] theorem Dev.setWin_fc (d : Dev) (w : WinId) (x : Win) : (d.setWin w x).fc = d.fc := rfl
@[simp] theorem Dev.setWin_pwr (d : Dev) (w : WinId) (x : Win) : (d.setWin w x).pwr = d.pwr := rfl
@[simp] theorem Dev.setWin_eye (d : Dev) (w : WinId) (x : Win) : (d.setWin w x).eye = d.eye := rfl
@[simp] theorem Dev.setWin_mgt (d : Dev) (w : WinId) (x : Win) : (d.setWin w x).mgt = d.mgt := rfl
@[simp] theorem Dev.setWin_gp (d : Dev) (w : WinId) (x : Win) : (d.setWin w x).gp = d.gp := rfl
@[simp] theorem Dev.setWin_gbl (d : Dev) (w : WinId) (x : Win) : (d.setWin w x).gbl = d.gbl := rfl
@[simp] theorem Dev.setWin_rd (d : Dev) (w : WinId) (x : Win) (q : Reg) (j : Nat) : (d.setWin w x).rd q j = d.rd q j := rfl
@[simp] theorem Dev.setWin_get (d : Dev) (w : WinId) (x : Win) (q : Fld) (j : Nat) : (d.setWin w x).get q j = d.get q j := rfl
@[simp] theorem Dev.setWin_isUp (d : Dev) (w : WinId) (x : Win) (m : Nat) : (d.setWin w x).isUp m = d.isUp m := rfl

/-! When something leaves the device -/
@[simp] theorem Dev.emit_regs (d : Dev) (o : Out) : (d.emit o).regs = d.regs := rfl
@[simp] theorem Dev.emit_ctrs (d : Dev) (o : Out) : (d.emit o).ctrs = d.ctrs := rfl
@[simp] theorem Dev.emit_closed (d : Dev) (o : Out) : (d.emit o).closed = d.closed := rfl
@[simp] theorem Dev.emit_rlatch (d : Dev) (o : Out) : (d.emit o).rlatch = d.rlatch := rfl
@[simp] theorem Dev.emit_wlatch (d : Dev) (o : Out) : (d.emit o).wlatch = d.wlatch := rfl
@[simp] theorem Dev.emit_epoch (d : Dev) (o : Out) : (d.emit o).epoch = d.epoch := rfl
@[simp] theorem Dev.emit_wins (d : Dev) (o : Out) : (d.emit o).wins = d.wins := rfl
@[simp] theorem Dev.emit_sys (d : Dev) (o : Out) : (d.emit o).sys = d.sys := rfl
@[simp] theorem Dev.emit_evq (d : Dev) (o : Out) : (d.emit o).evq = d.evq := rfl
@[simp] theorem Dev.emit_ftq (d : Dev) (o : Out) : (d.emit o).ftq = d.ftq := rfl
@[simp] theorem Dev.emit_ths (d : Dev) (o : Out) : (d.emit o).ths = d.ths := rfl
@[simp] theorem Dev.emit_cores (d : Dev) (o : Out) : (d.emit o).cores = d.cores := rfl
@[simp] theorem Dev.emit_pods (d : Dev) (o : Out) : (d.emit o).pods = d.pods := rfl
@[simp] theorem Dev.emit_shl (d : Dev) (o : Out) : (d.emit o).shl = d.shl := rfl
@[simp] theorem Dev.emit_slots (d : Dev) (o : Out) : (d.emit o).slots = d.slots := rfl
@[simp] theorem Dev.emit_trefs (d : Dev) (o : Out) : (d.emit o).trefs = d.trefs := rfl
@[simp] theorem Dev.emit_lastVer (d : Dev) (o : Out) : (d.emit o).lastVer = d.lastVer := rfl
@[simp] theorem Dev.emit_items (d : Dev) (o : Out) : (d.emit o).items = d.items := rfl
@[simp] theorem Dev.emit_cmsgs (d : Dev) (o : Out) : (d.emit o).cmsgs = d.cmsgs := rfl
@[simp] theorem Dev.emit_effq (d : Dev) (o : Out) : (d.emit o).effq = d.effq := rfl
@[simp] theorem Dev.emit_applied (d : Dev) (o : Out) : (d.emit o).applied = d.applied := rfl
@[simp] theorem Dev.emit_buf (d : Dev) (o : Out) : (d.emit o).buf = d.buf := rfl
@[simp] theorem Dev.emit_tbl (d : Dev) (o : Out) : (d.emit o).tbl = d.tbl := rfl
@[simp] theorem Dev.emit_cry (d : Dev) (o : Out) : (d.emit o).cry = d.cry := rfl
@[simp] theorem Dev.emit_saDir (d : Dev) (o : Out) : (d.emit o).saDir = d.saDir := rfl
@[simp] theorem Dev.emit_hst (d : Dev) (o : Out) : (d.emit o).hst = d.hst := rfl
@[simp] theorem Dev.emit_net (d : Dev) (o : Out) : (d.emit o).net = d.net := rfl
@[simp] theorem Dev.emit_grp (d : Dev) (o : Out) : (d.emit o).grp = d.grp := rfl
@[simp] theorem Dev.emit_stw (d : Dev) (o : Out) : (d.emit o).stw = d.stw := rfl
@[simp] theorem Dev.emit_fc (d : Dev) (o : Out) : (d.emit o).fc = d.fc := rfl
@[simp] theorem Dev.emit_pwr (d : Dev) (o : Out) : (d.emit o).pwr = d.pwr := rfl
@[simp] theorem Dev.emit_eye (d : Dev) (o : Out) : (d.emit o).eye = d.eye := rfl
@[simp] theorem Dev.emit_mgt (d : Dev) (o : Out) : (d.emit o).mgt = d.mgt := rfl
@[simp] theorem Dev.emit_gp (d : Dev) (o : Out) : (d.emit o).gp = d.gp := rfl
@[simp] theorem Dev.emit_gbl (d : Dev) (o : Out) : (d.emit o).gbl = d.gbl := rfl
@[simp] theorem Dev.emit_rd (d : Dev) (o : Out) (q : Reg) (j : Nat) : (d.emit o).rd q j = d.rd q j := rfl
@[simp] theorem Dev.emit_get (d : Dev) (o : Out) (q : Fld) (j : Nat) : (d.emit o).get q j = d.get q j := rfl
@[simp] theorem Dev.emit_isUp (d : Dev) (o : Out) (m : Nat) : (d.emit o).isUp m = d.isUp m := rfl

/-! When an event is raised -/
@[simp] theorem Dev.raise_regs (d : Dev) (id a b : Nat) : (d.raise id a b).regs = d.regs := rfl
@[simp] theorem Dev.raise_ctrs (d : Dev) (id a b : Nat) : (d.raise id a b).ctrs = d.ctrs := rfl
@[simp] theorem Dev.raise_closed (d : Dev) (id a b : Nat) : (d.raise id a b).closed = d.closed := rfl
@[simp] theorem Dev.raise_rlatch (d : Dev) (id a b : Nat) : (d.raise id a b).rlatch = d.rlatch := rfl
@[simp] theorem Dev.raise_wlatch (d : Dev) (id a b : Nat) : (d.raise id a b).wlatch = d.wlatch := rfl
@[simp] theorem Dev.raise_epoch (d : Dev) (id a b : Nat) : (d.raise id a b).epoch = d.epoch := rfl
@[simp] theorem Dev.raise_wins (d : Dev) (id a b : Nat) : (d.raise id a b).wins = d.wins := rfl
@[simp] theorem Dev.raise_sys (d : Dev) (id a b : Nat) : (d.raise id a b).sys = d.sys := rfl
@[simp] theorem Dev.raise_ftq (d : Dev) (id a b : Nat) : (d.raise id a b).ftq = d.ftq := rfl
@[simp] theorem Dev.raise_out (d : Dev) (id a b : Nat) : (d.raise id a b).out = d.out := rfl
@[simp] theorem Dev.raise_ths (d : Dev) (id a b : Nat) : (d.raise id a b).ths = d.ths := rfl
@[simp] theorem Dev.raise_cores (d : Dev) (id a b : Nat) : (d.raise id a b).cores = d.cores := rfl
@[simp] theorem Dev.raise_pods (d : Dev) (id a b : Nat) : (d.raise id a b).pods = d.pods := rfl
@[simp] theorem Dev.raise_shl (d : Dev) (id a b : Nat) : (d.raise id a b).shl = d.shl := rfl
@[simp] theorem Dev.raise_slots (d : Dev) (id a b : Nat) : (d.raise id a b).slots = d.slots := rfl
@[simp] theorem Dev.raise_trefs (d : Dev) (id a b : Nat) : (d.raise id a b).trefs = d.trefs := rfl
@[simp] theorem Dev.raise_lastVer (d : Dev) (id a b : Nat) : (d.raise id a b).lastVer = d.lastVer := rfl
@[simp] theorem Dev.raise_items (d : Dev) (id a b : Nat) : (d.raise id a b).items = d.items := rfl
@[simp] theorem Dev.raise_cmsgs (d : Dev) (id a b : Nat) : (d.raise id a b).cmsgs = d.cmsgs := rfl
@[simp] theorem Dev.raise_effq (d : Dev) (id a b : Nat) : (d.raise id a b).effq = d.effq := rfl
@[simp] theorem Dev.raise_applied (d : Dev) (id a b : Nat) : (d.raise id a b).applied = d.applied := rfl
@[simp] theorem Dev.raise_buf (d : Dev) (id a b : Nat) : (d.raise id a b).buf = d.buf := rfl
@[simp] theorem Dev.raise_tbl (d : Dev) (id a b : Nat) : (d.raise id a b).tbl = d.tbl := rfl
@[simp] theorem Dev.raise_cry (d : Dev) (id a b : Nat) : (d.raise id a b).cry = d.cry := rfl
@[simp] theorem Dev.raise_saDir (d : Dev) (id a b : Nat) : (d.raise id a b).saDir = d.saDir := rfl
@[simp] theorem Dev.raise_hst (d : Dev) (id a b : Nat) : (d.raise id a b).hst = d.hst := rfl
@[simp] theorem Dev.raise_net (d : Dev) (id a b : Nat) : (d.raise id a b).net = d.net := rfl
@[simp] theorem Dev.raise_grp (d : Dev) (id a b : Nat) : (d.raise id a b).grp = d.grp := rfl
@[simp] theorem Dev.raise_stw (d : Dev) (id a b : Nat) : (d.raise id a b).stw = d.stw := rfl
@[simp] theorem Dev.raise_fc (d : Dev) (id a b : Nat) : (d.raise id a b).fc = d.fc := rfl
@[simp] theorem Dev.raise_pwr (d : Dev) (id a b : Nat) : (d.raise id a b).pwr = d.pwr := rfl
@[simp] theorem Dev.raise_eye (d : Dev) (id a b : Nat) : (d.raise id a b).eye = d.eye := rfl
@[simp] theorem Dev.raise_mgt (d : Dev) (id a b : Nat) : (d.raise id a b).mgt = d.mgt := rfl
@[simp] theorem Dev.raise_gp (d : Dev) (id a b : Nat) : (d.raise id a b).gp = d.gp := rfl
@[simp] theorem Dev.raise_gbl (d : Dev) (id a b : Nat) : (d.raise id a b).gbl = d.gbl := rfl
@[simp] theorem Dev.raise_rd (d : Dev) (id a b : Nat) (q : Reg) (j : Nat) : (d.raise id a b).rd q j = d.rd q j := rfl
@[simp] theorem Dev.raise_get (d : Dev) (id a b : Nat) (q : Fld) (j : Nat) : (d.raise id a b).get q j = d.get q j := rfl
@[simp] theorem Dev.raise_isUp (d : Dev) (id a b : Nat) (m : Nat) : (d.raise id a b).isUp m = d.isUp m := rfl

/-! When an event of an island is raised -/
@[simp] theorem Dev.raiseLocal_regs (d : Dev) (n l a b : Nat) : (d.raiseLocal n l a b).regs = d.regs := rfl
@[simp] theorem Dev.raiseLocal_ctrs (d : Dev) (n l a b : Nat) : (d.raiseLocal n l a b).ctrs = d.ctrs := rfl
@[simp] theorem Dev.raiseLocal_closed (d : Dev) (n l a b : Nat) : (d.raiseLocal n l a b).closed = d.closed := rfl
@[simp] theorem Dev.raiseLocal_rlatch (d : Dev) (n l a b : Nat) : (d.raiseLocal n l a b).rlatch = d.rlatch := rfl
@[simp] theorem Dev.raiseLocal_wlatch (d : Dev) (n l a b : Nat) : (d.raiseLocal n l a b).wlatch = d.wlatch := rfl
@[simp] theorem Dev.raiseLocal_epoch (d : Dev) (n l a b : Nat) : (d.raiseLocal n l a b).epoch = d.epoch := rfl
@[simp] theorem Dev.raiseLocal_wins (d : Dev) (n l a b : Nat) : (d.raiseLocal n l a b).wins = d.wins := rfl
@[simp] theorem Dev.raiseLocal_sys (d : Dev) (n l a b : Nat) : (d.raiseLocal n l a b).sys = d.sys := rfl
@[simp] theorem Dev.raiseLocal_ftq (d : Dev) (n l a b : Nat) : (d.raiseLocal n l a b).ftq = d.ftq := rfl
@[simp] theorem Dev.raiseLocal_out (d : Dev) (n l a b : Nat) : (d.raiseLocal n l a b).out = d.out := rfl
@[simp] theorem Dev.raiseLocal_ths (d : Dev) (n l a b : Nat) : (d.raiseLocal n l a b).ths = d.ths := rfl
@[simp] theorem Dev.raiseLocal_cores (d : Dev) (n l a b : Nat) : (d.raiseLocal n l a b).cores = d.cores := rfl
@[simp] theorem Dev.raiseLocal_pods (d : Dev) (n l a b : Nat) : (d.raiseLocal n l a b).pods = d.pods := rfl
@[simp] theorem Dev.raiseLocal_shl (d : Dev) (n l a b : Nat) : (d.raiseLocal n l a b).shl = d.shl := rfl
@[simp] theorem Dev.raiseLocal_slots (d : Dev) (n l a b : Nat) : (d.raiseLocal n l a b).slots = d.slots := rfl
@[simp] theorem Dev.raiseLocal_trefs (d : Dev) (n l a b : Nat) : (d.raiseLocal n l a b).trefs = d.trefs := rfl
@[simp] theorem Dev.raiseLocal_lastVer (d : Dev) (n l a b : Nat) : (d.raiseLocal n l a b).lastVer = d.lastVer := rfl
@[simp] theorem Dev.raiseLocal_items (d : Dev) (n l a b : Nat) : (d.raiseLocal n l a b).items = d.items := rfl
@[simp] theorem Dev.raiseLocal_cmsgs (d : Dev) (n l a b : Nat) : (d.raiseLocal n l a b).cmsgs = d.cmsgs := rfl
@[simp] theorem Dev.raiseLocal_effq (d : Dev) (n l a b : Nat) : (d.raiseLocal n l a b).effq = d.effq := rfl
@[simp] theorem Dev.raiseLocal_applied (d : Dev) (n l a b : Nat) : (d.raiseLocal n l a b).applied = d.applied := rfl
@[simp] theorem Dev.raiseLocal_buf (d : Dev) (n l a b : Nat) : (d.raiseLocal n l a b).buf = d.buf := rfl
@[simp] theorem Dev.raiseLocal_tbl (d : Dev) (n l a b : Nat) : (d.raiseLocal n l a b).tbl = d.tbl := rfl
@[simp] theorem Dev.raiseLocal_cry (d : Dev) (n l a b : Nat) : (d.raiseLocal n l a b).cry = d.cry := rfl
@[simp] theorem Dev.raiseLocal_saDir (d : Dev) (n l a b : Nat) : (d.raiseLocal n l a b).saDir = d.saDir := rfl
@[simp] theorem Dev.raiseLocal_hst (d : Dev) (n l a b : Nat) : (d.raiseLocal n l a b).hst = d.hst := rfl
@[simp] theorem Dev.raiseLocal_net (d : Dev) (n l a b : Nat) : (d.raiseLocal n l a b).net = d.net := rfl
@[simp] theorem Dev.raiseLocal_grp (d : Dev) (n l a b : Nat) : (d.raiseLocal n l a b).grp = d.grp := rfl
@[simp] theorem Dev.raiseLocal_stw (d : Dev) (n l a b : Nat) : (d.raiseLocal n l a b).stw = d.stw := rfl
@[simp] theorem Dev.raiseLocal_fc (d : Dev) (n l a b : Nat) : (d.raiseLocal n l a b).fc = d.fc := rfl
@[simp] theorem Dev.raiseLocal_pwr (d : Dev) (n l a b : Nat) : (d.raiseLocal n l a b).pwr = d.pwr := rfl
@[simp] theorem Dev.raiseLocal_eye (d : Dev) (n l a b : Nat) : (d.raiseLocal n l a b).eye = d.eye := rfl
@[simp] theorem Dev.raiseLocal_mgt (d : Dev) (n l a b : Nat) : (d.raiseLocal n l a b).mgt = d.mgt := rfl
@[simp] theorem Dev.raiseLocal_gp (d : Dev) (n l a b : Nat) : (d.raiseLocal n l a b).gp = d.gp := rfl
@[simp] theorem Dev.raiseLocal_gbl (d : Dev) (n l a b : Nat) : (d.raiseLocal n l a b).gbl = d.gbl := rfl
@[simp] theorem Dev.raiseLocal_rd (d : Dev) (n l a b : Nat) (q : Reg) (j : Nat) : (d.raiseLocal n l a b).rd q j = d.rd q j := rfl
@[simp] theorem Dev.raiseLocal_get (d : Dev) (n l a b : Nat) (q : Fld) (j : Nat) : (d.raiseLocal n l a b).get q j = d.get q j := rfl
@[simp] theorem Dev.raiseLocal_isUp (d : Dev) (n l a b : Nat) (m : Nat) : (d.raiseLocal n l a b).isUp m = d.isUp m := rfl

/-! When an event of an instance is raised -/
@[simp] theorem Dev.raiseInst_regs (d : Dev) (id i a b : Nat) : (d.raiseInst id i a b).regs = d.regs := rfl
@[simp] theorem Dev.raiseInst_ctrs (d : Dev) (id i a b : Nat) : (d.raiseInst id i a b).ctrs = d.ctrs := rfl
@[simp] theorem Dev.raiseInst_closed (d : Dev) (id i a b : Nat) : (d.raiseInst id i a b).closed = d.closed := rfl
@[simp] theorem Dev.raiseInst_rlatch (d : Dev) (id i a b : Nat) : (d.raiseInst id i a b).rlatch = d.rlatch := rfl
@[simp] theorem Dev.raiseInst_wlatch (d : Dev) (id i a b : Nat) : (d.raiseInst id i a b).wlatch = d.wlatch := rfl
@[simp] theorem Dev.raiseInst_epoch (d : Dev) (id i a b : Nat) : (d.raiseInst id i a b).epoch = d.epoch := rfl
@[simp] theorem Dev.raiseInst_wins (d : Dev) (id i a b : Nat) : (d.raiseInst id i a b).wins = d.wins := rfl
@[simp] theorem Dev.raiseInst_sys (d : Dev) (id i a b : Nat) : (d.raiseInst id i a b).sys = d.sys := rfl
@[simp] theorem Dev.raiseInst_ftq (d : Dev) (id i a b : Nat) : (d.raiseInst id i a b).ftq = d.ftq := rfl
@[simp] theorem Dev.raiseInst_out (d : Dev) (id i a b : Nat) : (d.raiseInst id i a b).out = d.out := rfl
@[simp] theorem Dev.raiseInst_ths (d : Dev) (id i a b : Nat) : (d.raiseInst id i a b).ths = d.ths := rfl
@[simp] theorem Dev.raiseInst_cores (d : Dev) (id i a b : Nat) : (d.raiseInst id i a b).cores = d.cores := rfl
@[simp] theorem Dev.raiseInst_pods (d : Dev) (id i a b : Nat) : (d.raiseInst id i a b).pods = d.pods := rfl
@[simp] theorem Dev.raiseInst_shl (d : Dev) (id i a b : Nat) : (d.raiseInst id i a b).shl = d.shl := rfl
@[simp] theorem Dev.raiseInst_slots (d : Dev) (id i a b : Nat) : (d.raiseInst id i a b).slots = d.slots := rfl
@[simp] theorem Dev.raiseInst_trefs (d : Dev) (id i a b : Nat) : (d.raiseInst id i a b).trefs = d.trefs := rfl
@[simp] theorem Dev.raiseInst_lastVer (d : Dev) (id i a b : Nat) : (d.raiseInst id i a b).lastVer = d.lastVer := rfl
@[simp] theorem Dev.raiseInst_items (d : Dev) (id i a b : Nat) : (d.raiseInst id i a b).items = d.items := rfl
@[simp] theorem Dev.raiseInst_cmsgs (d : Dev) (id i a b : Nat) : (d.raiseInst id i a b).cmsgs = d.cmsgs := rfl
@[simp] theorem Dev.raiseInst_effq (d : Dev) (id i a b : Nat) : (d.raiseInst id i a b).effq = d.effq := rfl
@[simp] theorem Dev.raiseInst_applied (d : Dev) (id i a b : Nat) : (d.raiseInst id i a b).applied = d.applied := rfl
@[simp] theorem Dev.raiseInst_buf (d : Dev) (id i a b : Nat) : (d.raiseInst id i a b).buf = d.buf := rfl
@[simp] theorem Dev.raiseInst_tbl (d : Dev) (id i a b : Nat) : (d.raiseInst id i a b).tbl = d.tbl := rfl
@[simp] theorem Dev.raiseInst_cry (d : Dev) (id i a b : Nat) : (d.raiseInst id i a b).cry = d.cry := rfl
@[simp] theorem Dev.raiseInst_saDir (d : Dev) (id i a b : Nat) : (d.raiseInst id i a b).saDir = d.saDir := rfl
@[simp] theorem Dev.raiseInst_hst (d : Dev) (id i a b : Nat) : (d.raiseInst id i a b).hst = d.hst := rfl
@[simp] theorem Dev.raiseInst_net (d : Dev) (id i a b : Nat) : (d.raiseInst id i a b).net = d.net := rfl
@[simp] theorem Dev.raiseInst_grp (d : Dev) (id i a b : Nat) : (d.raiseInst id i a b).grp = d.grp := rfl
@[simp] theorem Dev.raiseInst_stw (d : Dev) (id i a b : Nat) : (d.raiseInst id i a b).stw = d.stw := rfl
@[simp] theorem Dev.raiseInst_fc (d : Dev) (id i a b : Nat) : (d.raiseInst id i a b).fc = d.fc := rfl
@[simp] theorem Dev.raiseInst_pwr (d : Dev) (id i a b : Nat) : (d.raiseInst id i a b).pwr = d.pwr := rfl
@[simp] theorem Dev.raiseInst_eye (d : Dev) (id i a b : Nat) : (d.raiseInst id i a b).eye = d.eye := rfl
@[simp] theorem Dev.raiseInst_mgt (d : Dev) (id i a b : Nat) : (d.raiseInst id i a b).mgt = d.mgt := rfl
@[simp] theorem Dev.raiseInst_gp (d : Dev) (id i a b : Nat) : (d.raiseInst id i a b).gp = d.gp := rfl
@[simp] theorem Dev.raiseInst_gbl (d : Dev) (id i a b : Nat) : (d.raiseInst id i a b).gbl = d.gbl := rfl
@[simp] theorem Dev.raiseInst_rd (d : Dev) (id i a b : Nat) (q : Reg) (j : Nat) : (d.raiseInst id i a b).rd q j = d.rd q j := rfl
@[simp] theorem Dev.raiseInst_get (d : Dev) (id i a b : Nat) (q : Fld) (j : Nat) : (d.raiseInst id i a b).get q j = d.get q j := rfl
@[simp] theorem Dev.raiseInst_isUp (d : Dev) (id i a b : Nat) (m : Nat) : (d.raiseInst id i a b).isUp m = d.isUp m := rfl

/-! When a fault message is sent -/
@[simp] theorem Dev.fault_regs (d : Dev) (c k n u v a : Nat) (b : Option Nat) : (d.fault c k n u v a b).regs = d.regs := rfl
@[simp] theorem Dev.fault_ctrs (d : Dev) (c k n u v a : Nat) (b : Option Nat) : (d.fault c k n u v a b).ctrs = d.ctrs := rfl
@[simp] theorem Dev.fault_closed (d : Dev) (c k n u v a : Nat) (b : Option Nat) : (d.fault c k n u v a b).closed = d.closed := rfl
@[simp] theorem Dev.fault_rlatch (d : Dev) (c k n u v a : Nat) (b : Option Nat) : (d.fault c k n u v a b).rlatch = d.rlatch := rfl
@[simp] theorem Dev.fault_wlatch (d : Dev) (c k n u v a : Nat) (b : Option Nat) : (d.fault c k n u v a b).wlatch = d.wlatch := rfl
@[simp] theorem Dev.fault_epoch (d : Dev) (c k n u v a : Nat) (b : Option Nat) : (d.fault c k n u v a b).epoch = d.epoch := rfl
@[simp] theorem Dev.fault_wins (d : Dev) (c k n u v a : Nat) (b : Option Nat) : (d.fault c k n u v a b).wins = d.wins := rfl
@[simp] theorem Dev.fault_sys (d : Dev) (c k n u v a : Nat) (b : Option Nat) : (d.fault c k n u v a b).sys = d.sys := rfl
@[simp] theorem Dev.fault_evq (d : Dev) (c k n u v a : Nat) (b : Option Nat) : (d.fault c k n u v a b).evq = d.evq := rfl
@[simp] theorem Dev.fault_out (d : Dev) (c k n u v a : Nat) (b : Option Nat) : (d.fault c k n u v a b).out = d.out := rfl
@[simp] theorem Dev.fault_ths (d : Dev) (c k n u v a : Nat) (b : Option Nat) : (d.fault c k n u v a b).ths = d.ths := rfl
@[simp] theorem Dev.fault_cores (d : Dev) (c k n u v a : Nat) (b : Option Nat) : (d.fault c k n u v a b).cores = d.cores := rfl
@[simp] theorem Dev.fault_pods (d : Dev) (c k n u v a : Nat) (b : Option Nat) : (d.fault c k n u v a b).pods = d.pods := rfl
@[simp] theorem Dev.fault_shl (d : Dev) (c k n u v a : Nat) (b : Option Nat) : (d.fault c k n u v a b).shl = d.shl := rfl
@[simp] theorem Dev.fault_slots (d : Dev) (c k n u v a : Nat) (b : Option Nat) : (d.fault c k n u v a b).slots = d.slots := rfl
@[simp] theorem Dev.fault_trefs (d : Dev) (c k n u v a : Nat) (b : Option Nat) : (d.fault c k n u v a b).trefs = d.trefs := rfl
@[simp] theorem Dev.fault_lastVer (d : Dev) (c k n u v a : Nat) (b : Option Nat) : (d.fault c k n u v a b).lastVer = d.lastVer := rfl
@[simp] theorem Dev.fault_items (d : Dev) (c k n u v a : Nat) (b : Option Nat) : (d.fault c k n u v a b).items = d.items := rfl
@[simp] theorem Dev.fault_cmsgs (d : Dev) (c k n u v a : Nat) (b : Option Nat) : (d.fault c k n u v a b).cmsgs = d.cmsgs := rfl
@[simp] theorem Dev.fault_effq (d : Dev) (c k n u v a : Nat) (b : Option Nat) : (d.fault c k n u v a b).effq = d.effq := rfl
@[simp] theorem Dev.fault_applied (d : Dev) (c k n u v a : Nat) (b : Option Nat) : (d.fault c k n u v a b).applied = d.applied := rfl
@[simp] theorem Dev.fault_buf (d : Dev) (c k n u v a : Nat) (b : Option Nat) : (d.fault c k n u v a b).buf = d.buf := rfl
@[simp] theorem Dev.fault_tbl (d : Dev) (c k n u v a : Nat) (b : Option Nat) : (d.fault c k n u v a b).tbl = d.tbl := rfl
@[simp] theorem Dev.fault_cry (d : Dev) (c k n u v a : Nat) (b : Option Nat) : (d.fault c k n u v a b).cry = d.cry := rfl
@[simp] theorem Dev.fault_saDir (d : Dev) (c k n u v a : Nat) (b : Option Nat) : (d.fault c k n u v a b).saDir = d.saDir := rfl
@[simp] theorem Dev.fault_hst (d : Dev) (c k n u v a : Nat) (b : Option Nat) : (d.fault c k n u v a b).hst = d.hst := rfl
@[simp] theorem Dev.fault_net (d : Dev) (c k n u v a : Nat) (b : Option Nat) : (d.fault c k n u v a b).net = d.net := rfl
@[simp] theorem Dev.fault_grp (d : Dev) (c k n u v a : Nat) (b : Option Nat) : (d.fault c k n u v a b).grp = d.grp := rfl
@[simp] theorem Dev.fault_stw (d : Dev) (c k n u v a : Nat) (b : Option Nat) : (d.fault c k n u v a b).stw = d.stw := rfl
@[simp] theorem Dev.fault_fc (d : Dev) (c k n u v a : Nat) (b : Option Nat) : (d.fault c k n u v a b).fc = d.fc := rfl
@[simp] theorem Dev.fault_pwr (d : Dev) (c k n u v a : Nat) (b : Option Nat) : (d.fault c k n u v a b).pwr = d.pwr := rfl
@[simp] theorem Dev.fault_eye (d : Dev) (c k n u v a : Nat) (b : Option Nat) : (d.fault c k n u v a b).eye = d.eye := rfl
@[simp] theorem Dev.fault_mgt (d : Dev) (c k n u v a : Nat) (b : Option Nat) : (d.fault c k n u v a b).mgt = d.mgt := rfl
@[simp] theorem Dev.fault_gp (d : Dev) (c k n u v a : Nat) (b : Option Nat) : (d.fault c k n u v a b).gp = d.gp := rfl
@[simp] theorem Dev.fault_gbl (d : Dev) (c k n u v a : Nat) (b : Option Nat) : (d.fault c k n u v a b).gbl = d.gbl := rfl
@[simp] theorem Dev.fault_rd (d : Dev) (c k n u v a : Nat) (b : Option Nat) (q : Reg) (j : Nat) : (d.fault c k n u v a b).rd q j = d.rd q j := rfl
@[simp] theorem Dev.fault_get (d : Dev) (c k n u v a : Nat) (b : Option Nat) (q : Fld) (j : Nat) : (d.fault c k n u v a b).get q j = d.get q j := rfl
@[simp] theorem Dev.fault_isUp (d : Dev) (c k n u v a : Nat) (b : Option Nat) (m : Nat) : (d.fault c k n u v a b).isUp m = d.isUp m := rfl

/-! When the DTB is set -/
@[simp] theorem Dev.setDtb_ctrs (d : Dev) (x : Nat) : (d.setDtb x).ctrs = d.ctrs := rfl
@[simp] theorem Dev.setDtb_closed (d : Dev) (x : Nat) : (d.setDtb x).closed = d.closed := rfl
@[simp] theorem Dev.setDtb_rlatch (d : Dev) (x : Nat) : (d.setDtb x).rlatch = d.rlatch := rfl
@[simp] theorem Dev.setDtb_wlatch (d : Dev) (x : Nat) : (d.setDtb x).wlatch = d.wlatch := rfl
@[simp] theorem Dev.setDtb_epoch (d : Dev) (x : Nat) : (d.setDtb x).epoch = d.epoch := rfl
@[simp] theorem Dev.setDtb_wins (d : Dev) (x : Nat) : (d.setDtb x).wins = d.wins := rfl
@[simp] theorem Dev.setDtb_evq (d : Dev) (x : Nat) : (d.setDtb x).evq = d.evq := rfl
@[simp] theorem Dev.setDtb_ftq (d : Dev) (x : Nat) : (d.setDtb x).ftq = d.ftq := rfl
@[simp] theorem Dev.setDtb_out (d : Dev) (x : Nat) : (d.setDtb x).out = d.out := rfl
@[simp] theorem Dev.setDtb_ths (d : Dev) (x : Nat) : (d.setDtb x).ths = d.ths := rfl
@[simp] theorem Dev.setDtb_cores (d : Dev) (x : Nat) : (d.setDtb x).cores = d.cores := rfl
@[simp] theorem Dev.setDtb_pods (d : Dev) (x : Nat) : (d.setDtb x).pods = d.pods := rfl
@[simp] theorem Dev.setDtb_shl (d : Dev) (x : Nat) : (d.setDtb x).shl = d.shl := rfl
@[simp] theorem Dev.setDtb_slots (d : Dev) (x : Nat) : (d.setDtb x).slots = d.slots := rfl
@[simp] theorem Dev.setDtb_trefs (d : Dev) (x : Nat) : (d.setDtb x).trefs = d.trefs := rfl
@[simp] theorem Dev.setDtb_lastVer (d : Dev) (x : Nat) : (d.setDtb x).lastVer = d.lastVer := rfl
@[simp] theorem Dev.setDtb_items (d : Dev) (x : Nat) : (d.setDtb x).items = d.items := rfl
@[simp] theorem Dev.setDtb_cmsgs (d : Dev) (x : Nat) : (d.setDtb x).cmsgs = d.cmsgs := rfl
@[simp] theorem Dev.setDtb_effq (d : Dev) (x : Nat) : (d.setDtb x).effq = d.effq := rfl
@[simp] theorem Dev.setDtb_applied (d : Dev) (x : Nat) : (d.setDtb x).applied = d.applied := rfl
@[simp] theorem Dev.setDtb_buf (d : Dev) (x : Nat) : (d.setDtb x).buf = d.buf := rfl
@[simp] theorem Dev.setDtb_tbl (d : Dev) (x : Nat) : (d.setDtb x).tbl = d.tbl := rfl
@[simp] theorem Dev.setDtb_cry (d : Dev) (x : Nat) : (d.setDtb x).cry = d.cry := rfl
@[simp] theorem Dev.setDtb_saDir (d : Dev) (x : Nat) : (d.setDtb x).saDir = d.saDir := rfl
@[simp] theorem Dev.setDtb_hst (d : Dev) (x : Nat) : (d.setDtb x).hst = d.hst := rfl
@[simp] theorem Dev.setDtb_net (d : Dev) (x : Nat) : (d.setDtb x).net = d.net := rfl
@[simp] theorem Dev.setDtb_grp (d : Dev) (x : Nat) : (d.setDtb x).grp = d.grp := rfl
@[simp] theorem Dev.setDtb_stw (d : Dev) (x : Nat) : (d.setDtb x).stw = d.stw := rfl
@[simp] theorem Dev.setDtb_fc (d : Dev) (x : Nat) : (d.setDtb x).fc = d.fc := rfl
@[simp] theorem Dev.setDtb_pwr (d : Dev) (x : Nat) : (d.setDtb x).pwr = d.pwr := rfl
@[simp] theorem Dev.setDtb_eye (d : Dev) (x : Nat) : (d.setDtb x).eye = d.eye := rfl
@[simp] theorem Dev.setDtb_mgt (d : Dev) (x : Nat) : (d.setDtb x).mgt = d.mgt := rfl
@[simp] theorem Dev.setDtb_gp (d : Dev) (x : Nat) : (d.setDtb x).gp = d.gp := rfl
@[simp] theorem Dev.setDtb_gbl (d : Dev) (x : Nat) : (d.setDtb x).gbl = d.gbl := rfl

/-! When a function is changed -/
@[simp] theorem Dev.setFn_regs (d : Dev) (i : Nat) (x : Fn) : (d.setFn i x).regs = d.regs := rfl
@[simp] theorem Dev.setFn_ctrs (d : Dev) (i : Nat) (x : Fn) : (d.setFn i x).ctrs = d.ctrs := rfl
@[simp] theorem Dev.setFn_closed (d : Dev) (i : Nat) (x : Fn) : (d.setFn i x).closed = d.closed := rfl
@[simp] theorem Dev.setFn_rlatch (d : Dev) (i : Nat) (x : Fn) : (d.setFn i x).rlatch = d.rlatch := rfl
@[simp] theorem Dev.setFn_wlatch (d : Dev) (i : Nat) (x : Fn) : (d.setFn i x).wlatch = d.wlatch := rfl
@[simp] theorem Dev.setFn_epoch (d : Dev) (i : Nat) (x : Fn) : (d.setFn i x).epoch = d.epoch := rfl
@[simp] theorem Dev.setFn_wins (d : Dev) (i : Nat) (x : Fn) : (d.setFn i x).wins = d.wins := rfl
@[simp] theorem Dev.setFn_sys (d : Dev) (i : Nat) (x : Fn) : (d.setFn i x).sys = d.sys := rfl
@[simp] theorem Dev.setFn_evq (d : Dev) (i : Nat) (x : Fn) : (d.setFn i x).evq = d.evq := rfl
@[simp] theorem Dev.setFn_ftq (d : Dev) (i : Nat) (x : Fn) : (d.setFn i x).ftq = d.ftq := rfl
@[simp] theorem Dev.setFn_out (d : Dev) (i : Nat) (x : Fn) : (d.setFn i x).out = d.out := rfl
@[simp] theorem Dev.setFn_ths (d : Dev) (i : Nat) (x : Fn) : (d.setFn i x).ths = d.ths := rfl
@[simp] theorem Dev.setFn_cores (d : Dev) (i : Nat) (x : Fn) : (d.setFn i x).cores = d.cores := rfl
@[simp] theorem Dev.setFn_pods (d : Dev) (i : Nat) (x : Fn) : (d.setFn i x).pods = d.pods := rfl
@[simp] theorem Dev.setFn_shl (d : Dev) (i : Nat) (x : Fn) : (d.setFn i x).shl = d.shl := rfl
@[simp] theorem Dev.setFn_slots (d : Dev) (i : Nat) (x : Fn) : (d.setFn i x).slots = d.slots := rfl
@[simp] theorem Dev.setFn_trefs (d : Dev) (i : Nat) (x : Fn) : (d.setFn i x).trefs = d.trefs := rfl
@[simp] theorem Dev.setFn_lastVer (d : Dev) (i : Nat) (x : Fn) : (d.setFn i x).lastVer = d.lastVer := rfl
@[simp] theorem Dev.setFn_items (d : Dev) (i : Nat) (x : Fn) : (d.setFn i x).items = d.items := rfl
@[simp] theorem Dev.setFn_cmsgs (d : Dev) (i : Nat) (x : Fn) : (d.setFn i x).cmsgs = d.cmsgs := rfl
@[simp] theorem Dev.setFn_effq (d : Dev) (i : Nat) (x : Fn) : (d.setFn i x).effq = d.effq := rfl
@[simp] theorem Dev.setFn_applied (d : Dev) (i : Nat) (x : Fn) : (d.setFn i x).applied = d.applied := rfl
@[simp] theorem Dev.setFn_buf (d : Dev) (i : Nat) (x : Fn) : (d.setFn i x).buf = d.buf := rfl
@[simp] theorem Dev.setFn_tbl (d : Dev) (i : Nat) (x : Fn) : (d.setFn i x).tbl = d.tbl := rfl
@[simp] theorem Dev.setFn_cry (d : Dev) (i : Nat) (x : Fn) : (d.setFn i x).cry = d.cry := rfl
@[simp] theorem Dev.setFn_saDir (d : Dev) (i : Nat) (x : Fn) : (d.setFn i x).saDir = d.saDir := rfl
@[simp] theorem Dev.setFn_net (d : Dev) (i : Nat) (x : Fn) : (d.setFn i x).net = d.net := rfl
@[simp] theorem Dev.setFn_grp (d : Dev) (i : Nat) (x : Fn) : (d.setFn i x).grp = d.grp := rfl
@[simp] theorem Dev.setFn_stw (d : Dev) (i : Nat) (x : Fn) : (d.setFn i x).stw = d.stw := rfl
@[simp] theorem Dev.setFn_fc (d : Dev) (i : Nat) (x : Fn) : (d.setFn i x).fc = d.fc := rfl
@[simp] theorem Dev.setFn_pwr (d : Dev) (i : Nat) (x : Fn) : (d.setFn i x).pwr = d.pwr := rfl
@[simp] theorem Dev.setFn_eye (d : Dev) (i : Nat) (x : Fn) : (d.setFn i x).eye = d.eye := rfl
@[simp] theorem Dev.setFn_mgt (d : Dev) (i : Nat) (x : Fn) : (d.setFn i x).mgt = d.mgt := rfl
@[simp] theorem Dev.setFn_gp (d : Dev) (i : Nat) (x : Fn) : (d.setFn i x).gp = d.gp := rfl
@[simp] theorem Dev.setFn_gbl (d : Dev) (i : Nat) (x : Fn) : (d.setFn i x).gbl = d.gbl := rfl
@[simp] theorem Dev.setFn_rd (d : Dev) (i : Nat) (x : Fn) (q : Reg) (j : Nat) : (d.setFn i x).rd q j = d.rd q j := rfl
@[simp] theorem Dev.setFn_get (d : Dev) (i : Nat) (x : Fn) (q : Fld) (j : Nat) : (d.setFn i x).get q j = d.get q j := rfl
@[simp] theorem Dev.setFn_isUp (d : Dev) (i : Nat) (x : Fn) (m : Nat) : (d.setFn i x).isUp m = d.isUp m := rfl
@[simp] theorem Dev.setFn_fn (d : Dev) (i j : Nat) (x : Fn) : (d.setFn i x).fn j = if j = i then x else d.fn j := Tbl.get_set d.hst.fns i j x

/-! When a thread is changed -/
@[simp] theorem Dev.setTh_regs (d : Dev) (n : Nat) (t : Thread) : (d.setTh n t).regs = d.regs := rfl
@[simp] theorem Dev.setTh_ctrs (d : Dev) (n : Nat) (t : Thread) : (d.setTh n t).ctrs = d.ctrs := rfl
@[simp] theorem Dev.setTh_closed (d : Dev) (n : Nat) (t : Thread) : (d.setTh n t).closed = d.closed := rfl
@[simp] theorem Dev.setTh_rlatch (d : Dev) (n : Nat) (t : Thread) : (d.setTh n t).rlatch = d.rlatch := rfl
@[simp] theorem Dev.setTh_wlatch (d : Dev) (n : Nat) (t : Thread) : (d.setTh n t).wlatch = d.wlatch := rfl
@[simp] theorem Dev.setTh_epoch (d : Dev) (n : Nat) (t : Thread) : (d.setTh n t).epoch = d.epoch := rfl
@[simp] theorem Dev.setTh_wins (d : Dev) (n : Nat) (t : Thread) : (d.setTh n t).wins = d.wins := rfl
@[simp] theorem Dev.setTh_sys (d : Dev) (n : Nat) (t : Thread) : (d.setTh n t).sys = d.sys := rfl
@[simp] theorem Dev.setTh_evq (d : Dev) (n : Nat) (t : Thread) : (d.setTh n t).evq = d.evq := rfl
@[simp] theorem Dev.setTh_ftq (d : Dev) (n : Nat) (t : Thread) : (d.setTh n t).ftq = d.ftq := rfl
@[simp] theorem Dev.setTh_out (d : Dev) (n : Nat) (t : Thread) : (d.setTh n t).out = d.out := rfl
@[simp] theorem Dev.setTh_cores (d : Dev) (n : Nat) (t : Thread) : (d.setTh n t).cores = d.cores := rfl
@[simp] theorem Dev.setTh_pods (d : Dev) (n : Nat) (t : Thread) : (d.setTh n t).pods = d.pods := rfl
@[simp] theorem Dev.setTh_shl (d : Dev) (n : Nat) (t : Thread) : (d.setTh n t).shl = d.shl := rfl
@[simp] theorem Dev.setTh_slots (d : Dev) (n : Nat) (t : Thread) : (d.setTh n t).slots = d.slots := rfl
@[simp] theorem Dev.setTh_trefs (d : Dev) (n : Nat) (t : Thread) : (d.setTh n t).trefs = d.trefs := rfl
@[simp] theorem Dev.setTh_lastVer (d : Dev) (n : Nat) (t : Thread) : (d.setTh n t).lastVer = d.lastVer := rfl
@[simp] theorem Dev.setTh_items (d : Dev) (n : Nat) (t : Thread) : (d.setTh n t).items = d.items := rfl
@[simp] theorem Dev.setTh_cmsgs (d : Dev) (n : Nat) (t : Thread) : (d.setTh n t).cmsgs = d.cmsgs := rfl
@[simp] theorem Dev.setTh_effq (d : Dev) (n : Nat) (t : Thread) : (d.setTh n t).effq = d.effq := rfl
@[simp] theorem Dev.setTh_applied (d : Dev) (n : Nat) (t : Thread) : (d.setTh n t).applied = d.applied := rfl
@[simp] theorem Dev.setTh_buf (d : Dev) (n : Nat) (t : Thread) : (d.setTh n t).buf = d.buf := rfl
@[simp] theorem Dev.setTh_tbl (d : Dev) (n : Nat) (t : Thread) : (d.setTh n t).tbl = d.tbl := rfl
@[simp] theorem Dev.setTh_cry (d : Dev) (n : Nat) (t : Thread) : (d.setTh n t).cry = d.cry := rfl
@[simp] theorem Dev.setTh_saDir (d : Dev) (n : Nat) (t : Thread) : (d.setTh n t).saDir = d.saDir := rfl
@[simp] theorem Dev.setTh_hst (d : Dev) (n : Nat) (t : Thread) : (d.setTh n t).hst = d.hst := rfl
@[simp] theorem Dev.setTh_net (d : Dev) (n : Nat) (t : Thread) : (d.setTh n t).net = d.net := rfl
@[simp] theorem Dev.setTh_grp (d : Dev) (n : Nat) (t : Thread) : (d.setTh n t).grp = d.grp := rfl
@[simp] theorem Dev.setTh_stw (d : Dev) (n : Nat) (t : Thread) : (d.setTh n t).stw = d.stw := rfl
@[simp] theorem Dev.setTh_fc (d : Dev) (n : Nat) (t : Thread) : (d.setTh n t).fc = d.fc := rfl
@[simp] theorem Dev.setTh_pwr (d : Dev) (n : Nat) (t : Thread) : (d.setTh n t).pwr = d.pwr := rfl
@[simp] theorem Dev.setTh_eye (d : Dev) (n : Nat) (t : Thread) : (d.setTh n t).eye = d.eye := rfl
@[simp] theorem Dev.setTh_mgt (d : Dev) (n : Nat) (t : Thread) : (d.setTh n t).mgt = d.mgt := rfl
@[simp] theorem Dev.setTh_gp (d : Dev) (n : Nat) (t : Thread) : (d.setTh n t).gp = d.gp := rfl
@[simp] theorem Dev.setTh_gbl (d : Dev) (n : Nat) (t : Thread) : (d.setTh n t).gbl = d.gbl := rfl
@[simp] theorem Dev.setTh_rd (d : Dev) (n : Nat) (t : Thread) (q : Reg) (j : Nat) : (d.setTh n t).rd q j = d.rd q j := rfl
@[simp] theorem Dev.setTh_get (d : Dev) (n : Nat) (t : Thread) (q : Fld) (j : Nat) : (d.setTh n t).get q j = d.get q j := rfl
@[simp] theorem Dev.setTh_isUp (d : Dev) (n : Nat) (t : Thread) (m : Nat) : (d.setTh n t).isUp m = d.isUp m := rfl
@[simp] theorem Dev.setTh_th (d : Dev) (n m : Nat) (t : Thread) : (d.setTh n t).th m = if m = n then t else d.th m := Tbl.get_set d.ths n m t

/-! When a pod is changed -/
@[simp] theorem Dev.setPod_regs (d : Dev) (p : Nat) (x : Pod) : (d.setPod p x).regs = d.regs := rfl
@[simp] theorem Dev.setPod_ctrs (d : Dev) (p : Nat) (x : Pod) : (d.setPod p x).ctrs = d.ctrs := rfl
@[simp] theorem Dev.setPod_closed (d : Dev) (p : Nat) (x : Pod) : (d.setPod p x).closed = d.closed := rfl
@[simp] theorem Dev.setPod_rlatch (d : Dev) (p : Nat) (x : Pod) : (d.setPod p x).rlatch = d.rlatch := rfl
@[simp] theorem Dev.setPod_wlatch (d : Dev) (p : Nat) (x : Pod) : (d.setPod p x).wlatch = d.wlatch := rfl
@[simp] theorem Dev.setPod_epoch (d : Dev) (p : Nat) (x : Pod) : (d.setPod p x).epoch = d.epoch := rfl
@[simp] theorem Dev.setPod_wins (d : Dev) (p : Nat) (x : Pod) : (d.setPod p x).wins = d.wins := rfl
@[simp] theorem Dev.setPod_sys (d : Dev) (p : Nat) (x : Pod) : (d.setPod p x).sys = d.sys := rfl
@[simp] theorem Dev.setPod_evq (d : Dev) (p : Nat) (x : Pod) : (d.setPod p x).evq = d.evq := rfl
@[simp] theorem Dev.setPod_ftq (d : Dev) (p : Nat) (x : Pod) : (d.setPod p x).ftq = d.ftq := rfl
@[simp] theorem Dev.setPod_out (d : Dev) (p : Nat) (x : Pod) : (d.setPod p x).out = d.out := rfl
@[simp] theorem Dev.setPod_ths (d : Dev) (p : Nat) (x : Pod) : (d.setPod p x).ths = d.ths := rfl
@[simp] theorem Dev.setPod_cores (d : Dev) (p : Nat) (x : Pod) : (d.setPod p x).cores = d.cores := rfl
@[simp] theorem Dev.setPod_shl (d : Dev) (p : Nat) (x : Pod) : (d.setPod p x).shl = d.shl := rfl
@[simp] theorem Dev.setPod_slots (d : Dev) (p : Nat) (x : Pod) : (d.setPod p x).slots = d.slots := rfl
@[simp] theorem Dev.setPod_trefs (d : Dev) (p : Nat) (x : Pod) : (d.setPod p x).trefs = d.trefs := rfl
@[simp] theorem Dev.setPod_lastVer (d : Dev) (p : Nat) (x : Pod) : (d.setPod p x).lastVer = d.lastVer := rfl
@[simp] theorem Dev.setPod_items (d : Dev) (p : Nat) (x : Pod) : (d.setPod p x).items = d.items := rfl
@[simp] theorem Dev.setPod_cmsgs (d : Dev) (p : Nat) (x : Pod) : (d.setPod p x).cmsgs = d.cmsgs := rfl
@[simp] theorem Dev.setPod_effq (d : Dev) (p : Nat) (x : Pod) : (d.setPod p x).effq = d.effq := rfl
@[simp] theorem Dev.setPod_applied (d : Dev) (p : Nat) (x : Pod) : (d.setPod p x).applied = d.applied := rfl
@[simp] theorem Dev.setPod_buf (d : Dev) (p : Nat) (x : Pod) : (d.setPod p x).buf = d.buf := rfl
@[simp] theorem Dev.setPod_tbl (d : Dev) (p : Nat) (x : Pod) : (d.setPod p x).tbl = d.tbl := rfl
@[simp] theorem Dev.setPod_cry (d : Dev) (p : Nat) (x : Pod) : (d.setPod p x).cry = d.cry := rfl
@[simp] theorem Dev.setPod_saDir (d : Dev) (p : Nat) (x : Pod) : (d.setPod p x).saDir = d.saDir := rfl
@[simp] theorem Dev.setPod_hst (d : Dev) (p : Nat) (x : Pod) : (d.setPod p x).hst = d.hst := rfl
@[simp] theorem Dev.setPod_net (d : Dev) (p : Nat) (x : Pod) : (d.setPod p x).net = d.net := rfl
@[simp] theorem Dev.setPod_grp (d : Dev) (p : Nat) (x : Pod) : (d.setPod p x).grp = d.grp := rfl
@[simp] theorem Dev.setPod_stw (d : Dev) (p : Nat) (x : Pod) : (d.setPod p x).stw = d.stw := rfl
@[simp] theorem Dev.setPod_fc (d : Dev) (p : Nat) (x : Pod) : (d.setPod p x).fc = d.fc := rfl
@[simp] theorem Dev.setPod_pwr (d : Dev) (p : Nat) (x : Pod) : (d.setPod p x).pwr = d.pwr := rfl
@[simp] theorem Dev.setPod_eye (d : Dev) (p : Nat) (x : Pod) : (d.setPod p x).eye = d.eye := rfl
@[simp] theorem Dev.setPod_mgt (d : Dev) (p : Nat) (x : Pod) : (d.setPod p x).mgt = d.mgt := rfl
@[simp] theorem Dev.setPod_gp (d : Dev) (p : Nat) (x : Pod) : (d.setPod p x).gp = d.gp := rfl
@[simp] theorem Dev.setPod_gbl (d : Dev) (p : Nat) (x : Pod) : (d.setPod p x).gbl = d.gbl := rfl
@[simp] theorem Dev.setPod_rd (d : Dev) (p : Nat) (x : Pod) (q : Reg) (j : Nat) : (d.setPod p x).rd q j = d.rd q j := rfl
@[simp] theorem Dev.setPod_get (d : Dev) (p : Nat) (x : Pod) (q : Fld) (j : Nat) : (d.setPod p x).get q j = d.get q j := rfl
@[simp] theorem Dev.setPod_isUp (d : Dev) (p : Nat) (x : Pod) (m : Nat) : (d.setPod p x).isUp m = d.isUp m := rfl
@[simp] theorem Dev.setPod_pod (d : Dev) (p q : Nat) (x : Pod) : (d.setPod p x).pod q = if q = p then x else d.pod q := Tbl.get_set d.pods p q x

/-! When an item is changed -/
@[simp] theorem Dev.setItem_regs (d : Dev) (st : Nat) (x : Item) : (d.setItem st x).regs = d.regs := rfl
@[simp] theorem Dev.setItem_ctrs (d : Dev) (st : Nat) (x : Item) : (d.setItem st x).ctrs = d.ctrs := rfl
@[simp] theorem Dev.setItem_closed (d : Dev) (st : Nat) (x : Item) : (d.setItem st x).closed = d.closed := rfl
@[simp] theorem Dev.setItem_rlatch (d : Dev) (st : Nat) (x : Item) : (d.setItem st x).rlatch = d.rlatch := rfl
@[simp] theorem Dev.setItem_wlatch (d : Dev) (st : Nat) (x : Item) : (d.setItem st x).wlatch = d.wlatch := rfl
@[simp] theorem Dev.setItem_epoch (d : Dev) (st : Nat) (x : Item) : (d.setItem st x).epoch = d.epoch := rfl
@[simp] theorem Dev.setItem_wins (d : Dev) (st : Nat) (x : Item) : (d.setItem st x).wins = d.wins := rfl
@[simp] theorem Dev.setItem_sys (d : Dev) (st : Nat) (x : Item) : (d.setItem st x).sys = d.sys := rfl
@[simp] theorem Dev.setItem_evq (d : Dev) (st : Nat) (x : Item) : (d.setItem st x).evq = d.evq := rfl
@[simp] theorem Dev.setItem_ftq (d : Dev) (st : Nat) (x : Item) : (d.setItem st x).ftq = d.ftq := rfl
@[simp] theorem Dev.setItem_out (d : Dev) (st : Nat) (x : Item) : (d.setItem st x).out = d.out := rfl
@[simp] theorem Dev.setItem_ths (d : Dev) (st : Nat) (x : Item) : (d.setItem st x).ths = d.ths := rfl
@[simp] theorem Dev.setItem_cores (d : Dev) (st : Nat) (x : Item) : (d.setItem st x).cores = d.cores := rfl
@[simp] theorem Dev.setItem_pods (d : Dev) (st : Nat) (x : Item) : (d.setItem st x).pods = d.pods := rfl
@[simp] theorem Dev.setItem_shl (d : Dev) (st : Nat) (x : Item) : (d.setItem st x).shl = d.shl := rfl
@[simp] theorem Dev.setItem_slots (d : Dev) (st : Nat) (x : Item) : (d.setItem st x).slots = d.slots := rfl
@[simp] theorem Dev.setItem_trefs (d : Dev) (st : Nat) (x : Item) : (d.setItem st x).trefs = d.trefs := rfl
@[simp] theorem Dev.setItem_lastVer (d : Dev) (st : Nat) (x : Item) : (d.setItem st x).lastVer = d.lastVer := rfl
@[simp] theorem Dev.setItem_cmsgs (d : Dev) (st : Nat) (x : Item) : (d.setItem st x).cmsgs = d.cmsgs := rfl
@[simp] theorem Dev.setItem_effq (d : Dev) (st : Nat) (x : Item) : (d.setItem st x).effq = d.effq := rfl
@[simp] theorem Dev.setItem_applied (d : Dev) (st : Nat) (x : Item) : (d.setItem st x).applied = d.applied := rfl
@[simp] theorem Dev.setItem_buf (d : Dev) (st : Nat) (x : Item) : (d.setItem st x).buf = d.buf := rfl
@[simp] theorem Dev.setItem_tbl (d : Dev) (st : Nat) (x : Item) : (d.setItem st x).tbl = d.tbl := rfl
@[simp] theorem Dev.setItem_cry (d : Dev) (st : Nat) (x : Item) : (d.setItem st x).cry = d.cry := rfl
@[simp] theorem Dev.setItem_saDir (d : Dev) (st : Nat) (x : Item) : (d.setItem st x).saDir = d.saDir := rfl
@[simp] theorem Dev.setItem_hst (d : Dev) (st : Nat) (x : Item) : (d.setItem st x).hst = d.hst := rfl
@[simp] theorem Dev.setItem_net (d : Dev) (st : Nat) (x : Item) : (d.setItem st x).net = d.net := rfl
@[simp] theorem Dev.setItem_grp (d : Dev) (st : Nat) (x : Item) : (d.setItem st x).grp = d.grp := rfl
@[simp] theorem Dev.setItem_stw (d : Dev) (st : Nat) (x : Item) : (d.setItem st x).stw = d.stw := rfl
@[simp] theorem Dev.setItem_fc (d : Dev) (st : Nat) (x : Item) : (d.setItem st x).fc = d.fc := rfl
@[simp] theorem Dev.setItem_pwr (d : Dev) (st : Nat) (x : Item) : (d.setItem st x).pwr = d.pwr := rfl
@[simp] theorem Dev.setItem_eye (d : Dev) (st : Nat) (x : Item) : (d.setItem st x).eye = d.eye := rfl
@[simp] theorem Dev.setItem_mgt (d : Dev) (st : Nat) (x : Item) : (d.setItem st x).mgt = d.mgt := rfl
@[simp] theorem Dev.setItem_gp (d : Dev) (st : Nat) (x : Item) : (d.setItem st x).gp = d.gp := rfl
@[simp] theorem Dev.setItem_gbl (d : Dev) (st : Nat) (x : Item) : (d.setItem st x).gbl = d.gbl := rfl
@[simp] theorem Dev.setItem_rd (d : Dev) (st : Nat) (x : Item) (q : Reg) (j : Nat) : (d.setItem st x).rd q j = d.rd q j := rfl
@[simp] theorem Dev.setItem_get (d : Dev) (st : Nat) (x : Item) (q : Fld) (j : Nat) : (d.setItem st x).get q j = d.get q j := rfl
@[simp] theorem Dev.setItem_isUp (d : Dev) (st : Nat) (x : Item) (m : Nat) : (d.setItem st x).isUp m = d.isUp m := rfl
@[simp] theorem Dev.setItem_item (d : Dev) (st a : Nat) (x : Item) : (d.setItem st x).item a = if a = st then some x else d.item a := Tbl.get_set d.items st a (some x)

end Sys2Proof.Machine
end

