-- ==== Sys2Proof/Laws/Thread.lean ====
section
/-!
SUPPORT. Threads: registers and predicates read after a write, and everything that issuing an instruction can do.
-/
namespace Sys2Proof.Machine

theorem Thread.rg_zero (t : Thread) : t.rg 0 = 0#64 := rfl

/-- A general register reads back what was written; g0 keeps reading 0 (R90). -/
theorem Thread.rg_wg_same (t : Thread) (n : Fin 32) (v : Word) : (t.wg n v).rg n = if n.val = 0 then 0#64 else v := by
  unfold Thread.wg Thread.rg
  split
  · simp [*]
  · simp [*]

theorem Thread.rg_wg_ne (t : Thread) (n m : Fin 32) (v : Word) (h : m ≠ n) : (t.wg n v).rg m = t.rg m := by
  have hv : m.val ≠ n.val := fun e => h (Fin.ext e)
  unfold Thread.rg
  split
  · rfl
  · unfold Thread.wg
    split
    · rfl
    · exact Tbl.get_set_ne _ _ _ _ hv

@[simp] theorem Thread.wg_pc (t : Thread) (n : Fin 32) (v : Word) : (t.wg n v).pc = t.pc := by unfold Thread.wg; split <;> rfl
@[simp] theorem Thread.wg_code (t : Thread) (n : Fin 32) (v : Word) : (t.wg n v).code = t.code := by unfold Thread.wg; split <;> rfl
@[simp] theorem Thread.wg_st (t : Thread) (n : Fin 32) (v : Word) : (t.wg n v).st = t.st := by unfold Thread.wg; split <;> rfl
@[simp] theorem Thread.wg_p (t : Thread) (n : Fin 32) (v : Word) : (t.wg n v).p = t.p := by unfold Thread.wg; split <;> rfl
@[simp] theorem Thread.wg_tks (t : Thread) (n : Fin 32) (v : Word) : (t.wg n v).tks = t.tks := by unfold Thread.wg; split <;> rfl
@[simp] theorem Thread.wg_effs (t : Thread) (n : Fin 32) (v : Word) : (t.wg n v).effs = t.effs := by unfold Thread.wg; split <;> rfl

/-- A predicate reads back what was written; p0 keeps reading 1 (R90). -/
theorem Thread.rp_wp_same (t : Thread) (n : Fin 8) (v : Bool) : (t.wp n v).rp n = if n.val = 0 then true else v := by
  unfold Thread.wp Thread.rp
  split
  · simp [*]
  · have h : (setBits t.p n.val 1 (b2n v)).testBit n.val = v := by
      rw [setBits_testBit]; cases v <;> simp [b2n]
    simp [*, bit]

theorem Thread.rp_wp_ne (t : Thread) (n m : Fin 8) (v : Bool) (h : m ≠ n) : (t.wp n v).rp m = t.rp m := by
  have hv : m.val ≠ n.val := fun e => h (Fin.ext e)
  unfold Thread.wp Thread.rp
  split
  · rfl
  · simp only [bit, setBits_testBit]
    rw [if_neg (by omega)]

theorem Thread.tk_setTk_same (t : Thread) (k : Fin 8) (x : Ticket) : (t.setTk k x).tk k = x := Tbl.get_set_same t.tks k.val x

/-! ### Issue -/

/-- What issuing does with the answer of an instruction. -/
def Dev.answered (d : Dev) (th len : Nat) : Iss → Dev
  | .ok t2 d2 => d2.setTh th t2
  | .trap k => d.trap th k (d.th th).pc len
  | .done d2 => d2

/-- Everything that issuing an instruction can do (R116, R118, R120, R121). -/
theorem Dev.issue_eq (d : Dev) (th len : Nat) (g : Guard) (ill : Bool) (f : Dev → Thread → Iss) :
    d.issue th len g ill f =
      if d.canIssue th then
        if (d.th th).code ≤ (d.th th).pc then d.trap th kBRANCH (d.th th).pc len
        else if ill then d.trap th kILLEGAL (d.th th).pc len
        else if g.holds (d.th th) then d.answered th len (f d { d.th th with pc := (d.th th).pc + len })
        else d.setTh th { d.th th with pc := (d.th th).pc + len }
      else d := by
  unfold Dev.issue Dev.answered
  rfl

/-- An instruction that issues with its guard holding, and is not ILLEGAL, does what its answer says. -/
theorem Dev.issue_holds (d : Dev) (th len : Nat) (g : Guard) (f : Dev → Thread → Iss) (h1 : d.canIssue th = true)
    (h2 : (d.th th).pc < (d.th th).code) (h3 : g.holds (d.th th) = true) :
    d.issue th len g false f = d.answered th len (f d { d.th th with pc := (d.th th).pc + len }) := by
  simp [Dev.issue_eq, h1, h3, Nat.not_le.2 h2]

/-- A guarded-off instruction only advances the pc (R116). -/
theorem Dev.issue_guarded_off (d : Dev) (th len : Nat) (g : Guard) (f : Dev → Thread → Iss) (h1 : d.canIssue th = true)
    (h2 : (d.th th).pc < (d.th th).code) (h3 : g.holds (d.th th) = false) :
    d.issue th len g false f = d.setTh th { d.th th with pc := (d.th th).pc + len } := by
  simp [Dev.issue_eq, h1, h3, Nat.not_le.2 h2]

/-- A thread that cannot issue does nothing. -/
theorem Dev.issue_idle (d : Dev) (th len : Nat) (g : Guard) (ill : Bool) (f : Dev → Thread → Iss) (h : d.canIssue th = false) :
    d.issue th len g ill f = d := by
  simp [Dev.issue_eq, h]

/-! ### Fault checks -/

theorem firstFault_none (l : List (Bool × Nat)) (h : ∀ c ∈ l, c.1 = false) : firstFault l = none := by
  induction l with
  | nil => rfl
  | cons c t ih =>
    obtain ⟨b, k⟩ := c
    have hb : b = false := h (b, k) (by simp)
    subst hb
    exact ih fun c hc => h c (by simp [hc])

/-- An instruction none of whose fault conditions holds completes. -/
theorem checked_ok (l : List (Bool × Nat)) (r : Iss) (h : ∀ c ∈ l, c.1 = false) : checked l r = r := by
  simp [checked, firstFault_none l h]

theorem byPrecedence_mem {l : List (Bool × Nat)} {c : Bool × Nat} (h : c ∈ byPrecedence l) : c ∈ l := by
  simp only [byPrecedence, List.mem_flatMap, List.mem_filter] at h
  obtain ⟨_, _, h, _⟩ := h
  exact h

theorem checked_byPrecedence_ok (l : List (Bool × Nat)) (r : Iss) (h : ∀ c ∈ l, c.1 = false) : checked (byPrecedence l) r = r :=
  checked_ok _ _ fun c hc => h c (byPrecedence_mem hc)

end Sys2Proof.Machine
end

