-- ==== Sys2Proof/Laws/Window.lean ====
section
/-!
SUPPORT. Everything that the shared wrappers of a command can do: a command on the device, a window command before and
after RUN, and a submission to a result window.
-/
namespace Sys2Proof.Machine

/-- A command that acts on the device alone answers a next state and leaves the queue. -/
theorem State.on_keeps (s : State) (f : Dev → Dev) :
    ∃ d l, s.on f = .next { dev := d, pending := s.pending, deferred := l } := ⟨_, _, rfl⟩

/-- So does a window command. -/
theorem State.window_keeps (s : State) (w : WinId) (c : WinCmd) (f : Dev → Dev) :
    ∃ d l, s.window w c f = .next { dev := d, pending := s.pending, deferred := l } := by
  unfold State.window
  split <;> exact ⟨_, _, rfl⟩

/-- From RUN on a window command acts on the device (R86). -/
theorem State.window_run (s : State) (w : WinId) (c : WinCmd) (f : Dev → Dev) (h : 12 ≤ s.dev.stw.start.step) :
    s.window w c f = s.on f := by
  unfold State.window
  rw [if_neg]
  omega

/-- A window that is BUSY or DONE takes no command to hold. -/
theorem State.window_busy (s : State) (w : WinId) (c : WinCmd) (f : Dev → Dev) (h : (s.dev.win w).st ≠ 0) :
    s.window w c f = s.on f := by
  unfold State.window
  rw [if_neg]
  exact fun e => h e.2.2.2

/-- Before RUN an IDLE window takes the command and stays BUSY. -/
theorem State.window_held (s : State) (w : WinId) (c : WinCmd) (f : Dev → Dev)
    (h : s.dev.stw.start.step < 12 ∧ s.dev.isUp w.island ∧ ¬ s.dev.halted ∧ (s.dev.win w).st = 0) :
    s.window w c f = .next { s with dev := s.dev.winBusy w, deferred := s.deferred.filter (·.1 != w) ++ [(w, c)] } := by
  unfold State.window
  rw [if_pos h]

/-- A command on the device keeps what is held for RUN. -/
theorem State.on_heldOk (s t : State) (f : Dev → Dev) (h : s.heldOk) (e : s.on f = .next t) : t.heldOk := by
  simp only [State.on_eq, Host.Outcome.next.injEq] at e
  subst e
  exact h

/-- A command of window `w` keeps at most one command held for each window. -/
theorem State.window_heldOk (s t : State) (w : WinId) (c : WinCmd) (f : Dev → Dev) (h : s.heldOk) (hc : c.window = w)
    (e : s.window w c f = .next t) : t.heldOk := by
  unfold State.window at e
  split at e
  · simp only [Host.Outcome.next.injEq] at e
    subst e
    obtain ⟨h1, h2⟩ := h
    constructor
    · simp only [List.map_append, List.map_cons, List.map_nil]
      rw [List.nodup_append]
      refine ⟨List.Sublist.nodup ((List.filter_sublist).map _) h1, by simp, ?_⟩
      intro a ha b hb
      obtain ⟨x, hx, rfl⟩ := List.mem_map.mp ha
      have hw := (List.mem_filter.mp hx).2
      rw [List.mem_singleton] at hb
      subst hb
      simpa using hw
    · intro x hx
      simp at hx
      rcases hx with hx | hx
      · exact h2 _ hx.1
      · subst hx
        exact hc
  · exact State.on_heldOk _ _ _ h e

/-- A submission reaches an IDLE window that is up, in a device that is not HALTED (R86). -/
theorem Dev.submit_idle (d : Dev) (w : WinId) (f : Dev → Dev) (hu : d.isUp w.island = true) (hh : d.halted = false)
    (hs : (d.win w).st = 0) : d.submit w f = f d := by
  simp [Dev.submit, Dev.onIsland, hu, hh, hs]

/-- A submission to a window that is BUSY or DONE is ignored with cause WINDOW_HELD (R88). -/
theorem Dev.submit_busy (d : Dev) (w : WinId) (f : Dev → Dev) (hu : d.isUp w.island = true) (hh : d.halted = false)
    (hs : (d.win w).st ≠ 0) : d.submit w f = d.winIgnored w 0x10 cWINDOW_HELD := by
  simp [Dev.submit, Dev.onIsland, hu, hh, hs]

/-- In a HALTED device a window that does not survive HALT ignores the command with cause LOCKED (R468). -/
theorem Dev.submit_halted (d : Dev) (w : WinId) (f : Dev → Dev) (hu : d.isUp w.island = true) (hh : d.halted = true)
    (hw : w.survives = false) : d.submit w f = d.winIgnored w 0x10 cLOCKED := by
  simp [Dev.submit, Dev.onIsland, hu, hh, hw]

/-- A submission to a window whose island is in reset does nothing. -/
theorem Dev.submit_down (d : Dev) (w : WinId) (f : Dev → Dev) (hu : d.isUp w.island = false) : d.submit w f = d := by
  simp [Dev.submit, Dev.onIsland, hu]

/-- A window that takes a command is BUSY; one that completes is DONE, with SEQ one up, past 0 (R86). -/
@[simp] theorem Dev.win_setWin_same (d : Dev) (w : WinId) (x : Win) : (d.setWin w x).win w = x := Tbl.get_set_same d.wins w.code x

/-- A running steward acts on a command that it takes (R440). -/
theorem Dev.steward_takes (d : Dev) (m : Fin 16) (tmo : BitVec 14) (f : Dev → Dev) (h : d.stewardTakes m tmo) :
    d.steward m tmo f = f d := by
  obtain ⟨h1, h2, h3, h4, h5, h6, h7⟩ := h
  have h8 : ¬ 10000 < tmo.toNat := by omega
  simp [Dev.steward, Dev.submit, Dev.onIsland, WinId.survives, h1, h2, h3, h4, h5, h8]
  intro a b
  simp_all

/-- It acts for the PF of the window. -/
theorem Dev.stewardPf_takes (d : Dev) (m : Fin 16) (tmo : BitVec 14) (f : Nat → Dev → Dev) (p : Nat) (h : d.stewardTakes m tmo)
    (hp : stmPf m = some p) : d.stewardPf m tmo f = f p d := by
  rw [Dev.stewardPf, Dev.steward_takes d m tmo _ h, hp]

/-- And for PF0 alone where the command is PF0's. -/
theorem Dev.steward0_takes (d : Dev) (m : Fin 16) (tmo : BitVec 14) (f : Dev → Dev) (h : d.stewardTakes m tmo)
    (hp : stmPf m = some 0) : d.steward0 m tmo f = f d := by
  rw [Dev.steward0, Dev.stewardPf_takes d m tmo _ 0 h hp]
  rfl

/-- A read of shared memory that is answered gives the bytes, zero-filled to the length. -/
theorem Dev.shmRead_ok (d : Dev) (p off len : Nat) (b : List Nat) (h : d.shmOk p off len = true) :
    d.shmRead p off len (some b) = (slice (b ++ List.replicate len 0) 0 len, 0) := by
  simp [Dev.shmRead, h]

end Sys2Proof.Machine
end

