-- ==== Sys2Proof/Tests/WitnessEnc.lean ====
section
/-!
SUPPORT. A canonical encoding of group settings that breaks no rule, with no table: the witness of the commits' hypotheses.
-/
namespace Sys2Proof.Tests
open Sys2Proof.Machine
set_option Elab.async false
/-- A canonical encoding of the settings of a group of members `mask`, all slots with member 1, no entry and no table (Table 22-4). -/
def tEnc (mask : Nat) : List Nat :=
  toLe 4 0x4759444D ++ toLe 2 1 ++ [mask, 0] ++ toLe 2 1 ++ toLe 2 5 ++ toLe 2 0 ++ toLe 2 0 ++ (List.replicate 256 1 ++ List.replicate 1024 0)

theorem breach_none (l : List (Bool × Nat)) (h : ∀ x ∈ l, x.1 = false) : firstBreach l = none := by
  induction l with
  | nil => rfl
  | cons x t ih => 
    have := h x (by simp)
    simp_all [firstBreach]

theorem tEnc_slice (m o n : Nat) (ho : 272 ≤ o) (hn : o + n ≤ 1296) : slice (tEnc m) o n = List.replicate n 0 := by
  have e : tEnc m = (toLe 4 0x4759444D ++ toLe 2 1 ++ [m, 0] ++ toLe 2 1 ++ toLe 2 5 ++ toLe 2 0 ++ toLe 2 0 ++ List.replicate 256 1) ++ List.replicate 1024 0 := by
    simp only [tEnc, List.append_assoc]
  have l : (toLe 4 0x4759444D ++ toLe 2 1 ++ [m, 0] ++ toLe 2 1 ++ toLe 2 5 ++ toLe 2 0 ++ toLe 2 0 ++ List.replicate 256 1).length = 272 := by
    simp only [List.length_append, toLe, List.length_map, List.length_range, List.length_replicate, List.length_cons, List.length_nil]
  rw [e, slice, List.drop_append, List.drop_of_length_le (by omega), l]
  simp only [List.nil_append, List.drop_replicate, List.take_replicate, List.length_replicate]
  rw [Nat.min_eq_left (by omega), Nat.sub_self]; simp

theorem tEnc_slot (m s : Nat) (h : s < 256) : slice (tEnc m) (16 + s) 1 = [1] := by
  have l : (toLe 4 0x4759444D ++ toLe 2 1 ++ [m, 0] ++ toLe 2 1 ++ toLe 2 5 ++ toLe 2 0 ++ toLe 2 0).length = 16 := by
    simp [toLe]
  rw [tEnc, slice, List.drop_append, List.drop_of_length_le (by omega), l, List.drop_append]
  simp only [List.nil_append, List.drop_replicate, List.length_replicate]
  have : 256 - (16 + s - 16) = (255 - s) + 1 := by omega
  rw [this, List.replicate_succ]; simp

theorem tEnc_good : encBreach (tEnc 3) 1296 = none := by
  have h0 : ∀ s < 256, leNat (slice (tEnc 3) (16 + s) 1) = 1 := fun s h => by rw [tEnc_slot 3 s h]; rfl
  have hr : grpRecs (tEnc 3) = [] := by decide +kernel
  apply breach_none
  intro x hx
  simp only [List.mem_append, hr, List.mapIdx_nil, List.not_mem_nil, or_false] at hx
  rcases hx with (hx | hx) | hx
  · have : ∀ x ∈ [(leNat (slice (tEnc 3) 0 4) != 0x4759444D, 0), (leNat (slice (tEnc 3) 4 2) != 1, 4),
       (leNat (slice (tEnc 3) 6 1) == 0 || decide (15 < leNat (slice (tEnc 3) 6 1)), 6), (decide (1 < leNat (slice (tEnc 3) 7 1)), 7),
       (leNat (slice (tEnc 3) 8 2) == 0 || decide (1000 < leNat (slice (tEnc 3) 8 2)), 8), (decide (leNat (slice (tEnc 3) 10 2) < 5 ∨ 1000 < leNat (slice (tEnc 3) 10 2)), 10),
       (decide (1024 < leNat (slice (tEnc 3) 12 2) ∨ 1296 ≠ 1296 + 16 * leNat (slice (tEnc 3) 12 2)), 12), (leNat (slice (tEnc 3) 14 2) != 0, 14)], x.1 = false := by decide +kernel
    exact this x hx
  · obtain ⟨s, hs, rfl⟩ := List.mem_map.mp hx
    have := h0 s (List.mem_range.mp hs)
    have m : leNat (slice (tEnc 3) 6 1) = 3 := by decide +kernel
    simp only [this, m]; decide
  · obtain ⟨i, hi, hx⟩ := List.mem_flatMap.mp hx
    have hi := List.mem_range.mp hi
    simp only [tEnc_slice 3 (272 + 4 * i + 1) 1 (by omega) (by omega), tEnc_slice 3 (272 + 4 * i + 2) 2 (by omega) (by omega)] at hx
    simp only [List.mem_cons, List.not_mem_nil, or_false] at hx
    rcases hx with rfl | rfl <;> rfl
theorem witness_GroupCommitEncoding (d : Dev) (h : grpRecs d.grp.set = []) :
    encBreach (slice (tEnc 3 ++ List.replicate 1296 0) 0 1296) 1296 = none ∧ encBreach (tEnc 3) (tEnc 3).length = none ∧
    (d.grpTables (slice (tEnc 3 ++ List.replicate 1296 0) 0 1296)).2 = true ∧ (d.grpTables (tEnc 3)).2 = true := by
  have e : slice (tEnc 3 ++ List.replicate 1296 0) 0 1296 = tEnc 3 := by decide +kernel
  have l : (tEnc 3).length = 1296 := by decide +kernel
  have r : grpRecs (tEnc 3) = [] := by decide +kernel
  rw [e, l]
  exact ⟨tEnc_good, tEnc_good, by simp [Dev.grpTables, r, h], by simp [Dev.grpTables, r, h]⟩

end Sys2Proof.Tests
end

