-- ==== Sys2Proof/Tests/WitnessNgl.lean ====
section
/-!
SUPPORT. Witnesses: for each statement about NGL instructions, a small state and operands that meet its hypotheses, clause
by clause, at the ends of their ranges where they have ends.
-/
namespace Sys2Proof.Tests
open Sys2Proof.Machine
set_option Elab.async false

/-- A guard that always holds: p0, not negated. -/
def tG : Guard := ⟨0, false⟩

/-- A state with a device and nothing else. -/
def tSt (d : Dev) : State := { dev := d }

/-- Thread 1 of pod 0, a worker bound to item 7, with 64 bytes of code and the registers given. -/
def tTh (rs : List (Nat × Word)) : Thread :=
  { st := .bound, code := 64, stamp := some 7, g := ⟨rs⟩ }

/-- A device whose thread 1 is `t`; its item 7 is a frame of 64 bytes; its table reference 2 names table 5, EXACT, with keys of 8
bytes and results of 24. -/
def tNgl (t : Thread) : Dev :=
  let x : Item := { tok := { len := 64, head := 64 }, data := List.replicate 64 0xA5 }
  let d : Dev := { ths := ⟨[(1, t)]⟩, items := ⟨[(7, some x)]⟩, trefs := ⟨[(2, { table := some 5, rd := true, wr := true })]⟩ }
  ((d.put F.POD_CORE_CTL_THREAD_EN 0 0xFF).put F.TABLE_DESC_CFG_KEY_LEN 5 8).put F.TABLE_DESC_CFG_RESULT_LEN 5 24

theorem witness_AluInstructionsWriteTheirResult : (tNgl (tTh [])).Issues 1 tG := by decide +kernel

theorem witness_ImmediateInstructionsWriteTheirResult :
    (tNgl (tTh [])).Issues 1 tG ∧ (ImmI.ext 0xFFFFFFFF).zext.toNat < 2 ^ 32 ∧ (true = true → (31 : Fin 64).val < 32) := by decide +kernel

theorem witness_PredicateInstructionsComplete : (tNgl (tTh [])).Issues 1 tG := by decide +kernel

theorem witness_BitInstructionsWriteTheirResult : (tNgl (tTh [])).Issues 1 tG ∧ (32 : Fin 64).val + (31 : Fin 64).val < 64 := by
  decide +kernel

theorem witness_BranchInstructionsTakeTheirTarget :
    let d := tNgl (tTh [(2, 56)])
    let t := d.past 1 4
    let near := (BitVec.ofInt 64 (((d.th 1).pc : Int) + 4 * (15 : BitVec 22).toInt)).toNat
    let far := (BitVec.ofInt 64 ((t.rg 2).toInt + 4 * (1 : BitVec 12).toInt)).toNat
    d.Issues 1 tG ∧ near % 4 = 0 ∧ near + 4 ≤ t.code ∧ far % 4 = 0 ∧ far + 4 ≤ t.code := by decide +kernel

theorem witness_MemoryInstructionsComplete :
    let d := tNgl (tTh [(2, 0x1FF0)])
    let t := d.past 1 (ImmL.base 8).len
    let a := (BitVec.ofNat 64 ((t.rg 2).toNat + (ImmL.base 8).sext.toNat)).toNat
    d.Issues 1 tG ∧ (localRegion a 8).isSome = true ∧ localRegion a 8 = some true ∧ a % 8 = 0 ∧
      (localRegion 0x1FFFF8 8).isSome = true ∧ (BitVec.ofNat 64 (0 + 0x1F8)).toNat + 8 ≤ 0x200 := by decide +kernel

/-- Thread 1 with 16 bytes at LOCAL 0x100 that read 8 bytes at address 0 of instance 3, and 32 zero bytes at 0x200. -/
def tTk (rs : List (Nat × Word)) : Thread := { tTh rs with loc := ⟨[(0x108, 8), (0x10A, 3)]⟩ }

theorem witness_TicketInstructionsMakeRequests :
    (let d := tNgl (tTh [(2, 0x40), (3, 0x60)])
     let t := d.past 1 4
     d.Issues 1 tG ∧ (t.tk 0).st = 0 ∧ (d.tref t 2).table = some 5 ∧ (d.tref t 2).rd = true ∧
       alignedRange (t.rg 2).toNat (d.get F.TABLE_DESC_CFG_KEY_LEN 5) ∧ privateRange (t.rg 3).toNat (d.get F.TABLE_DESC_CFG_RESULT_LEN 5)) ∧
    (let d := tNgl (tTh [(2, 5 * 2 ^ 28), (3, 0x1FE8)])
     let t := d.past 1 4
     d.Issues 1 tG ∧ (t.tk 0).st = 0 ∧ bits (t.rg 2).toNat 28 10 = 5 ∧ (t.rg 2).toNat < 2 ^ 40 ∧
       privateRange (t.rg 3).toNat (d.get F.TABLE_DESC_CFG_RESULT_LEN 5)) ∧
    (let d := tNgl (tTh [(2, 0x1E00), (3, 0x2003FFE)])
     let t := d.past 1 4
     let b := (t.rg 3).toNat
     d.Issues 1 tG ∧ (t.tk 0).st = 0 ∧ b < 2 ^ 32 ∧ b % 2 ^ 16 ≤ 16382 ∧ 1 ≤ b / 2 ^ 16 ∧ b / 2 ^ 16 ≤ 512 ∧
       privateRange (t.rg 2).toNat (b / 2 ^ 16)) ∧
    (let d := tNgl (tTk [(2, 0x100), (3, 0x60)])
     let t := d.past 1 4
     let l16 := d.localBytes 1 t 0x100 16
     let w2 := leNat (slice l16 8 4)
     d.Issues 1 tG ∧ (t.tk 0).st = 0 ∧ (localRegion (t.rg 2).toNat 16).isSome = true ∧ 1 ≤ w2 % 2 ^ 13 ∧ w2 % 2 ^ 13 ≤ 4096 ∧
       bits w2 13 3 = 0 ∧ bits w2 28 4 = 0 ∧ leNat (slice l16 12 4) = 0 ∧ (d.isTenant t = false → bits w2 16 12 ≤ 2051) ∧
       privateRange (t.rg 3).toNat (w2 % 2 ^ 13)) ∧
    (let d := tNgl (tTh [(2, 25 * 2 ^ 32 + 0x100), (3, 0x1FF8)])
     let t := d.past 1 4
     let a := (t.rg 2).toNat
     d.Issues 1 tG ∧ (t.tk 0).st = 0 ∧ d.isTenant t = false ∧ bits a 32 6 < 26 ∧ bits a 32 6 ≤ 37 ∧ bits a 24 8 = 0 ∧ bits a 38 2 = 0 ∧
       bits a 52 12 = 0 ∧ a % 8 = 0 ∧ privateRange (t.rg 3).toNat 8) ∧
    (let d := tNgl (tTh [(2, 0x200), (3, 0x1FE0)])
     let t := d.past 1 4
     let l32 := d.localBytes 1 t 0x200 32
     let w3 := leNat (slice l32 12 4)
     d.Issues 1 tG ∧ (t.tk 0).st = 0 ∧ d.isTenant t = false ∧ verdictReserved l32 = false ∧ (localRegion (t.rg 2).toNat 32).isSome = true ∧
       privateRange (t.rg 3).toNat 32 ∧ bits w3 16 9 ≤ 256 ∧ bits (leNat (slice l32 8 4)) 0 14 ≤ (d.itemOf t).tok.len ∧
       privateRange (bits w3 0 16) (bits w3 16 9)) ∧
    (let d := tNgl { tTh [] with tks := ⟨[(0, { st := 2, req := .lk true 5 [1] 0x60 })]⟩ }
     let t := d.past 1 4
     d.Issues 1 tG ∧ (t.tk 0).st = 2 ∧ (t.tk 0).req = .lk true 5 [1] 0x60) := by
  refine ⟨?_, ?_, ?_, ?_, ?_, ?_, ?_⟩ <;> decide +kernel

theorem witness_WaitingInstructionsComplete :
    (let d := tNgl { tTh [] with tks := ⟨[(0, { st := 2 }), (1, { st := 1 })]⟩ }
     let t := d.past 1 4
     d.Issues 1 tG ∧ 2 ≤ (t.tk 0).st ∧ (t.tk 1).st = 1) ∧
    (let d := tNgl { tTh [(3, 0x1FF)] with tcmp := 0 }
     d.Issues 1 tG ∧ ((d.past 1 4).rg 3).toNat < 2 ^ 9 ∧ (d.past 1 4).tcmp ≤ d.now) ∧
    (let d := tNgl { tTh [] with tcmp := 2 ^ 64 - 1 }
     let t := d.past 1 4
     let v := (t.rg 3).toNat
     d.Issues 1 tG ∧ v < 2 ^ 9 ∧ ¬ (t.tcmp ≤ d.now ∨ Nat.land t.readyMask (v % 256) ≠ 0 ∨ (bit v 8 = true ∧ t.wake = true))) := by
  decide +kernel

/-- 16 bytes at LOCAL 0: a POP of 14 bytes at offset 0. -/
def tHapp : Thread := { tTh [] with loc := ⟨((toLe 4 (ePOP + 14 * 2 ^ 17)).zipIdx.map fun x => (x.2, x.1)).filter (·.2 != 0)⟩, edits := [] }

theorem witness_EditListInstructionsComplete :
    let d := tNgl tHapp
    let t := d.past 1 4
    let c := EditCmd.ofBytes (d.localBytes 1 t 0 16)
    d.Issues 1 tG ∧ alignedRange (t.rg 2).toNat 16 ∧ ¬ (c.src = 2 ∧ (c.cmd = ePUSH ∨ c.cmd = eWRITE)) ∧
      ¬ (c.cmd = eNVME_TX ∨ c.cmd = eNVME_PLACE) ∧ happBad (d.itemOf t) t.edits c = false ∧ t.edits.length < 16 := by decide +kernel

theorem witness_StagingInstructionsAppendTheirEffect :
    (let d := tNgl (tTh [(2, 0x40), (3, 0x60)])
     let t := d.past 1 4
     let kl := d.get F.TABLE_DESC_CFG_KEY_LEN 5
     let rl := d.get F.TABLE_DESC_CFG_RESULT_LEN 5 - 16
     d.Issues 1 tG ∧ t.effs.length < 32 ∧ (d.tref t 2).table = some 5 ∧ (d.tref t 2).wr = true ∧ d.get F.TABLE_DESC_CFG_TYPE 5 < 3 ∧
       d.get F.TABLE_DESC_CFG_SCOPE 5 ≠ 1 ∧ d.get F.TABLE_DESC_CFG_TYPE 5 = 0 ∧ alignedRange (t.rg 2).toNat (kl + 0) ∧ kl + rl ≤ 64 ∧
       alignedRange (t.rg 3).toNat rl) ∧
    (let d := tNgl (tTh [(2, 5 * 2 ^ 28), (3, 0xFFFFFFFF)])
     let t := d.past 1 4
     d.Issues 1 tG ∧ bits (t.rg 2).toNat 28 10 = 5 ∧ (t.rg 2).toNat < 2 ^ 40 ∧ 1 ≤ (t.rg 3).toNat ∧ (t.rg 3).toNat < 2 ^ 32) ∧
    (let d := tNgl { tTh [(2, 0x40)] with loc := ⟨[(0x4B, 0x50)]⟩ }
     let t := d.past 1 4
     let l32 := d.localBytes 1 t 0x40 32
     let w0 := leNat (slice l32 0 4)
     d.Issues 1 tG ∧ alignedRange (t.rg 2).toNat 32 ∧ bits (leNat (slice l32 8 8)) 28 10 = 5 ∧ leNat (slice l32 8 8) < 2 ^ 40 ∧
       bits w0 0 4 ≤ 6 ∧ bits w0 4 2 ≤ 1 ∧ bits w0 6 2 = 0 ∧ w0 < 2 ^ 15 ∧ leNat (slice l32 4 4) = 0 ∧ bits w0 8 7 % 4 = 0 ∧
       bits w0 8 7 + 4 ≤ d.get F.TABLE_DESC_CFG_RESULT_LEN 5 - 16 ∧ leNat (slice l32 24 8) = 0) ∧
    (let d := tNgl (tTh [(2, 16383), (3, 0xFFFFFFFF)])
     let t := d.past 1 4
     d.Issues 1 tG ∧ (t.rg 2).toNat ≤ 16383 ∧ 1 ≤ (t.rg 3).toNat ∧ (t.rg 3).toNat < 2 ^ 32 ∧ ¬ d.isTenant t = true) ∧
    (let d := tNgl (tTk [(2, 0x100), (3, 0x60)])
     let t := d.past 1 4
     let f := dmaBlock (d.localBytes 1 t 0x100 16)
     d.Issues 1 tG ∧ alignedRange (t.rg 2).toNat 16 ∧ f.2.2.2.2 = false ∧ 1 ≤ f.2.1 ∧ f.2.1 ≤ 16 ∧ f.2.2.1 ≤ 2051 ∧ f.2.2.2.1 = 0 ∧
       alignedRange (t.rg 3).toNat f.2.1 ∧ f.2.1 ≤ 16383 ∧ f.2.2.2.1 + f.2.1 ≤ (d.itemOf t).tok.len) ∧
    (let d := tNgl (tTh [(2, 0x1FC0), (3, 2051)])
     let t := d.past 1 4
     d.Issues 1 tG ∧ (t.rg 3).toNat < 2 ^ 13 ∧ (t.rg 3).toNat % 2 ^ 12 ≤ 2051 ∧ alignedRange (t.rg 2).toNat 64) ∧
    (let d := tNgl (tTh [(2, 25 * 2 ^ 32 + 0x104)])
     let t := d.past 1 4
     let a := (t.rg 2).toNat
     d.Issues 1 tG ∧ ¬ d.isTenant t = true ∧ bits a 32 6 < 26 ∧ bits a 24 8 = 0 ∧ bits a 38 2 = 0 ∧ bits a 52 12 = 0 ∧ a % 4 = 0) ∧
    (let d := tNgl (tTh [(2, 65535), (3, 1)])
     let t := d.past 1 4
     d.Issues 1 tG ∧ (t.rg 2).toNat ≤ 65535 ∧ (t.rg 3).toNat ≠ 0 ∧ ¬ d.isTenant t = true) ∧
    (let d := tNgl (tTh [(2, 63)])
     d.Issues 1 tG ∧ ((d.past 1 4).rg 2).toNat ≤ 63) := by
  refine ⟨?_, ?_, ?_, ?_, ?_, ?_, ?_, ?_, ?_⟩ <;> decide +kernel

theorem witness_EmitDiscardAndEndComplete :
    (let d := tNgl (tTh [(2, 0x100)])
     let t := d.past 1 4
     let a := (t.rg 2).toNat
     d.Issues 1 tG ∧ t.effs.length < 32 ∧ a < 2 ^ 19 ∧ (t.rg 3).toNat < 2 ^ 17 ∧ bits a 17 2 = 0 ∧ ¬ d.isTenant t = true ∧
       bit (t.rg 3).toNat 16 = false ∧ t.edits = [] ∧ 14 ≤ editedLen (d.itemOf t) t.edits ∧ editedLen (d.itemOf t) t.edits ≤ 16379) ∧
    (let d := tNgl (tTh [(2, 0x1FF)])
     let t := d.past 1 4
     let a := (t.rg 2).toNat
     d.Issues 1 tG ∧ t.effs = [] ∧ a < 2 ^ 11 ∧ bits a 8 3 = 1 ∧ 0x80 ≤ a % 2 ^ 8) ∧
    (let d := tNgl (tTh [(2, 0x100)])
     bits ((d.past 1 4).rg 2).toNat 8 3 = 1 ∧ ((d.past 1 4).rg 2).toNat % 2 ^ 8 = 0) := by decide +kernel

/-- Thread 0 of pod 0, its supervisor, issuing. -/
def tSup (rs : List (Nat × Word)) (notes : List (List Nat)) : Dev :=
  let d : Dev := { ths := ⟨[(0, { st := .bound, code := 64, g := ⟨rs⟩ })]⟩, pods := ⟨[(0, { sup := 0, notes := notes })]⟩ }
  d.put F.POD_CORE_CTL_THREAD_EN 0 0xFF

theorem witness_SupervisorInstructionsComplete :
    (let d := tSup [(2, 0x1FE0)] []
     d.Issues 0 tG ∧ d.isSup 0 = true ∧ privateRange ((d.past 0 4).rg 2).toNat 32 ∧ (d.pod 0).notes = []) ∧
    (let d := tSup [(2, 0x40)] [[1, 2, 3, 4, 5, 6, 7, 8]]
     d.Issues 0 tG ∧ d.isSup 0 = true ∧ privateRange ((d.past 0 4).rg 2).toNat 32 ∧ (d.pod 0).notes = [1, 2, 3, 4, 5, 6, 7, 8] :: []) ∧
    (∀ k : Fin 3, let d := tSup [(2, 1), (3, BitVec.ofNat 64 k.val)] []
     d.Issues 0 tG ∧ d.isSup 0 = true ∧ 0 * 128 + ((d.past 0 4).rg 2).toNat % 128 ≠ 0 ∧ ((d.past 0 4).rg 3).toNat = k.val) ∧
    (let d := tSup [(2, 0x1FFFF8)] []
     d.Issues 0 tG ∧ d.isSup 0 = true ∧ localRegion ((d.past 0 4).rg 2).toNat 8 = some false ∧ ((d.past 0 4).rg 2).toNat % 8 = 0) := by
  decide +kernel

theorem witness_HandlerInstructionsComplete :
    (let d := tNgl { tTh [(2, 0x180)] with st := .trapped, fkind := kBRANCH }
     let t := d.past 1 4
     d.Issues 1 tG ∧ (d.th 1).st = .trapped ∧ t.fkind ≠ kWATCHDOG ∧ (t.rg 2).toNat < 2 ^ 11 ∧ bits (t.rg 2).toNat 8 3 = 1 ∧
       0x80 ≤ (t.rg 2).toNat % 2 ^ 8) ∧
    (let d := tNgl { tTh [] with st := .trapped, fkind := kWATCHDOG }
     d.Issues 1 tG ∧ (d.th 1).st = .trapped ∧ (d.past 1 4).fkind = kWATCHDOG) := by decide +kernel

theorem witness_FetchBeyondCodeRaisesBranch :
    let d := tNgl { tTh [] with pc := 64 }
    d.canIssue 1 = true ∧ (d.th 1).code ≤ (d.th 1).pc ∧ (Instr.ngEnd 1 tG).issuer = some (1, tG, 4) := by decide +kernel

theorem witness_GuardedOffInstructionsOnlyAdvance :
    let d := tNgl { tTh [] with pc := 60 }
    d.canIssue 1 = true ∧ (d.th 1).pc < (d.th 1).code ∧ (⟨0, true⟩ : Guard).holds (d.th 1) = false ∧ d.canIssue 2 = false ∧
      (Instr.ngEnd 1 ⟨0, true⟩).issuer = some (1, ⟨0, true⟩, 4) ∧ (Instr.ngEnd 2 tG).issuer = some (2, tG, 4) := by decide +kernel

end Sys2Proof.Tests
end

