-- ==== Sys2Proof/Tests/WitnessNet.lean ====
section
/-!
SUPPORT. Witnesses for the statements about registers, Silkway, items, threads and the network interface.
-/
namespace Sys2Proof.Tests
open Sys2Proof.Machine
set_option Elab.async false

theorem witness_FieldWriteFollowsItsAccessType :
    (bits 0xFF 8 8 = 0) ∧
    (∀ a ∈ [Acc.ro, .rc, .wo, .rw, .rws, .rwl, .rwh, .hwu, .rw1c, .rw1s],
     let f : FieldRow := ⟨8, 8, a, .any⟩
     f.acc = a ∧ bits 0xFF00 f.lo f.w = 2 ^ f.w - 1 ∧ f.w ≠ 0 ∧ f.rng.ok f.w (bits 0x1200 f.lo f.w) = true ∧ 7 < f.w) ∧
    (let f : FieldRow := ⟨0, 3, .rw, .range 1 5⟩
     bits 7 f.lo f.w = 2 ^ f.w - 1 ∧ f.rng.ok f.w (bits 5 f.lo f.w) = true ∧ f.rng.ok f.w (bits 6 f.lo f.w) = false) := by
  refine ⟨?_, ?_, ?_⟩ <;> decide +kernel

theorem witness_LockedRegisterKeepsItsValue :
    (let d : Dev := Dev.wr {} .FCOL_LOCK 0 1
     d.regLocked .FCOL_ACTION 0 = true ∧ Reg.fields .FCOL_ACTION ≠ [] ∧ (∀ f ∈ Reg.fields .FCOL_ACTION, f.acc = .rwl) ∧
      Reg.FCOL_ACTION ≠ .QE_LEDGER_BASE ∧ Reg.FCOL_ACTION ≠ .QE_LEDGER_SIZE ∧
      (∀ f ∈ Reg.fields .FCOL_ACTION, bits (beMask 0xF) f.lo f.w ≠ 0) ∧ (∀ f ∈ Reg.fields .FCOL_ACTION, bits (beMask 0) f.lo f.w = 0)) := by
  decide +kernel

theorem witness_IgnoredAccessIsRecorded :
    (cACK_MISMATCH < 8) := by
  decide +kernel

theorem witness_RegisterAccessesComplete :
    (let d : Dev := {}
     d.isUp 3 = true ∧ (Requester.pod 4 ≠ .pod 3) ∧ d.isUp (Target.reg .TM_PORT_HOLD 31).island = true ∧ d.isUp 20 = true ∧ d.isUp 21 = true ∧ d.halted = false ∧ 31 < 32) ∧
    (let t := Target.reg .RST_MILESTONE 0
     let d : Dev := { rlatch := ⟨[(latchKey t .steward, some ⟨t.blockOffset, 9⟩)]⟩, wlatch := ⟨[(latchKey t .steward, some ⟨t.blockOffset, 9⟩)]⟩ }
     d.isUp t.island = true ∧ d.rlatch.get (latchKey t .steward) = some ⟨t.blockOffset, 9⟩ ∧ d.wlatch.get (latchKey t .steward) = some ⟨t.blockOffset, 9⟩ ∧
      (∀ l ∈ d.rlatch.get (latchKey t (.pod 0)), l.tag ≠ t.blockOffset) ∧ (∀ l ∈ d.wlatch.get (latchKey t (.pod 0)), l.tag ≠ t.blockOffset)) ∧
    (let d : Dev := Dev.setWin {} .gw { st := 2, seq := 1 }
     d.isUp WinId.gw.island = true ∧ d.halted = false ∧ (d.win .gw).st = 2 ∧ (d.win .gw).seq = (1 : BitVec 16).toNat) := by
  refine ⟨?_, ?_, ?_⟩ <;> decide +kernel

theorem witness_StatisticsEpochCompletes :
    (let d : Dev := Dev.wr {} .STATS_EPOCH_PERIOD 0 1
     d.isUp 21 = true ∧ d.halted = false ∧ d.flag F.STATS_EPOCH_CTL_SWITCH = false ∧ d.flag F.STATS_EPOCH_CTL_CLOSING = false ∧
      d.rd .STATS_EPOCH_PERIOD 0 ≠ 0 ∧ d.epoch.tsw = none ∧ d.epoch.held = false) ∧
    (let d : Dev := { epoch := { tsw := some 500 } }
     d.epoch.tsw = some 500) ∧
    (let d : Dev := Dev.put { epoch := { last := some 500, tlast := 500 } } F.STATS_EPOCH_CTL_CLOSING 0 1
     d.epoch.last = some 500 ∧ d.flag F.STATS_EPOCH_CTL_CLOSING = true ∧ d.epoch.held = false ∧ Ctr.NET_RX_FRAMES.banked = true ∧
      d.isUp (Ctr.NET_RX_FRAMES.place.island 0) = true ∧ 500 + d.sys.steps ≤ 500 ∧ 499 < 500 + d.sys.steps) ∧
    (let d : Dev := { epoch := { last := some 500 } }
     d.flag F.STATS_EPOCH_CTL_CLOSING = false ∧ Ctr.HOST_BAD_ACCESS.banked = false) := by
  refine ⟨?_, ?_, ?_, ?_⟩ <;> decide +kernel

theorem witness_SilkwayEventsComplete :
    (let q : Ticket := { st := 1, req := .reach 0 16 0 }
     let d : Dev := { ths := ⟨[(1, { tks := ⟨[(0, q)]⟩ })]⟩, sys := { islReset := 2 ^ 21 } }
     let q := (d.th 1).tk 0
     q.st = 1 ∧ q.resp = none ∧ q.req.island (1 / 128) = some 21 ∧ d.isUp 21 = false) ∧
    (let d : Dev := { sys := { islReset := 2 ^ 20 + 2 ^ 21 }, evq := [default], cmsgs := [⟨7, false, 0, 0, [], true, 0⟩] }
     d.isUp 20 = false ∧ 0 < d.evq.length ∧ d.isUp 21 = false ∧ 0 < d.cmsgs.length) ∧
    (let d : Dev := {}
     d.isUp 25 = true ∧ ¬ ((0 : Fin 26).val < 16 ∧ (25 : Fin 26).val = 21 ∧ (4 : Fin 5).val = 4) ∧ d.isUp 21 = true ∧ 15 < 16 ∧
      (d.itemList.all fun x => x.batch.isNone || x.pod != some 15) = true ∧ bit (d.get F.FCOL_ROUTER_ISO_ROUTERS) 35 = false ∧
      bit (d.get F.FCOL_PC_RETIRED_PCS) 63 = false) ∧
    (let d : Dev := { sys := { swyHold := [(35, 2000)] } }
     d.sys.swyHold.find? (·.1 == (35 : Fin 36).val) = some (35, 2000)) ∧
    (let d : Dev := { tbl := { rebuild := [63] } }
     d.isUp 22 = true ∧ 63 ∈ d.tbl.rebuild ∧ d.tbl.entries.cells = []) := by
  refine ⟨?_, ?_, ?_, ?_, ?_⟩ <;> decide +kernel

theorem witness_MeshRoutesAndHolds :
    (let d : Dev := {}
     (20 : Fin 26) ≠ 21 ∧ onRoute 19 20 21 = true ∧ onRoute 21 20 21 = false ∧ bit (d.get F.FCOL_ROUTER_ISO_ROUTERS) (19 : Fin 36).val = false ∧ d.sys.swyHold = [] ∧ d.mono ≤ d.mono) := by
  decide +kernel

/-- The frame of item 7 as it waits for a pod. -/
def tItem (x : Item) : Dev := { items := ⟨[(7, some x)]⟩ }

theorem witness_TokensComplete :
    (let d := tItem { pst := .waiting }
     let d : Dev := { d with slots := ⟨[(1, some {})]⟩ }
     d.isUp 21 = true ∧ (d.item 7).isSome = true ∧ ((d.item 7).getD {}).pst = .waiting ∧ d.halted = false) ∧
    (let d := tNgl (tTh [])
     d.live 15 ∧ d.live 0 ∧ (d.th 0).st ≠ .bound ∧ (d.th 0).st ≠ .trapped) ∧
    (let d := tItem { pst := .lost, tok := { gen := 0 } }
     d.item 7 = some { pst := .lost, tok := { gen := 0 } } ∧ d.gen 0 = 0 ∧ (1 : Nat) ≠ d.gen 0) ∧
    (let d : Dev := { pods := ⟨[(0, { supNext := some 5 })]⟩ }
     d.isUp 0 = true ∧ (d.pod 0).supNext = some 5 ∧ (d.th (0 * 128 + 5)).st ≠ .bound ∧ (d.th (0 * 128 + 5)).st ≠ .trapped) ∧
    (let d : Dev := Dev.put { items := ⟨[(7, some {})]⟩, pods := ⟨[(0, { sup := 0, port := [7] })]⟩ } F.POD_CORE_CTL_THREAD_EN 0 0xFF
     d.podRuns 0 = true ∧ (d.pod 0).port = 7 :: [] ∧ (d.workerFor 0).isSome = true ∧ d.item 7 = some {}) := by
  refine ⟨?_, ?_, ?_, ?_, ?_⟩ <;> decide +kernel

theorem witness_ThreadEventsComplete :
    (let d : Dev := {}
     d.live 15 ∧ d.live ((255 : Fin 256).val / 16)) ∧
    (let d : Dev := Dev.put {} F.POD_CORE_CTL_MODE 0 0
     d.get F.POD_CORE_CTL_MODE 0 = 0) ∧
    (let d : Dev := (tNgl (tTh [])).put F.POD_CORE_CTL_MODE 0 1
     d.podRuns 0 = true ∧ d.get F.POD_CORE_CTL_MODE 0 = 1 ∧ (List.range 8).find? (fun k => d.ready (0 * 8 + ((d.cores.get 0).owner + 1 + k) % 8)) = some 0) ∧
    (let d : Dev := (tNgl (tTh [])).put F.POD_CORE_CTL_MODE 0 1
     d.get F.POD_CORE_CTL_MODE (1 / 8) ≠ 0 ∧ d.canIssue 1 = true) ∧
    (let d := tNgl { tTh [] with sleep := .ticket 0 4 false, tks := ⟨[(0, { st := 2 })]⟩ }
     let t := d.th 1
     d.podRuns 0 = true ∧ (t.tks.get 0).st = 2 ∧ t.sleep = .ticket 0 4 false) ∧
    (let d := tNgl { tTh [] with sleep := .ticket 0 4 true, tks := ⟨[(0, { st := 2 })]⟩ }
     let t := d.th 1
     d.podRuns 0 = true ∧ (t.tks.get 0).st = 2 ∧ t.sleep = .ticket 0 4 true) ∧
    (let d := tNgl { tTh [] with tks := ⟨[(0, { st := 1, req := .reach 0 16 0, resp := some { status := 6 } })]⟩ }
     d.isUp 0 = true ∧ ((d.th 1).tk 0).st = 1 ∧ (d.tkAnswer 1 0 false).isSome = true) ∧
    (let d := tNgl { tTh [] with sleep := .waitt 4 0 true, wake := true, tcmp := 2 ^ 64 - 1 }
     d.podRuns 0 = true ∧ (d.th 1).sleep = .waitt 4 0 true ∧ (waittNow d.now (d.th 1) 0 true).isSome = true) ∧
    (let d := tNgl { tTh [] with deadline := some 100 }
     d.podRuns 0 = true ∧ d.isSup 1 = false ∧ (d.th 1).deadline = some 100 ∧ (d.th 1).st = .bound) ∧
    (let d := tNgl { tTh [] with deadline := some 100, st := .trapped }
     (d.th 1).deadline = some 100 ∧ (d.th 1).st = .trapped) ∧
    (let d : Dev := Dev.put {} F.POD_PARK_CTL_STATE 15 1
     d.live 15 ∧ d.get F.POD_PARK_CTL_STATE 15 = 1 ∧ d.isUp 15 = true ∧ (d.pod 15).port = [] ∧
      (∀ i : Fin 128, d.isSup (15 * 128 + i.val) = true ∨ (d.th (15 * 128 + i.val)).st ∈ [ThSt.free, .halted, .disabled])) ∧
    (let d : Dev := Dev.put {} F.POD_PARK_CTL_STATE 15 2
     d.live 15 ∧ d.get F.POD_PARK_CTL_STATE 15 = 2) := by
  refine ⟨?_, ?_, ?_, ?_, ?_, ?_, ?_, ?_, ?_, ?_, ?_, ?_⟩ <;> decide +kernel

theorem witness_ItemEventsComplete :
    (let d : Dev := { cmsgs := [⟨7, false, 0, 0, [], true, 0⟩] }
     d.isUp 21 = true ∧ d.cmsgs[0]? = some ⟨7, false, 0, 0, [], true, 0⟩ ∧ (∀ m ∈ d.cmsgs.take 0, m.pod ≠ 0)) ∧
    (let d := tItem { batch := some default }
     (d.item 7).isSome = true ∧ ((d.item 7).getD {}).batch = some default) ∧
    (let d : Dev := { effq := [default] }
     d.effq[0]? = some default) ∧
    (let x : Item := { deadline := 9, pst := .waiting }
     let d := tItem x
     d.item 7 = some x ∧ x.committed = false ∧ x.disp = none ∧ x.pst ≠ .loading) ∧
    (let y : Copy := { (default : Copy) with hold := some 9, q := 0 }
     let x : Item := { deadline := 9, copies := [y] }
     let d := tItem x
     d.item 7 = some x ∧ d.copy 7 0 = some y ∧ y.hold = some 9 ∧ 9 ≤ x.deadline ∧ d.rootOfQueue y.q < 32) ∧
    (let e : EffReq := { (default : EffReq) with eff := .event 5 }
     let d : Dev := { effq := [e] }
     d.effq[0]? = some e ∧ d.isUp e.island = true ∧ d.effRemote e = false ∧ e.applied = false ∧ ((d.reach (d.heldTill 21 e.island e.sent)).effApply e).isSome = true) := by
  refine ⟨?_, ?_, ?_, ?_, ?_, ?_⟩ <;> decide +kernel

/-- Port 0 of group 0 up at full width. -/
def tPort : Dev := Dev.put {} F.NET_PORT_STATUS_STATE 0 4

theorem witness_FrameFlowCompletes :
    (let d := tPort
     let data := List.replicate 60 0
     d.isUp 16 = true ∧ d.portUp 0 = true ∧ 60 ≤ data.length ∧ (∀ b ∈ data, b < 256) ∧
      data.length + 4 ≤ d.get F.NET_PORT_CFG_MAX_FRAME 0 ∧ beNat (slice data 12 2) ≠ 0x8808) ∧
    (let d : Dev := { net := { sending := ⟨[(0, some (7, 0))]⟩ } }
     d.net.sending.get 0 = some (7, 0)) ∧
    (let k := pauseKey 31 8
     let d : Dev := { net := { pause := ⟨[(k, some 1000000)]⟩, since := ⟨[(k, some 0)]⟩, ignore := ⟨[(k, some 7)]⟩ } }
     let d := d.put F.NET_PORT_FC_STORM_MS 31 1
     let ms := d.get F.NET_PORT_FC_STORM_MS 31 * 1000000
     d.isUp 19 = true ∧ d.net.pause.get k = some 1000000 ∧ d.net.since.get k = some 0 ∧ ms ≠ 0 ∧ 0 + ms ≤ 1000000 ∧ d.net.ignore.get k = some 7) ∧
    (let d : Dev := { buf := { rx := [{ (default : RxFrame) with iap := 35 }] } }
     d.isUp 21 = true ∧ (d.buf.rx.find? (·.iap == (35 : Fin 36).val)).isSome = true) ∧
    (let d : Dev := {}
     131071 < [512, 4096, 16384, 131072].getD 3 0 ∧ d.enabledOf (3 + 2) 131071 = false ∧ 511 < [512, 4096, 16384, 131072].getD 0 0 ∧ d.enabledOf (0 + 2) 511 = false) ∧
    (let y : Copy := { (default : Copy) with len := 64 }
     let d : Dev := tItem { copies := [y] }
     let d : Dev := d.setQ5 9 { d.q5 9 with deep := [(7, 0)] }
     (d.q5 9).deep = (7, 0) :: [] ∧ d.copy 7 0 = some y ∧ (d.q5 9).onBytes < 32768 ∧ d.buf.unspill + cellsOf y.len ≤ 16384) := by
  refine ⟨?_, ?_, ?_, ?_, ?_, ?_⟩ <;> decide +kernel

theorem witness_PortStatesComplete :
    (let d : Dev := {}
     d.live (16 + (3 : Fin 4).val) ∧ d.isUp (16 + (31 : Fin 32).val / 8) = true) ∧
    (∀ st ∈ [4, 5],
     (Dev.put {} F.NET_PORT_STATUS_STATE 0 st).get F.NET_PORT_STATUS_STATE 0 = st) ∧
    (let d : Dev := Dev.put { net := { ports := ⟨[(0, { train := some 0, full := true, half := 1 })]⟩ } } F.NET_PORT_STATUS_STATE 0 3
     (d.net.ports.get 0).train = some 0 ∧ d.get F.NET_PORT_STATUS_STATE 0 = 3 ∧ (d.net.ports.get 0).full = true ∧ (List.range 8).find? (fun k => bit (d.net.ports.get 0).half k) = some 0) ∧
    (let d : Dev := Dev.put { net := { ports := ⟨[(0, { train := some 0, full := false })]⟩ } } F.NET_PORT_STATUS_STATE 0 3
     (d.net.ports.get 0).train = some 0 ∧ d.get F.NET_PORT_STATUS_STATE 0 = 3 ∧ (d.net.ports.get 0).full = false) ∧
    (let d : Dev := Dev.put (Dev.put (Dev.put {} F.NET_PORT_CFG_ENABLE 0 1) F.NET_PORT_STATUS_STATE 0 2) F.NET_GROUP_CFG_MODE 0 1
     d.portLanes 0 ≠ 0 ∧ d.flag F.NET_PORT_CFG_ENABLE 0 = true ∧ d.get F.NET_PORT_STATUS_STATE 0 = 2) := by
  refine ⟨?_, ?_, ?_, ?_, ?_⟩ <;> decide +kernel

/-- Lane 0 of NET0 in a state. -/
def tLane (st : Nat) : Dev := Dev.put {} F.NET_LANE_STATUS_STATE (laneIx 0 0) st

theorem witness_LaneEventsComplete :
    (hasLane 0 7 = true ∧ hasLane 3 11 = true ∧ ((tLane 0).isUp 16 = true) ∧ (tLane 0).halted = false) ∧
    (∀ st ∈ [1, 2, 3, 4],
     (tLane st).laneStage 0 0 = st) ∧
    (let d := (tLane 2).put F.NET_LANE_STATUS_HIST_USED 0 1
     d.flag F.NET_LANE_STATUS_HIST_USED (laneIx 0 0) = true ∧ d.laneStage 0 0 = 2) ∧
    (let d := (tLane 3).put F.NET_LANE_CFG_RX_POL 0 0
     (0 : Nat) < 8 ∧ d.get F.NET_LANE_CFG_RX_POL (laneIx 0 0) = 0 ∧ d.laneStage 0 0 = 3) ∧
    (let d := tLane 4
     (d.win (.eye 0)).st = 0 ∧ 20 ≤ (20 : BitVec 5).toNat ∧ (127 : BitVec 8) ≠ 128 ∧ (96 : BitVec 7).toNat ≥ 96 ∧ (31 : BitVec 7).toNat < 32 ∧ (1 : BitVec 2).toNat ≠ 3) ∧
    (let d : Dev := { net := { scan := ⟨[(0, some (7, 9, false)), (1, some (7, 9, true))]⟩ } }
     d.net.scan.get 0 = some (7, 9, false) ∧ d.net.scan.get 1 = some (7, 9, true)) := by
  refine ⟨?_, ?_, ?_, ?_, ?_, ?_⟩ <;> decide +kernel

/-- Erruic link 0 in a state. -/
def tLink (st : Nat) (x : Link) : Dev := (Dev.put {} F.NET_EL_STATUS_STATE 1 st).setLink 0 x

theorem witness_LinkTrainingCompletes :
    (∀ st ∈ [4, 5, 6, 8],
     (tLink st {}).elState 0 = st ∧ (tLink st {}).isUp (17 + 0) = true ∧ (tLink st {}).halted = false) ∧
    ((Dev.put {} F.NET_LANE_STATUS_STATE (laneIx 1 11) 3).laneStage 1 (8 + (3 : Fin 4).val) = 3) ∧
    ([0, 1, 2, (3 : Fin 4)].Nodup ∧ (1 : Fin 4).val + 1 ≠ (tLink 4 {}).get F.GRP_STATUS_ID) ∧
    ((63 : Nat) ≤ 63 ∧ 63 < 64) ∧
    (let d := (tLink 6 {}).put F.NET_EL_CFG_QUAL_LOG2 1 20
     (d.link 0).qual = false ∧ (d.link 0).sentPass = false ∧ d.get F.NET_EL_CFG_QUAL_LOG2 1 ≠ 0 ∧ (d.link 0).trained = false) ∧
    (let d := (tLink 6 {}).put F.NET_EL_CFG_QUAL_LOG2 1 0
     (d.link 0).qual = false ∧ (d.link 0).sentPass = false ∧ d.get F.NET_EL_CFG_QUAL_LOG2 1 = 0) ∧
    (let d := (tLink 6 { qual := true }).put F.NET_EL_CFG_QUAL_ERR_MAX 1 3
     (d.link 0).qual = true ∧ 3 ≤ d.get F.NET_EL_CFG_QUAL_ERR_MAX 1 ∧ d.get F.NET_EL_CFG_QUAL_ERR_MAX 1 < 4) ∧
    (((tLink 6 { sentPass := true }).link 0).sentPass = true) := by
  refine ⟨?_, ?_, ?_, ?_, ?_, ?_, ?_, ?_⟩ <;> decide +kernel

/-- A message of 8 bytes and class 0 with sequence 0, as it comes over a link. -/
def tMsg (lseq : Nat) : List Nat :=
  let b := toLe 4 (8 * 2 ^ 11) ++ toLe 4 (lseq + 2 ^ 12) ++ List.replicate 8 0 ++ List.replicate 4 0
  b ++ toLe 4 (crc32c b)

theorem witness_LinkMessagesComplete :
    (let d := tLink 7 {}
     let b := tMsg 0
     d.isUp (17 + 0) = true ∧ d.linkActive 0 = true ∧ d.halted = false ∧ leNat (slice b (b.length - 4) 4) = crc32c (b.take (b.length - 4)) ∧
      b.length = 16 + ceilDiv (bits (leNat (slice b 0 4)) 11 10) 8 * 8 ∧ bits (leNat (slice b 0 4)) 11 10 ≤ 512 ∧ bits (leNat (slice b 0 4)) 8 3 < 5 ∧
      bit (leNat (slice b (b.length - 8) 4)) 20 = false ∧ (bits (leNat (slice b 4 4)) 0 12 + 4096 - (d.link 0).rxSeq) % 4096 = 0) ∧
    (let d := tLink 7 {}
     (bits (leNat (slice (tMsg 2047) 4 4)) 0 12 + 4096 - (d.link 0).rxSeq) % 4096 = 2047 ∧ (bits (leNat (slice (tMsg 2048) 4 4)) 0 12 + 4096 - (d.link 0).rxSeq) % 4096 = 2048) ∧
    (let b := toLe 4 (crc32c [])
     leNat (slice b (b.length - 4) 4) = crc32c (b.take (b.length - 4)) ∧ ¬ b.length = 16 + ceilDiv (bits (leNat (slice b 0 4)) 11 10) 8 * 8) ∧
    (let b := [1, 2, 3, 4, 5, 6, 7, 8]
     leNat (slice b (b.length - 4) 4) ≠ crc32c (b.take (b.length - 4)) ∧ leNat (slice b 6 2) ≠ chk16 (slice b 0 6)) ∧
    (let b := List.replicate 6 0 ++ toLe 2 (chk16 (List.replicate 6 0))
     leNat (slice b 6 2) = chk16 (slice b 0 6) ∧ bit (leNat (slice b 0 4)) 8 = false) ∧
    (let h := [0, 1, 0, 0, 0, 0]
     let b := h ++ toLe 2 (chk16 h)
     leNat (slice b 6 2) = chk16 (slice b 0 6) ∧ bit (leNat (slice b 0 4)) 8 = true ∧ ((tLink 7 {}).link 0).unacked = []) ∧
    (let m : ElMsg := default
     ((tLink 7 { unacked := [m] }).link 0).unacked = m :: [] ∧ ((tLink 7 { ackDue := true, rxSeq := 6 }).link 0).ackSeq = some 5) := by
  refine ⟨?_, ?_, ?_, ?_, ?_, ?_, ?_⟩ <;> decide +kernel

end Sys2Proof.Tests
end

