-- ==== Sys2Proof/Tests/WitnessHost.lean ====
section
/-!
SUPPORT. Witnesses for the statements about tables, crypto, the host ports, queues, DMA, instances, migration and
mailboxes.
-/
namespace Sys2Proof.Tests
open Sys2Proof.Machine
set_option Elab.async false

/-- A walk of ticket 0 of thread 1 in table 5. -/
def tWalk : Walk := { id := 1, th := 1, tk := 0, stamp := 7, unit := 7, table := 5 }

theorem witness_TableEventsComplete :
    (let d := tNgl { tTh [] with tks := ⟨[(0, { st := 1, req := .lk false 5 [1] 0x60 })]⟩ }
     let k := (d.ths.get 1).tks.get 0
     d.isUp 22 = true ∧ k.st = 1 ∧ k.sent = 0 ∧ k.req = .lk false 5 [1] 0x60 ∧ (d.walkOf (.lookup false 5 [1] 7)).isSome = true ∧ d.tScope 5 ≠ 2) ∧
    (let d : Dev := { tbl := { fills := [(9, false)] } }
     d.tbl.fills.find? (·.1 == 9) = some (9, false) ∧ 9 ∉ d.tbl.voided) ∧
    (let d : Dev := { tbl := { walks := [tWalk] } }
     d.tbl.walks.find? (·.id == 1) = some tWalk ∧ tWalk.waits = [] ∧ tWalk.confirm = none ∧ d.tbl.walks.filter (·.unit == (7 : Fin 8).val) = [tWalk]) ∧
    (let d : Dev := {}
     d.halted = false ∧ d.regLocked .TABLE_T1_CFG 0 = false ∧ 1 ≤ (1 : BitVec 32).toNat % 16 ∧ (10 : BitVec 32).toNat % 16 ≤ 10) ∧
    (let d : Dev := Dev.put (Dev.put {} F.GRP_STATUS_STATE 0 3) F.GRP_STATUS_ID 0 1
     let c : WCmd := { opc := 8, n := 5, arg := toLe 8 0 }
     d.get F.GRP_STATUS_STATE = 3 ∧ d.ownerOf (.window c) = d.me ∧ d.ownerOf (.effect 7 0 (.cntEntry 5 0 1)) = d.me ∧ (7 + 4 * 2 ^ 60, 0) ∉ d.applied ∧
      (d.effTable (.cntEntry 5 0 1)).isSome = true) ∧
    (let y : Remote := { id := 1, by_ := .window 0 { opc := 12, n := 5 }, req := .window { opc := 12, n := 5 }, owner := 2, due := 9 }
     let d : Dev := { tbl := { remotes := [y, { y with id := 2, again := true }] } }
     d.tbl.remotes.find? (·.id == 1) = some y ∧ y.again = false ∧ d.tbl.remotes.find? (·.id == 2) = some { y with id := 2, again := true }) ∧
    (let b : Bulk := { pf := 3, recs := [[1]], due := 9 }
     let d : Dev := { tbl := { bulk := [b] } }
     d.tbl.bulk.find? (·.pf == (3 : Fin 4).val) = some b ∧ 0 < b.recs.length) ∧
    (∀ q ∈ [(true, 0), (false, 0), (false, 1)],
     let x : Entry := { active := q.1, idle := q.2 }
     let d : Dev := { tbl := { entries := ⟨[(1023 * 2 ^ 28 + 4, some x)]⟩ } }
     let d := ((d.put F.TABLE_DESC_CFG_VALID 1023 1).put F.TABLE_DESC_CFG_AGE_EN 1023 1).put F.TABLE_AGE_CFG_LIMIT 1023 2
     let d := d.put F.TABLE_AGE_CFG_ACTION 1023 1
     d.tValid 1023 = true ∧ d.flag F.TABLE_DESC_CFG_AGE_EN 1023 = true ∧ d.tableHeld 1023 = false ∧ d.entry 1023 4 = some x ∧ d.flag F.TABLE_AGE_CFG_ACTION 1023 = true ∧
      (x.active = true ∨ x.idle + 1 < d.get F.TABLE_AGE_CFG_LIMIT 1023 ∨ x.idle + 1 = d.get F.TABLE_AGE_CFG_LIMIT 1023)) := by
  refine ⟨?_, ?_, ?_, ?_, ?_, ?_, ?_, ?_⟩ <;> decide +kernel

/-- After RUN, with room for tables and table 5, EXACT, with keys of 8 bytes, owned by PF0. -/
def tRun : Dev :=
  let d : Dev := { stw := { start := { step := 12 } } }
  (((d.put F.TABLE_DESC_CFG_VALID 5 1).put F.TABLE_DESC_CFG_KEY_LEN 5 8).put F.TABLE_DESC_CFG_RESULT_LEN 5 24).put F.TABLE_DESC_CAP_CAPACITY 5 4

theorem witness_TableCommandsComplete :
    (tRun.idleWin (.taw 0) ∧ tRun.idleWin (.taw 4)) ∧
    (let d := (((tRun.put F.TABLE_DESC_CFG_VALID 5 0).put F.INST_RANGE_COUNT 8 2).put F.INST_RANGE_COUNT 9 9).put F.BUF_HBM_PARTITION_ACTIVE_GIB 0 4
     let img := 8 * 2 ^ 32 + 24 * 2 ^ 40
     d.idleWin (.taw 0) ∧ d.tValid 5 = false ∧ d.pfOf (bits img 16 12) = 0 ∧ bits img 6 2 = 0 ∧ descBad img 4 = false ∧
      d.tableFits (bits img 1 3) (bits img 4 2) (bits img 32 7) (bits img 40 8) 4 = true ∧ d.quotaFits (bits img 16 12) (bits img 4 2) (footprint (bits img 1 3) (bits img 32 7) (bits img 40 8) 4) = true) ∧
    (tRun.tawCheck 0 5 = tOK ∧ tRun.tScope 5 = 0 ∧ tRun.plenOk 5 255 = true ∧ tRun.tableHeld 5 = false) ∧
    (let e := (tRun.tawStore 0 { opc := 1, n := 5, arg := List.replicate 8 1 }).winBusy (.taw 0)
     e.tableHeld 5 = false ∧ (e.tableOp (e.cmdOp { opc := 1, n := 5, arg := List.replicate 8 1 })).2.status = tOK) ∧
    (let d : Dev := { tRun with tbl := { entries := ⟨[(5 * 2 ^ 28 + 3, some { key := List.replicate 8 1 })]⟩ } }
     (∀ c ∈ [({ opc := 2, n := 5, arg := List.replicate 8 1 } : WCmd), { opc := 3, n := 5, arg := List.replicate 8 1 }, { opc := 6, n := 5, arg := toLe 8 (5 * 2 ^ 28 + 3) }, { opc := 7, n := 5, arg := toLe 8 (5 * 2 ^ 28 + 3) }],
        let e := (d.tawStore 0 c).winBusy (.taw 0)
        e.tableHeld 5 = false ∧ (e.tableOp (e.cmdOp c)).2.status = tOK ∧ handleOk 5 (5 * 2 ^ 28 + 3) = true)) ∧
    (bits 0x10001 0 16 ≠ 0 ∧ bits 0x10001 16 8 ≠ 0 ∧ bits 0x10001 25 7 = 0 ∧ bits 0xFFFF0001 1 15 = 0 ∧ bits 0xFFFF0001 16 16 ≠ 0) ∧
    (let e := (tRun.tawStore 0 { opc := 10, n := 5 }).winBusy (.taw 0)
     e.tableHeld 5 = false ∧ e.trefNames 5 = false) := by
  refine ⟨?_, ?_, ?_, ?_, ?_, ?_, ?_⟩ <;> decide +kernel

theorem witness_InsertedEntryIsFound :
    (tRun.tValid 5 = true ∧ tRun.tType 5 = 0 ∧ tRun.findStored 5 (List.replicate 8 1) [] 0 0 = none ∧ tRun.flag F.TABLE_DESC_CFG_UNFIT 5 = false ∧
      tRun.tEntries 5 < tRun.get F.TABLE_DESC_CAP_CAPACITY 5 ∧ tRun.get F.TABLE_DESC_CAP_CAPACITY 5 ≤ 2 ^ 28 ∧ (tRun.entriesOf 5).length = tRun.tEntries 5 ∧
      tRun.tSeq 5 < 2 ^ 32 ∧ tRun.tbl.entries.wf = true) := by
  decide +kernel

/-- After RUN, with key slot 3 holding a key of PF0 and SA 2 within PF0's share. -/
def tCry (c : Crypto) : Dev := (({ tRun with cry := c } : Dev).put F.INST_RANGE_COUNT 3 4)

theorem witness_CryptoCommandsComplete :
    (let d := tCry {}
     d.idleWin (.cw 0) ∧ d.cwReachInst 0 0 = true ∧ d.ownsSa 0 3 = true) ∧
    (let d := tCry { keys := ⟨[(3, { key := [1], owner := 0 })]⟩, keks := ⟨[(63, { key := [2], owner := 0 })]⟩ }
     let k := d.cry.keys.get 3
     let e := d.cry.keks.get 63
     d.idleWin (.cw 0) ∧ cwReachKey 0 k = true ∧ k.refs = 0 ∧ k.key ≠ [] ∧ e.key ≠ [] ∧ e.owner = 0 ∧ (d.sa 2).valid = false ∧ d.cry.retiring.get 2 = none) ∧
    (let d := tCry { sas := ⟨[(2, { valid := true })]⟩ }
     d.idleWin (.cw 0) ∧ (d.sa 2).valid = true ∧ d.cwReachInst 0 (d.sa 2).owner = true) ∧
    (let d := tCry { retiring := ⟨[(2, some (9, none)), (3, some (9, some 4))]⟩ }
     d.idleWin (.cw 0) ∧ d.cry.retiring.get 2 = some (9, none) ∧ d.cry.retiring.get 3 = some (9, some 4)) ∧
    (let d : Dev := { tNgl { tTh [] with tks := ⟨[(0, { st := 1, req := .verdict [] 0x60 }), (1, { st := 1, req := .saqry [] 0x60 })]⟩ } with stw := { start := { step := 12 } } }
     d.idleWin (.cw 0) ∧ d.isUp 23 = true ∧ ((d.th 1).tk 0).st = 1 ∧ ((d.th 1).tk 0).resp = none ∧ ((d.th 1).tk 0).req = .verdict [] 0x60 ∧ (d.th 1).stamp = some 7 ∧ ((d.th 1).tk 1).req = .saqry [] 0x60) := by
  refine ⟨?_, ?_, ?_, ?_, ?_⟩ <;> decide +kernel

/-- Host port 0 in a state, with the function configuration given for PF0. -/
def tHp (st : Nat) (f : Fn) : Dev := Dev.put { hst := { fns := ⟨[(0, f)]⟩ } } F.HOST_PORT_STATUS_STATE 0 st

theorem witness_HostEventsComplete :
    (let d := (tHp 2 { bme := true }).put F.QE_LEDGER_STATUS_UNACKED 0 1
     d.isUp 20 = true ∧ d.halted = false ∧ d.flag F.QE_LEDGER_STATUS_UNACKED 0 = true ∧ (0 : BitVec 32).toNat = d.rd .QE_LEDGER_SEQ 0) ∧
    (let d := tHp 2 { bme := true }
     d.hpState 0 ≠ 0 ∧ (d.hport 0).perst = false ∧ d.hpState 0 = 2 ∧ (d.fn 0).bme = true) ∧
    (let d : Dev := { tHp 1 {} with hst := { ports := ⟨[(0, { released := true })]⟩ } }
     d.hpState 0 = 1 ∧ (d.hport 0).released = true ∧ (d.hport 0).perst = false ∧ 8 ≤ (16 : Fin 17).val ∧
      min ((d.setHp 0 2).get F.HOST_PORT_CFG_MAX_SPEED 0) 5 ≤ (6 : Fin 7).val) ∧
    (let d : Dev := { tHp 3 {} with hst := { ports := ⟨[(0, { hold := some 9 })]⟩ } }
     d.hpState 0 = 3 ∧ (d.hport 0).hold = some 9) ∧
    (let d := tHp 2 {}
     (d.fn 0).bme = false ∧ (d.fn 0).flr = false ∧ d.fnExists 0 = true ∧ d.hpState (d.hostPortOf 0) = 2 ∧ (d.fn 0).d3 = false) ∧
    (let d := tHp 2 { paused := some 9 }
     (d.fn 0).paused = some 9 ∧ (d.fn 0).ovr = false ∧ d.hpState (d.hostPortOf 0) ≠ 3) ∧
    (let d : Dev := { hst := { allot := [8, 0, 0, 0], fns := ⟨[(0, { vfEn := true, numVfs := 8 })]⟩ } }
     4 ≤ 4 ∧ d.fnExists 4 = true) ∧
    (let d : Dev := { hst := { allot := [8, 0, 0, 0], fns := ⟨[(0, { numVfs := 8 })]⟩ } }
     let d := d.put F.INST_PF_MODE_EQUAL 0 0
     d.pfExists 1 = true ∧ (d.fn 0).vfEn = false ∧ (d.fn 0).numVfs ≤ d.vfAllot 0 ∧ d.isEqual 0 = false) ∧
    (let d := tHp 2 { ats := true, d3 := true }
     (d.fn 0).ats = true ∧ (d.fn 0).d3 = true ∧ d.atsBusy 0 (2 ^ 52 - 1) 1 = false) ∧
    (let r : Rd := { op := 0, chan := 0, inst := 0, gen := 0, port := 0, tag := some 0, off := 0, len := 1, due := 9, addr := 4096 };let d0 := tHp 2 { ats := true };let d : Dev := { d0 with hst := { d0.hst with reads := [r] } }
     (d.fn 0).ats = true ∧ d.atsBusy 0 1 1 = true ∧ d.atsBusy 0 0 1 = false) ∧
    (let d := tHp 2 {}
     (d.pfsOn 0).head? = some 0 ∧ (d.fn 0).ltr = false) ∧
    (let d : Dev := { hst := { ports := ⟨[(0, { released := true })]⟩ } }
     (d.hport (d.hostPortOf 0)).released = true ∧ (d.fn 0).flr = false ∧ d.fnExists 0 = true) ∧
    (let l : Ledger := { pf := 0, kind := 4, inst := 0, oldGen := 0, newGen := 1, dtb := 0 }
     let m : Ledger := { l with pf := 1, held := true }
     let d : Dev := { hst := { ledgers := [l, m], fns := ⟨[(1, { bme := true })]⟩ } }
     let d := (d.put F.QE_LEDGER_SIZE_SIZE 0 64).put F.QE_LEDGER_SIZE_SIZE 1 64
     d.hst.ledgers.find? (·.pf == 0) = some l ∧ d.hst.ledgers.find? (·.pf == 1) = some m ∧ d.flag F.QE_LEDGER_STATUS_UNACKED 0 = false ∧ d.ledgerBusy 0 = false ∧ d.ledgerRegion 0 = true ∧ d.ledgerRegion 1 = true ∧ (d.fn 1).bme = true) := by
  refine ⟨?_, ?_, ?_, ?_, ?_, ?_, ?_, ?_, ?_, ?_, ?_, ?_, ?_⟩ <;> decide +kernel

/-- Queue 3 of instance 0, ENABLED, in a state. -/
def tQ (st : Nat) : Dev :=
  ((Dev.put {} F.INST_STATE_STATE 0 3).put F.QE_QCTX_STATE_STATE 3 st).put F.INST_RANGE_COUNT 0 8

theorem witness_QueueCommandsComplete :
    (let d := (((tQ 0).put F.QE_QCTX_CFG_LOG2_SIZE 3 6).put F.QE_CQCTX_CFG_ENABLE 0 1).put F.INST_RANGE_COUNT 1 1
     let d := d.put F.QE_QCTX_CFG_TYPE 3 1
     d.isUp 20 = true ∧ d.halted = false ∧ d.qState 3 = 0 ∧ d.mayEnableQ 3 = true) ∧
    ((tQ 1).qState 3 = 1 ∧ (tQ 2).qState 3 = 2 ∧ (tQ 3).qState 3 = 3 ∧ (tQ 3).qDone 3 = (tQ 3).qCi 3) ∧
    (let g := (tQ 2).put F.QE_QCTX_CTL_RESUME_INDEX 3 0
     g.qState 3 = 2 ∧ idxSub 0 (g.get F.QE_QCTX_STATE_ERR_INDEX 3) ≤ idxSub (g.qPi 3) (g.get F.QE_QCTX_STATE_ERR_INDEX 3)) ∧
    (let d : Dev := Dev.put {} F.QE_CQCTX_CFG_ENABLE 5 1
     d.flag F.QE_CQCTX_CFG_ENABLE 4 = false ∧ d.flag F.QE_CQCTX_CFG_ENABLE 5 = true ∧ d.cqNamed 5 = false ∧ d.flag F.QE_EQCTX_CFG_ENABLE 4095 = false) ∧
    (let d := tQ 1
     let v := 3 + 2 ^ 32 * (2 ^ 31 - 1)
     (d.fn 0).flr = false ∧ d.get F.INST_STATE_STATE 0 ≠ 0 ∧ d.dbCheck 0 v true = none ∧ bits v 16 2 = 0) ∧
    (let d := ((tQ 1).put F.QE_CQCTX_CFG_ENABLE 0 1).put F.INST_RANGE_COUNT 1 1
     let v := 2 ^ 16
     d.dbCheck 0 v true = none ∧ bits v 16 2 = 1) ∧
    (let d := ((tQ 1).put F.QE_EQCTX_CFG_ENABLE 0 1).put F.INST_RANGE_COUNT 2 1
     let v := 2 ^ 17
     d.dbCheck 0 v true = none ∧ bits v 16 2 = 2) ∧
    (let d : Dev := {}
     bit (d.get F.FCOL_PART_ISO_SLICE) 3 = false ∧ d.opRoom = true ∧ d.rqToFill 3 = none) ∧
    (let d := ({ tQ 1 with hst := { fns := ⟨[(0, { bme := true })]⟩ } } : Dev).put F.QE_QCTX_CFG_TYPE 3 1
     let d := (((d.put F.HOST_PORT_STATUS_STATE 0 2).put F.QE_QCTX_CFG_LOG2_SIZE 3 6).wr .QE_QCTX_PI 3 8)
     (d.rqToFill 0).isSome = true) ∧
    (let d := ({ tQ 1 with hst := { fns := ⟨[(0, { bme := true })]⟩ } } : Dev)
     let d := (((d.put F.HOST_PORT_STATUS_STATE 0 2).put F.QE_QCTX_CFG_LOG2_SIZE 3 6).wr .QE_QCTX_PI 3 8)
     d.rqToFill 0 = none ∧ (d.liveQs.any fun q => d.sliceOf (d.qOwner q) == some 0 && d.sqEligible q) = true) ∧
    (let y : Desc := { index := 0, bytes := [16] }
     let d : Dev := { tQ 1 with hst := { qs := ⟨[(3, { descs := [y], hwbDue := true })]⟩ } }
     let d := d.wr .QE_QCTX_HWB 3 64
     d.qState 3 = 1 ∧ d.accepts = true ∧ (d.q 3).descs = y :: [] ∧ y.err = 0 ∧ y.list = false ∧ word32 y.bytes 0 % 256 = 16 ∧ (d.q 3).hwbDue = true ∧ d.rd .QE_QCTX_HWB 3 ≠ 0 ∧ (d.q 3).hwbAt = none) ∧
    (let y : Item := { pst := .loading }
     let d : Dev := { items := ⟨[(7, some y)]⟩ }
     d.item 7 = some y ∧ y.pst = .loading ∧ (d.hst.chans.cells.any fun c => c.2.ops.any fun o => o.loads 7) = false ∧ d.hst.rdOps.filter (fun o => o.loads 7) = []) ∧
    (let d : Dev := { net := { sending := ⟨[(33, some (7, 0))]⟩ }, hst := { rqWait := [(7, 0, 9)] } }
     d.net.sending.get (32 + (1 : Fin 2).val) = some (7, 0) ∧ d.hst.rqWait.find? (fun w => w.1 == 7 && w.2.1 == 0) = some (7, 0, 9)) := by
  refine ⟨?_, ?_, ?_, ?_, ?_, ?_, ?_, ?_, ?_, ?_, ?_, ?_, ?_⟩ <;> decide +kernel

/-- DMA channel 63 in a state. -/
def tCh (st : Nat) : Dev := Dev.put {} F.DMA_CHAN_STATE_STATE 63 st

theorem witness_DmaCommandsComplete :
    ((tCh 0).isUp 20 = true ∧ (tCh 0).halted = false ∧ ((tCh 0).wr .DMA_CHAN_STATUS_ADDR 63 64).rd .DMA_CHAN_STATUS_ADDR 63 ≠ 0) ∧
    (∀ st ∈ [1, 2, 3, 4],
     (tCh st).get F.DMA_CHAN_STATE_STATE 63 = st ∧ st ≠ 0 ∧ st ≠ 5) ∧
    (let d := (tCh 1).put F.DMA_CHAN_CFG_ENABLE 63 1
     d.flag F.DMA_CHAN_CFG_ENABLE 63 = true ∧ d.get F.DMA_CHAN_CFG_OWNER_PF 63 = d.pfOf 0) ∧
    (let o : DmaOp := { read := true, src := 0xC, fin := .flush 63 }
     let p : DmaOp := { read := true, src := 0xC, fin := .cid 16383 65535 }
     let d : Dev := { hst := { rdOps := [o, p] } }
     (d.answeredOp (fun o => o.fin == .flush 63)).isSome = true ∧ (d.answeredOp (fun o => o.fin == .cid 16383 65535)).isSome = true) ∧
    (let d := (tCh 1).put F.DMA_INST_CHAN_MOVING 0 1
     d.flag F.DMA_INST_CHAN_MOVING 0 = true ∧ d.moveOver 0 = true) ∧
    (let r : Rd := { op := 0, chan := 0, inst := 0, gen := 0, port := 1, tag := some 16383, off := 0, len := 4, due := 9 }
     let d : Dev := { hst := { reads := [r] } }
     d.hst.reads.find? (fun (r : Rd) => r.tag == some 16383 && r.port == 1) = some r ∧ r.gen = d.gen r.inst ∧ d.hst.reads.find? (fun (r : Rd) => r.tag == some 16383) = some r) := by
  refine ⟨?_, ?_, ?_, ?_, ?_, ?_⟩ <;> decide +kernel

/-- After RUN, instance 0 in a state, its PF with a ledger region and in EQUAL mode. -/
def tIn (st : Nat) : Dev := ((tRun.put F.INST_STATE_STATE 0 st).put F.QE_LEDGER_SIZE_SIZE 0 64).put F.INST_PF_MODE_EQUAL 0 1

theorem witness_InstanceCommandsComplete :
    ((tIn 1).idleWin (.iw 0) ∧ (tIn 1).createFault 0 0 { sub := 64 * 2 ^ 18 + 2 ^ 54 } = none) ∧
    (∀ st ∈ [2, 3, 4],
     (tIn st).idleWin (.iw 0) ∧ (tIn st).pfOf 0 = 0 ∧ (tIn st).get F.INST_STATE_STATE 0 = st) ∧
    (∀ st ∈ [4, 5],
     (tIn st).isUp 20 = true ∧ (tIn st).get F.INST_STATE_STATE 0 = st ∧ (tIn st).inflightPrev 0 = 0) ∧
    (let o : DmaOp := { inst := 0, gen := 5 }
     let d : Dev := { tIn 4 with hst := { rdOps := [o], insts := ⟨[(0, { drain := some 9, pgen := 5 })]⟩ } }
     (d.instX 0).drain = some 9 ∧ d.inflightPrev 0 ≠ 0) := by
  refine ⟨?_, ?_, ?_, ?_⟩ <;> decide +kernel

/-- After RUN, instance 0 ENABLED with its migration state. -/
def tMig (st : Nat) (m : Mig) : Dev := (({ tIn 3 with hst := { migs := ⟨[(0, m)]⟩ } } : Dev).put F.MIG_STATE_MSTATE 0 st)

theorem witness_MigrationCommandsComplete :
    (let d := tMig 0 {}
     d.idleWin (.mw 0) ∧ d.pfOf 0 = 0 ∧ d.instEnabled 0 = true ∧ d.flag F.MIG_STATE_TRACKING 0 = false ∧ (4096 : Nat) % 4096 = 0 ∧ 12 ≤ 12 ∧ 26 ≤ 26 ∧ (d.fn 0).ats = false ∧ d.mstate 0 = 0) ∧
    (let d := (tMig 3 {}).put F.MIG_STATE_TRACKING 0 1
     d.flag F.MIG_STATE_TRACKING 0 = true ∧ d.instEnabled 0 = true ∧ d.mstate 0 = 3 ∧ 2 ≤ d.mstate 0) ∧
    (let d : Dev := { tMig 2 { kek := 1 } with cry := { keks := ⟨[(1, { key := [1], export_ := true })]⟩ } }
     d.idleWin (.mw 0) ∧ d.mstate 0 = 2 ∧ (d.cry.keks.get (d.mig 0).kek).key ≠ [] ∧ (d.cry.keks.get (d.mig 0).kek).export_ = true ∧
      64 + (d.imgSections 0).2.length ≤ (65536 : BitVec 32).toNat) ∧
    (let d := tIn 2
     d.idleWin (.mw 0) ∧ d.get F.INST_STATE_STATE 0 = 2 ∧ d.mstate 0 = 0 ∧ d.get F.STM_FW_STATUS_RUN_INSTAR ≤ leNat (slice (List.replicate 64 255) 6 2)) ∧
    (let d := tMig 1 { win := some 0, opc := 2 }
     d.isUp 20 = true ∧ (d.mig 0).win = some 0 ∧ d.mstate 0 = 1 ∧ d.quiesceWaits 0 = false ∧ (d.mig 0).opc = 2 ∧
      (d.chanOps.any fun o => (d.mig 0).ops.contains o.id || o.fin == .migFlush 0) = false ∧ d.hst.rdOps.filter (fun o => o.fin == .migFlush 0) = []) := by
  refine ⟨?_, ?_, ?_, ?_, ?_⟩ <;> decide +kernel

theorem witness_MailboxCommandsComplete :
    (let d := (Dev.put {} F.INST_STATE_STATE 0 2).put F.HOST_PORT_STATUS_STATE 0 2
     ∀ up : Bool, d.isUp 20 = true ∧ d.halted = false ∧ d.mbxPending 0 up = false) ∧
    (let d := ((((Dev.put {} F.INST_STATE_STATE 0 2).put F.INST_STATE_STATE 4 2).put F.HOST_PORT_STATUS_STATE 0 2).put F.INST_STATE_STATE 1 2)
     ∀ up : Bool, d.present (d.mbxReceiver 0 up) = true) ∧
    (let d : Dev := Dev.put (Dev.put {} (F.MBX_TX_STATUS_STATE.atEnd true) 0 1) (F.MBX_TX_STATUS_STATE.atEnd false) 0 1
     ∀ up : Bool, d.mbxPending 0 up = true) ∧
    (let d : Dev := { hst := { mbxDue := ⟨[(mbxKey 0 false, some 9)]⟩ } }
     d.hst.mbxDue.get (mbxKey 0 false) = some 9) := by
  refine ⟨?_, ?_, ?_, ?_⟩ <;> decide +kernel

end Sys2Proof.Tests
end

