-- ==== Sys2Proof/Tests/WitnessStew.lean ====
section
/-!
SUPPORT. Witnesses for the statements about the steward, its firmware, the flash and the fuses.
-/
namespace Sys2Proof.Tests
open Sys2Proof.Machine
set_option Elab.async false

/-- The steward runs in an OWNED device with shared memory of PF0 of 64 KiB, and a steward part `x`. -/
def tStw (x : Stew) : Dev :=
  let d : Dev := { stw := { x with running := true } }
  ((d.put F.FUSE_STATUS_LC 0 2).put F.MBX_SHM_CFG_ENABLE 0 1).put F.MBX_SHM_CFG_LOG2_SIZE 0 16
/-- A program image of PF0 with one entry point, for slot 255. -/
def tImg : ProgImage :=
  { owner := 0, bytes := [], bank := 0, code := 0, codeLen := 0, shared := 0, sharedLen := 0, entries := [{ slot := 255, tenant := false, code := 0, budget := 1, handler := 0 }], trefs := [] }

theorem witness_StewardCommandsComplete :
    (let d := tStw {}
     d.stewardTakes 0 0 ∧ d.stewardTakes 11 10000 ∧ stmPf 0 = some 0 ∧ stmPf 11 = some 3 ∧ d.shmOk 0 0xFF00 0x100 = true) ∧
    (let d : Dev := { tStw {} with mgt := { stm := ⟨[(15, some { src := 8, tag := 0, bytes := [] })]⟩ } }
     let d := d.put F.RST_STRAPS_HOSTBIF 0 1
     d.stewardTakes 15 10000 ∧ stmSecure 15 = true ∧ d.pfExists 3 = true) ∧
    (let d := tStw { imgs := ⟨[(9, some tImg)]⟩ }
     d.image (9 : BitVec 32).toNat = some tImg ∧ tImg.owner = 0 ∧ d.imageUsed 9 = false ∧ (d.stw.moults.any fun j => j.entries.any (·.image == some 9)) = false ∧
      d.bindFault 0 9 255 2051 0 4 0 (some []) = none ∧ d.moultFault 0 [(9, 255, 0, 0, some [])] = none ∧ [(9, 255, 0, 0, some ([] : List Nat))].length ≤ 15) ∧
    (let v : SlotVer := { owner := 0 }
     let d := ({ tStw {} with slots := ⟨[(255 * 256 + 1, some v)]⟩ } : Dev)
     let d := d.put F.BUF_SLOT_STATE_ACTIVE 255 1
     d.slotOwner (255 : BitVec 8).toNat = some 0) ∧
    (let d := tStw {}
     (∀ x ∈ [(1, [2]), (1, [30]), (2, [0, 8]), (3, [0, 1])], d.cfgBad x.1 x.2 = false) ∧ d.stw.flash.full = false) ∧
    (let d := tStw {}
     (∀ c < 8, ∀ n ∈ [1, 16383], (d.takeCells (35 * 8 + c) (cellsOf n)).isSome = true) ∧ d.robEntries < 262144 ∧ d.robKeys.length < 131072 ∧ (2051 : BitVec 16).toNat ≤ 2051) ∧
    (let d : Dev := Dev.setWin { tStw { due := ⟨[(15, some 9)]⟩ } with sys := {} } (.stm 15) { st := 1 }
     d.stw.due.get (15 : Fin 16).val = some 9 ∧ (d.win (.stm 15)).st = 1 ∧ (d.reach 9).entering = false ∧
      (d.reach 9).stw.running = true ∧ (d.reach 9).stw.wasReset = false) ∧
    ((slice (List.replicate 44 1) 44 4).any (· != 0) = false ∧ ((tStw {}).cry.keys.get (32767 : BitVec 16).toNat).refs = 0 ∧ (63 : BitVec 8).toNat ≤ 63) := by
  refine ⟨?_, ?_, ?_, ?_, ?_, ?_, ?_, ?_⟩ <;> decide +kernel

theorem witness_FirmwareCommandsComplete :
    (let d := tStw {}
     d.stewardTakes 0 0 ∧ d.flashFull = false ∧ (0x3F00000 : BitVec 32).toNat % 256 = 0 ∧ 0x3F00000 + 2 ^ 20 ≤ 0x4000000 ∧ d.shmOk 0 0 0x10000 = true) ∧
    (let d := tStw {}
     ∀ fq ∈ [0, 1, 2],
     (d.openSession.sessionErase fq (sectorsOf (slotBase d.standby + 0x3FF0000) 0x10000)).2 = true) ∧
    (let d := (tStw { flash := { boot := { trial := true } } }).put F.STM_FW_STATUS_RUN_SLOT 0 1
     d.onTrial = true ∧ d.stw.flash.boot.trial = true ∧ d.flashFull = false ∧ d.stewardTakes 1 0) ∧
    (let d := tStw {}
     let a := 0x8D00000 + d.stw.flash.chryOlder * 0x100000
     (((sectorsOf a 0x100000).drop 1).foldl (fun (e : Dev × Bool) sec => if e.2 then e.1.eraseSector sec 0 else e) (d.eraseSector (a / 65536) 2)).2 = true) ∧
    (let d := (tStw { runAt := some 5, flash := { boot := { trial := true } } }).put F.STM_FW_STATUS_RUN_SLOT 0 1
     d.stw.running = true ∧ d.stw.runAt = some 5 ∧ d.onTrial = true ∧ d.flashFull = false ∧ (d.stw.flash.boardWord 4).getD 600 ≠ 0xFFFFFFFE) ∧
    (let r : Record := { type := 1, instar := 0, key := 1, data := [1] }
     let d := tStw { flash := { wait := [r, r], dirty := some 1 } }
     d.stw.flash.wait = [r, r] ∧ d.stw.flash.head + r.size ≤ d.stw.flash.tail + 58 * 65536 ∧ d.stw.flash.dirty.isSome = true) ∧
    (let j : MoultJob := { win := 15, opc := 3, pf := 0, entries := [{ slot := 255, image := none }] }
     let d := tStw { moults := [j] }
     d.isUp 21 = true ∧ d.stw.moults.find? (·.win == (15 : Fin 16).val) = some j ∧ (∀ e ∈ j.entries, d.get F.BUF_SLOT_STATE_RETIRING e.slot = 0)) ∧
    (let d := Dev.put {} F.BUF_SLOT_STATE_RETIRING 255 255
     d.get F.BUF_SLOT_STATE_RETIRING 255 ≠ 0 ∧ d.verCount 255 (d.get F.BUF_SLOT_STATE_RETIRING 255) = 0) := by
  refine ⟨?_, ?_, ?_, ?_, ?_, ?_, ?_, ?_⟩ <;> decide +kernel

theorem witness_FuseCommandsComplete :
    (let d : Dev := { stw := { start := { sensing := true } } }
     d.stw.start.sensing = true) ∧
    (let d := Dev.put {} F.FUSE_STATUS_LC 0 0
     d.pwTakes .jtag ∧ d.pwTakes .pf0 ∧ (∀ w ∈ [3, 456, 479], w + 24 ≤ 511 ∧ d.mayProgram w = true ∧ d.fuseBlank w = true) ∧ (List.replicate 24 (1 : BitVec 32)).length ≤ 24) ∧
    (let d := Dev.put {} F.FUSE_STATUS_LC 0 1
     let e := Dev.put {} F.FUSE_STATUS_LC 0 2
     d.pwTakes .pf0 ∧ e.pwTakes .pf0 ∧ 1 ≤ d.get F.FUSE_STATUS_LC ∧ e.get F.FUSE_STATUS_LC ≤ 2 ∧ d.fuseBlank 1 = true ∧ e.fuseBlank 2 = true) ∧
    (let d := Dev.put {} F.FUSE_STATUS_LC 0 2
     d.get F.FUSE_STATUS_LC ≠ 0 ∧ d.get F.FUSE_STATUS_LC ≠ 3 ∧ d.rollbackV < (1 : BitVec 8).toNat ∧ (64 : BitVec 8).toNat ≤ 64 ∧ (d.advanceTo [] 1).2 = none) ∧
    ((Dev.put {} F.FUSE_STATUS_LC 0 3).jtagAccepts .other = true ∧ (Dev.put {} F.FUSE_STATUS_LC 0 2).jtagAccepts .other = false) ∧
    (let d : Dev := { stw := { fuses := ⟨[(4, { value := 0xFFFFFFFF })]⟩ } }
     let d := ((d.put F.FUSE_STATUS_LC 0 2).put F.IDE_STREAM_ACTIVE 9 1).put F.IDE_STREAM_ACTIVE 4 1
     d.isUp 20 = true ∧ d.get F.FUSE_STATUS_LC ≠ 0 ∧ d.get F.FUSE_STATUS_LC ≠ 3 ∧ d.trusted (d.hostPortOf 0) (4 : Fin 5).val = true) := by
  refine ⟨?_, ?_, ?_, ?_, ?_, ?_⟩ <;> decide +kernel

end Sys2Proof.Tests
end

