-- ==== Sys2Proof/Tests/WitnessMgt.lean ====
section
/-!
SUPPORT. Witnesses for the statements about events, faults, the group, the management bus, Eyespot, power, time, start-up
and the whole machine.
-/
namespace Sys2Proof.Tests
open Sys2Proof.Machine
set_option Elab.async false

theorem witness_EventsAndFaultsComplete :
    (let d : Dev := { evq := [{ id := 0x3F }, { id := 0x40 }, { id := 0x56F }, { id := 0x80 }] }
     d.isUp 20 = true ∧ (d.evq[0]?).isSome = true ∧ evtIsland 0x40 = evtIsland 0x3F ∧
      (∀ x ∈ d.evq.take 2, evtIsland x.id ≠ evtIsland 0x56F) ∧ (∀ x ∈ d.evq.take 3, evtIsland x.id ≠ evtIsland 0x80)) ∧
    (let d : Dev := { hst := { vecs := ⟨[(vecKey 1 2047, { mask := false, pend := true })]⟩, fns := ⟨[(1, { bme := true, msixEn := true })]⟩ } }
     let d := (d.put F.HOST_PORT_STATUS_STATE 0 2).put F.INST_STATE_STATE 1 3
     d.vecReady 1 2047 = true ∧ (d.vec 1 2047).last = none) ∧
    (let m : FaultMsg := { cls := 15, kind := 1, island := 25 }
     let d : Dev := { ftq := [{ m with island := 3 }, m] }
     d.isUp 25 = true ∧ d.ftq[1]? = some m ∧ (∀ x ∈ d.ftq.take 1, x.island ≠ m.island)) ∧
    (let d : Dev := { ftq := [{ cls := 15, kind := 1, island := 24 }] }
     kindLevel 0 1 ≠ none ∧ kindLevel 15 1 ≠ none ∧ d.isUp 0 = true ∧ d.isUp 25 = true ∧ (∀ x ∈ d.ftq, x.island ≠ 0) ∧ (∀ x ∈ d.ftq, x.island ≠ 25)) ∧
    (let d : Dev := { fc := { silent := ⟨[(25, some 9)]⟩ } }
     bit (d.get F.FCOL_FPSW_FATAL) (25 : Fin 26).val = false ∧ d.fc.silent.get (25 : Fin 26).val = some 9) ∧
    (let d : Dev := Dev.put { stw := { running := true } } F.FCOL_PART_ISO_POD 0 0x8000
     bit (d.get F.FCOL_PART_ISO_POD) (15 : Fin 16).val = true ∧ d.stw.running = true ∧ d.podStays 15 = false) ∧
    (let d : Dev := {}
     d.isUp 22 = true ∧ d.isUp 20 = true ∧ (∀ p : Fin 16, d.isUp p.val = true) ∧ (∀ n : Fin 26, d.isUp n.val = true)) ∧
    (let d : Dev := { sys := { localErr := ⟨[(1, 3), (2, -3), (3, -2)]⟩ } }
     d.fc.storm.get ((25 * 32 + 31) * 256 + 255) = none ∧ 2 < (d.sys.localErr.get 1).natAbs ∧ 2 < (d.sys.localErr.get 2).natAbs ∧
      (d.sys.localErr.get 3).natAbs ≤ 2 ∧ (d.sys.localErr.get 0).natAbs ≤ 2) := by
  refine ⟨?_, ?_, ?_, ?_, ?_, ?_, ?_, ?_⟩ <;> decide +kernel

/-- Member 1 of an enabled group of members 1 and 2, both current, led by `ld`, in state `st`; link 0 is ACTIVE towards member 2. -/
def tGrp (st ld : Nat) (g : GProto) : Dev :=
  let d : Dev := { gp := g, grp := { set := List.replicate 272 0 ++ [0, 1] ++ List.replicate 1022 0 } }
  let d := ((d.put F.GRP_CFG_ENABLE 0 1).put F.GRP_STATUS_STATE 0 st).put F.GRP_STATUS_ID 0 1
  let d := ((d.put F.GRP_STATUS_LEADER 0 ld).put F.GRP_STATUS_CURRENT 0 3).put F.GRP_STATUS_CONFIGURED 0 3
  (d.put F.NET_EL_STATUS_STATE 1 7).put F.NET_EL_STATUS_PEER_MEMBER 1 1

theorem witness_GroupTrafficCompletes :
    (let d := tGrp 3 1 {}
     d.isUp 25 = true ∧ d.flag F.GRP_CFG_ENABLE = true ∧ d.linkActive 0 = true) ∧
    (let d := tGrp 3 1 {}
     (∀ n ∈ [2, 4], leNat (slice (toLe 4 n) 0 4) % 8 = n ∧ n ≠ d.me ∧ d.get F.GRP_STATUS_LEADER ≠ n)) ∧
    (let d := tGrp 3 1 { expect := ⟨[(2, 9)]⟩ }
     let b := toLe 4 9 ++ toLe 4 (1 + 64 * 2 ^ 12) ++ List.replicate 88 0
     let src := leNat (slice b 4 4) % 4 + 1
     d.isUp 21 = true ∧ src = 2 ∧ bits (leNat (slice b 4 4)) 2 2 + 1 = d.me ∧ leNat (slice b 0 4) = d.gp.expect.get src ∧ (d.arrive 0 src b).isSome = true) ∧
    (let d := tGrp 3 4 {}
     d.get F.GRP_STATUS_STATE = 3 ∧ d.get F.GRP_STATUS_LEADER ≠ d.me ∧ d.get F.GRP_STATUS_LEADER ≠ 0 ∧ d.peerOn (d.get F.GRP_STATUS_LEADER) = false ∧
      d.flag F.GRP_STATUS_TIME_DIVERGED = false) ∧
    (let f : Fwd := { member := 4, fseq := 2 ^ 32 - 1, stamp := 7, c := 0 }
     let x : Fwd := { f with fseq := 5, redo := some 9 }
     let d : Dev := { grp := { fwd := [f, x] }, items := ⟨[(7, some { copies := [{ dest := 3, dtype := 0, hold := some 3 }] })]⟩ }
     d.grp.fwd.find? (fun f => f.member == (4 : Fin 5).val && f.fseq == (0xFFFFFFFF : BitVec 32).toNat && f.redo.isNone) = some f ∧
      d.grp.fwd.find? (fun f => f.member == (4 : Fin 5).val && f.fseq == (5 : BitVec 32).toNat) = some x ∧ x.redo = some 9 ∧
      (let g : Dev := { d.reach 9 with grp := { (d.reach 9).grp with fwd := (d.reach 9).grp.fwd.erase x } }
       (g.copy 7 0).isSome = true ∧ ∀ k ∈ g.copy 7 0, (g.queueOf k).isSome = true)) ∧
    (let d : Dev := { items := ⟨[(7, some { copies := [{ dest := 3 * 2 ^ 15, dtype := 2, hold := some 3 }] })]⟩ }
     ∃ k ∈ (d.copy 7 0).toList, k.dtype = 2 ∧ k.st ≠ .gone ∧ d.halted = false ∧ k.hold = some 3) := by
  refine ⟨?_, ?_, ?_, ?_, ?_, ?_⟩ <;> decide +kernel

theorem witness_GroupMembershipCompletes :
    (let d : Dev := { tGrp 3 1 { beacon := ⟨[(2, some { at_ := 0, state := 3 })]⟩ } with stw := { start := { step := 12 } } }
     let d := (d.put F.MBX_SHM_CFG_ENABLE 0 1).put F.MBX_SHM_CFG_LOG2_SIZE 0 16
     d.idleWin .gw ∧ d.isLeader = true ∧ d.majority ≤ (ofMask (d.get F.GRP_STATUS_CURRENT)).length + b2n (d.bmcVotes && d.bmcHeard) ∧ d.gp.run = none ∧ d.shmOk 0 0 1296 = true ∧ grpRecs d.grp.set = []) ∧
    (∀ st ∈ [2, 3],
     (tGrp st 1 {}).get F.GRP_STATUS_STATE = st) ∧
    (let d := tGrp 2 0 {}
     (0 : Fin 5).val ≠ d.me ∧ (4 : Fin 5).val ≠ d.me ∧ d.heardOf 0 = none ∧ d.heardOf 4 = none) ∧
    (let p : Prep := { epoch := 1, current := 7, leader := 1, enc := [], at_ := 0 }
     let r : Run := { prep := p, ready := [3] }
     let q : Run := { prep := p }
     (tGrp 3 1 { run := some r }).gp.run = some r ∧ inMask r.prep.current 2 = true ∧ r.prep.apply = none ∧ 2 ∉ r.ready ∧ (tGrp 3 1 {}).commitReady { r with ready := r.ready ++ [2] } = true ∧
      (tGrp 3 1 {}).commitReady { q with ready := q.ready ++ [2] } = false) ∧
    (let p : Prep := { epoch := 1, current := 3, leader := 1, enc := [], at_ := 0 }
     (tGrp 3 1 { prep := some p }).gp.prep = some p ∧ p.apply = none ∧ (tGrp 3 1 { prep := some p }).gp.run = none ∧
      (tGrp 3 2 { prep := some { p with apply := some 9 } }).gp.prep = some { p with apply := some 9 }) ∧
    (let d := ((tGrp 2 0 {}).put F.GRP_STATUS_CONFIGURED 0 1).put F.GRP_STATUS_CURRENT 0 0
     let l := members.filter fun m => inMask (d.get F.GRP_STATUS_CONFIGURED) m && (m == d.me || d.joinable m)
     d.get F.GRP_STATUS_STATE = 2 ∧ d.gp.held = false ∧ d.gp.timeLeft = false ∧ d.gp.run = none ∧ d.grp.set ≠ [] ∧ (members.any fun m => m != d.me && d.inContact m) = false ∧ d.chooseLeader l = d.me ∧
      d.majority ≤ l.length + b2n (d.bmcVotes && d.bmcHeard)) ∧
    (let d := tGrp 3 2 {}
     let e : Dev := ({ tGrp 3 4 { beacon := ⟨[(2, some { at_ := 0, state := 3, ptp := true })]⟩ } with net := {} } : Dev).put F.GRP_STATUS_CURRENT 0 10
     let left (d : Dev) := (ofMask (d.get F.GRP_STATUS_CURRENT)).filter fun m => m != d.get F.GRP_STATUS_LEADER && d.inContact m
     d.get F.GRP_STATUS_STATE = 3 ∧ d.get F.GRP_STATUS_LEADER ≠ d.me ∧ d.get F.GRP_STATUS_LEADER ≠ 0 ∧ d.inContact (d.get F.GRP_STATUS_LEADER) = false ∧ d.chooseLeader (left d) = (d.grpSet 3 1 3).me ∧
      (d.grpSet 3 1 3).gp.prep = none ∧ e.inContact 4 = false ∧ e.chooseLeader (left e) = 2 ∧ (e.grpSet 3 2 10).me ≠ 2) ∧
    (let g := (tGrp 3 1 {}).grpWatch
     g.gp.below = some 0 ∧ g.get F.GRP_STATUS_STATE = 3 ∧ g.isLeader = true ∧ (2 : Fin 5).val ≠ g.me ∧ inMask (g.get F.GRP_STATUS_CURRENT) 2 = true ∧ g.gp.away.get 2 = some 0) ∧
    (let d := (tGrp 5 1 { beacon := ⟨[(2, some { at_ := 0, state := 3 })]⟩ }).grpWatch
     d.gp.okAt = some 0 ∧ d.get F.GRP_STATUS_STATE = 5) ∧
    (let x : Repl := { (default : Repl) with seq := 2 ^ 32 - 1 }
     let d : Dev := { tGrp 3 1 {} with tbl := { repl := [x] } }
     d.tbl.repl.find? (·.seq == (0xFFFFFFFF : BitVec 32).toNat) = some x ∧ d.isLeader = true) ∧
    (let d := (tGrp 3 2 {}).put F.TABLE_DESC_CFG_SCOPE 1023 1
     d.isUp 22 = true ∧ d.tbl.replGot ≤ 0 ∧ d.isLeader = false ∧ d.tScope 1023 = 1 ∧ (tGrp 3 1 {}).isLeader = true ∧ inMask (d.get F.GRP_STATUS_CURRENT) 2 = true) ∧
    (let d := (tGrp 3 1 {}).put F.TABLE_DESC_CFG_SCOPE 1023 1
     d.isLeader = true ∧ inMask (d.get F.GRP_STATUS_CURRENT) 2 = true ∧ d.tScope (1023 : Fin 1024).val = 1 ∧
      (∃ k ∈ ofMask (d.get F.GRP_STATUS_CURRENT), inMask (2 : BitVec 4).toNat k = false ∧ ∀ r ∈ [(2, 1023, 5, d.mono)], ¬ (r.1 = k ∧ r.2.1 = 1023 ∧ r.2.2.1 = 5))) := by
  refine ⟨?_, ?_, ?_, ?_, ?_, ?_, ?_, ?_, ?_, ?_, ?_, ?_⟩ <;> decide +kernel

theorem witness_BeaconLineCompletes :
    (let d : Dev := tGrp 3 1 {}
     ∃ t ∈ d.gbl.rend.toList, d.isUp 25 = true ∧ d.flag F.GRP_CFG_ENABLE = true ∧
      (let g := (d.reach (t + (1 + d.me) * d.superframe)).gblRoll
       let g := (g.reach (g.gblNext g.me)).gblRoll
       g.gblQuiet = false)) ∧
    (let d : Dev := { tGrp 3 1 {} with gbl := { rend := none } }
     let own := d.gblRoll
     let g := (own.reach (own.gblNext own.me)).gblRoll
     let x := own.gbl.wake.getD (2, 1)
     let w := (own.reach (own.gblNext 5 + (x.2 - 1) * own.superframe)).gblRoll
     d.gbl.rend = none ∧ g.gblQuiet = false ∧ g.gblReport = none ∧ w.gblQuiet = false ∧ d.gbl.lineAwake = none ∧ d.gbl.silenced = none) ∧
    (let d : Dev := { gbl := { trim := some (1, 2), bad := 2, badNow := true, cocoon := true } }
     d.gbl.trim.isSome = true ∧ d.gbl.silenced = none ∧ 3 ≤ d.gbl.bad + b2n d.gbl.badNow ∧ d.gbl.cocoon = true ∧ d.gbl.lineAwake = none) := by
  refine ⟨?_, ?_, ?_⟩ <;> decide +kernel

end Sys2Proof.Tests
end

