-- ==== Sys2Proof/Tests/WitnessTop.lean ====
section
/-!
SUPPORT. Witnesses for the statements about the management bus, Eyespot, power, time, start-up and the whole machine.
-/
namespace Sys2Proof.Tests
open Sys2Proof.Machine
set_option Elab.async false

/-- The steward runs in an OWNED device, and a message of bytes `b` waits, in session `ses`. -/
def tMsgs (ses : Option Nat) (b : List Nat) : Dev :=
  Dev.put { stw := { running := true }, mgt := { msgs := [{ src := 8, tag := 0, session := ses, bytes := b }] } } F.FUSE_STATUS_LC 0 2

theorem witness_ManagementMessagesComplete :
    (let b := [0x30 * 2, 15, 6, 1]
     let d : Dev := {}
     d.isUp 24 = true ∧ b.getD 0 0 = d.smbAddr * 2 ∧ 2 ≤ b.length ∧ pecOf (b.take 3) ≠ b.getD 3 0 ∧ pecOf ((b.take 3 ++ [pecOf (b.take 3)]).take 3) = (b.take 3 ++ [pecOf (b.take 3)]).getD 3 0) ∧
    (let r : Reasm := { src := 255, tag := 7, at_ := 0, next := 1, bytes := [] }
     let d : Dev := { mgt := { parts := [r] } }
     d.partial_ (255 : BitVec 8).toNat (7 : Fin 8).val = some r) ∧
    (∀ e ∈ [1, 254],
     let d := tMsgs none [0, 0, 1, 1, e]
     ∃ m ∈ d.mgt.msgs.find? (isCtl 1), 5 ≤ m.bytes.length ∧ m.byte 3 % 4 ≤ 1 ∧ m.byte 4 ≠ 0 ∧ m.byte 4 ≠ 255) ∧
    (∀ c ∈ [2, 3, 4, 5, 6],
     let d := tMsgs none [0, 0, c, if c = 4 then 255 else 0]
     ∃ m ∈ d.mgt.msgs.find? (isCtl c), (c = 4 → m.byte 3 ∈ [0xFF, 0, 5, 6, 0x7E]) ∧ (c = 6 → m.byte 3 = 0)) ∧
    (let v (ses : Option Nat) (c : Nat) (x : List Nat) := tMsgs ses ([0x7E, 0xDC, 0xB3, c, 0, 0] ++ x)
     (∀ c ∈ [1, 2], ((v none c []).mgt.msgs.find? (isVendor c)).isSome = true) ∧ (v none 1 []).flag F.FUSE_STATUS_SECURE_HOLD = false ∧
      (v none 3 []).stewardState = 1 ∧ (∃ m ∈ (v none 3 [0xFF, 0xFF, 8]).mgt.msgs.find? (isVendor 3), 1 ≤ m.byte 8 ∧ m.byte 8 ≤ 8) ∧
      (∃ m ∈ (v none 4 [31]).mgt.msgs.find? (isVendor 4), m.byte 6 ≤ 31) ∧ (∃ m ∈ (v none 5 [31, 0, 0, 0, 128]).mgt.msgs.find? (isVendor 5), m.byte 6 ≤ 31 ∧ 1 ≤ m.byte 10 ∧ m.byte 10 ≤ 128) ∧
      (∃ m ∈ (v (some 7) 6 [31, 0, 0, 0, 8]).mgt.msgs.find? (isVendor 6), m.session ≠ none ∧ m.byte 6 ≤ 31 ∧ 1 ≤ m.byte 10 ∧ m.byte 10 ≤ 8) ∧
      (∃ m ∈ (v (some 7) 7 []).mgt.msgs.find? (isVendor 7), (v (some 7) 7 []).stmReady = none ∧ m.session = some 7 ∧ (v (some 7) 7 []).mgt.stm.get 15 = none)) ∧
    (let d : Dev := Dev.setWin { tMsgs none [] with mgt := { stm := ⟨[(15, some { src := 8, tag := 0, bytes := [] })]⟩ } } (.stm 15) { st := 2 }
     d.stmReady.isSome = true) ∧
    (∀ c ∈ [0xE0, 0x82, 0x83, 0xE4],
     let d := tMsgs none [5, 0x12, c, 0, 0]
     d.stw.running = true ∧ d.noSecrets = false ∧ [4, 5, 6, 7].find? (fun c => !d.stw.sessions.contains c) = some 4 ∧
      (∃ m ∈ d.mgt.msgs.find? (fun m => m.byte 0 == 5 && m.byte 2 == c && m.session.isNone), (m.bytes.drop 1).getD 2 0 = 0)) ∧
    (let d : Dev := { stw := { sessions := [7] } }
     (3 : Fin 4).val + 4 ∈ d.stw.sessions ∧ d.mgt.msgs.find? (fun m => m.byte 0 == 5 && m.session == some 7) = none) := by
  refine ⟨?_, ?_, ?_, ?_, ?_, ?_, ?_, ?_⟩ <;> decide +kernel

theorem witness_I2cCommandsComplete :
    (let q : I2cReq := { by_ := .poll, op := .poll 0, lost := 7 }
     let w : I2cReq := { q with wait := some 9 }
     let d : Dev := { mgt := { reqs := ⟨[(2, [w]), (3, [q])]⟩ } }
     d.isUp 24 = true ∧ d.i2cQueue 3 = q :: [] ∧ d.i2cQueue 2 = w :: [] ∧
      d.flag F.MGT_I2C_STATUS_FAILED 3 = false ∧ q.wait = none ∧ q.lost < 8 ∧ w.wait = some 9 ∧ d.flag F.MGT_I2C_STATUS_FAILED 2 = false) ∧
    (let d : Dev := { mgt := { smb := [[16, 1]] } }
     d.mgt.smb = [16, 1] :: [] ∧ d.mgt.smbWait = none) ∧
    (let d := (Dev.put {} F.MGT_I2C_CFG_ROLE 3 2).put F.MGT_I2C_CFG_ROLE 0 1
     let e := d.put F.MGT_I2C_STATUS_FAILED 3 1
     d.get F.MGT_I2C_CFG_ROLE 3 ≠ 0 ∧ d.flag F.MGT_I2C_STATUS_FAILED 3 = false ∧ e.get F.MGT_I2C_CFG_ROLE 3 ≠ 0 ∧ e.flag F.MGT_I2C_STATUS_FAILED 3 = true) ∧
    (let d : Dev := Dev.put { stw := { running := true } } F.MGT_MOD_MAP_VALID 31 1
     let d := (d.put F.MGT_MOD_MAP_PORT 31 3).put F.MGT_I2C_CFG_ROLE 3 1
     d.stw.running = true ∧ d.flag F.MGT_MOD_MAP_VALID 31 = true ∧ d.get F.MGT_I2C_CFG_ROLE (d.get F.MGT_MOD_MAP_PORT 31) = 1) ∧
    (let d : Dev := { mgt := { want := ⟨[(3, some 700)]⟩ } }
     d.halted = false ∧ (d.win .tw).st = 0 ∧ 1 ≤ (128 : BitVec 8).toNat ∧ (128 : BitVec 8).toNat ≤ 128 ∧ (8 : BitVec 8).toNat ≤ 8 ∧ d.mgt.want.get 3 = some 700) ∧
    (let d : Dev := Dev.put { stw := { running := true } } F.MGT_AVS_RAIL_VALID 3 1
     d.stw.running = true ∧ d.flag F.MGT_AVS_RAIL_VALID 3 = true ∧ (d.lowerCaps 3).flag F.PWR_AVS_STATUS_USABLE 3 = false) ∧
    (∀ x ∈ [(700, 700), (700, 800), (800, 700)],
     let d : Dev := Dev.put { stw := { running := true } } F.PWR_AVS_CFG_MODE 3 1
     let d := ((d.put F.PWR_AVS_CFG_FIXED_MV 3 x.1).put F.PWR_AVS_STATUS_CONFIRMED_MV 3 x.2).put F.PWR_AVS_STATUS_USABLE 3 1
     let e := d.lowerCaps 3
     let raw := e.railRaw 3
     let target := min 900 (max 650 raw)
     let f := (if raw = target then e else e.fault 6 6 24 3).put F.PWR_AVS_STATUS_TARGET_MV 3 target
     let now := f.get F.PWR_AVS_STATUS_CONFIRMED_MV 3
     d.stw.running = true ∧ e.flag F.PWR_AVS_STATUS_USABLE 3 = true ∧ target = x.1 ∧ now = x.2 ∧ (x.1 = x.2 → avsStep now target = now) ∧ (x.1 ≠ x.2 → avsStep now target ≠ now) ∧ f.mgt.railBad.get 3 = false) := by
  refine ⟨?_, ?_, ?_, ?_, ?_, ?_, ?_⟩ <;> decide +kernel

theorem witness_EyespotCommandsComplete :
    (let d : Dev := {}
     d.isUp 24 = true ∧ d.eye.runs = false ∧ d.halted = false ∧ (d.win .sw).st = 0 ∧ (23 : BitVec 5).toNat ≤ 23 ∧ (4 : BitVec 3).toNat ≤ 4 ∧ (15 : BitVec 4).toNat ≠ 0) ∧
    (let q : Single := { ch := 23, gain := 1, osr := 4, chop := 0, count := 15 }
     let d : Dev := { eye := { runs := true, single := some q } }
     d.eye.runs = true ∧ d.eye.single = some q) ∧
    (let d : Dev := { eye := { ch := 23 } }
     let g := d.reach (d.eye.last + 10 * samplePeriod d.eye.cfg)
     d.eye.runs = false ∧ g.get F.EYE_COND_COND g.eye.ch ≠ failedCond g.eye.ch) ∧
    (let d : Dev := { stw := { running := true } }
     d.stw.running = true ∧ d.throttleMask = d.eye.capped ∧ d.throttleMask = 0 ∧ d.throttleMask ≠ ({ d with eye := { capped := 1 } } : Dev).eye.capped ∧ ({ d with eye := { capped := 1 } } : Dev).throttleMask = 0) := by
  refine ⟨?_, ?_, ?_, ?_⟩ <;> decide +kernel

/-- PWR.STATE reads `st`. -/
def tPwr (st : Nat) (p : Pwr) : Dev := Dev.put { pwr := p } F.PWR_STATE_STATE 0 st

theorem witness_PowerEventsComplete :
    (let d := (tPwr 3 {}).put F.PWR_STATE_XTAL_32K_OK 0 1
     d.live 25 ∧ d.get F.PWR_STATE_STATE = 3 ∧ d.stw.start.warm = none ∧ d.stw.start.ledgers = none ∧ d.flag F.PWR_STATE_XTAL_32K_OK = true) ∧
    ((tPwr 4 {}).get F.PWR_STATE_STATE = 4 ∧ (tPwr 4 {}).stw.start.ledgers = none) ∧
    (∀ src : Fin 3,
     let d := (tPwr 4 {}).wr .PWR_WAKE_CFG 0 7
     let e := (tPwr 1 { rail := false }).wr .PWR_WAKE_CFG 0 7
     bit (d.rd .PWR_WAKE_CFG 0) src.val = true ∧ d.pwr.latched = 0 ∧ bit (e.rd .PWR_WAKE_CFG 0) src.val = true ∧ e.get F.PWR_STATE_STATE = 1 ∧ e.pwr.rail = false ∧ e.pwr.latched = 0) ∧
    (let d := tPwr 1 { rail := false, latched := 4 }
     d.get F.PWR_STATE_STATE = 1 ∧ d.pwr.rail = false ∧ d.pwr.latched ≠ 0) ∧
    (let d := tPwr 1 { good := false, pg := some 9 }
     d.pwr.off = false ∧ d.pwr.good = false ∧ d.pwr.rail = true ∧ d.pwr.por = false ∧ d.pwr.pg = some 9) ∧
    (∀ st ∈ [1, 3],
     let d := tPwr st { hold := some 9, relatch := true }
     let e : Dev := { d.reach 9 with pwr := { (d.reach 9).pwr with hold := none } }
     d.pwr.hold = some 9 ∧ e.get F.PWR_STATE_STATE = st ∧ e.pwr.relatch = true) ∧
    (let d := tPwr 3 { por := true }
     d.get F.PWR_STATE_STATE ≠ 1 ∧ d.pwr.good = true ∧ d.pwr.off = false ∧ d.pwr.por = true) ∧
    (∀ n ∈ [16, 19, 21, 22, 23],
     let d : Dev := { sys := { islReset := 2 ^ n } }
     d.isUp n = false ∧ n ≠ 25 ∧ 16 ≤ n ∧ n ≠ 20 ∧ n ≠ 24 ∧ d.stw.start.warm = none ∧ d.pwr.por = false ∧ d.pwr.off = false ∧ d.pwr.hold = none ∧ d.get F.PWR_STATE_STATE ≠ 1) ∧
    (bit (0x57520001 : BitVec 32).toNat 0 = true ∧ (0x57520001 : BitVec 32).toNat / 2 ^ 16 = 0x5752) ∧
    (let d := (((List.range 16).foldl (fun (d : Dev) p => d.put F.POD_PARK_CTL_STATE p 2) {}).put F.PWR_PARK_CFG_AUTO_WAKE 0 1).put F.HOST_PORT_STATUS_STATE 1 1
     (∀ n ∈ [25, 16, 18, 20, 21], d.isUp n = true) ∧ d.flag F.PWR_PARK_CFG_AUTO_WAKE = true ∧ d.podsLoaded = true ∧ d.pwr.wakeAt = 0 ∧
      (List.range 16).find? (fun p => d.isUp p && (d.get F.POD_PARK_CTL_STATE p == 1 || d.get F.POD_PARK_CTL_STATE p == 2)) = some 0 ∧ d.hpState (1 : Fin 2).val ≠ 0) ∧
    (let d : Dev := { stw := { start := { warm := some 9, ledgers := some 9 } } }
     d.stw.start.warm = some 9 ∧ d.stw.start.ledgers = some 9 ∧ (List.range 4).any d.warmUnwritten = false) ∧
    (let d : Dev := { hst := { ledgers := [{ (default : Ledger) with pf := 3, kind := 3 }] } }
     (List.range 4).any d.warmUnwritten = true) ∧
    (let d := (Dev.put {} F.POD_PARK_CTL_STATE 15 3).put F.POD_PARK_CTL_PARK_REQ 15 1
     d.isUp 15 = true ∧ d.get F.POD_PARK_CTL_STATE 15 = 3 ∧ d.flag F.POD_PARK_CTL_PARK_REQ 15 = true ∧ d.podsDue = false) := by
  refine ⟨?_, ?_, ?_, ?_, ?_, ?_, ?_, ?_, ?_, ?_, ?_, ?_, ?_⟩ <;> decide +kernel

theorem witness_TimeCommandsComplete :
    (let d : Dev := {}
     d.live 25 ∧ (1 : BitVec 64) ≠ 0 ∧ Rng.ok (.signed 500000000) 32 (500000000 : BitVec 32).toNat = true) ∧
    (let d := Dev.put {} F.TIME_CTL_LOCKED 0 1
     d.live 25 ∧ d.flag F.TIME_CTL_LOCKED = true) ∧
    (let d := (tGrp 3 2 {}).put F.TIME_CTL_STEER_EN 0 1
     d.live 25 ∧ d.flag F.TIME_CTL_LOCKED = false ∧ d.flag F.TIME_CTL_STEER_EN = true ∧ d.get F.GRP_STATUS_STATE = 3 ∧ d.get F.GRP_STATUS_LEADER ≠ d.me ∧ d.pwr.steerAt = 0) := by
  refine ⟨?_, ?_, ?_⟩ <;> decide +kernel

theorem witness_StartUpStepsComplete :
    (∀ b ∈ [({ trial := false } : BootCtl), { trial := true, tries := 3 }, { trial := true }], ∀ mode ∈ [0, 2, 3],
     let d : Dev := { stw := { flash := { boot := b }, start := { step := 1, wdog := some 9 } } }
     let d := (d.put F.RST_START_PHASE 0 1).put F.RST_STRAPS_BOOTMODE 0 mode
     d.isUp 24 = true ∧ d.stw.start.step = 1 ∧ d.get F.RST_START_PHASE = 1 ∧ d.get F.RST_STRAPS_BOOTMODE = mode ∧ d.stw.flash.boot = b ∧ d.stw.start.wdog = some 9) ∧
    (∀ k ∈ [2, 3, 4, 5, 7, 8, 9, 10],
     let d : Dev := { stw := { running := true, start := { step := k } } }
     d.stw.running = true ∧ d.stw.start.step = k ∧ d.halted = false ∧ d.get F.FCOL_PC_RETIRED_PCS ≠ 2 ^ 64 - 1) ∧
    (let d : Dev := {}
     ∀ pc : Fin 64, ((d.retirePc pc.val []).fault 2 0x0B 21 pc.val).get F.FCOL_PC_RETIRED_PCS ≠ 2 ^ 64 - 1) ∧
    (∀ n : Fin 4,
     let d : Dev := { stw := { running := true, start := { step := 10, group := n.val } } }
     let e : Dev := { stw := { running := true, start := { step := 10, group := 4 } } }
     d.groupDue n.val = true ∧ e.groupDue 4 = true) ∧
    (let d : Dev := { stw := { running := true, start := { step := 10, group := 3, retrain := some 9 } } }
     d.stw.start.retrain = some 9) ∧
    (let r : ChryRoute := { key := 0, plen := 0, egress := 0, vlan := 0, dmac := 1 }
     let x : Item := { data := List.replicate 12 0 ++ [8, 0, 0x45] ++ List.replicate 7 0 ++ [64] ++ List.replicate 41 0, chry := true, pst := .loading }
     let d : Dev := { items := ⟨[(7, some x)]⟩, stw := { chry := { ports := [some { lane := 31, mac := 5 }], v4 := [r] } } }
     let d := d.put F.NET_PORT_STATUS_STATE 31 4
     d.isUp 21 = true ∧ d.isUp 22 = true ∧ d.item (7 : BitVec 48).toNat = some x ∧ x.chry = true ∧ x.pst = .loading ∧ x.disp = none ∧ d.halted = false ∧ (d.stw.chry.forward x.data).isSome = true ∧
      (∀ p ∈ d.stw.chry.forward x.data, d.portUp p.1.lane = true)) := by
  refine ⟨?_, ?_, ?_, ?_, ?_, ?_⟩ <;> decide +kernel

theorem witness_ResultWindowsAreReleased :
    (let d : Dev := Dev.setWin {} (.stm 15) { st := 2, seq := 65535 }
     d.isUp (WinId.stm 15).island = true ∧ d.halted = false ∧ (d.win (.stm 15)).st = 2 ∧ (d.win (.stm 15)).seq = (65535 : BitVec 16).toNat ∧ (d.win (.stm 0)).st ≠ 2 ∧ (d.win (.stm 15)).seq ≠ (0 : BitVec 16).toNat) ∧
    (∀ w ∈ [WinId.taw 4, .cw 4, .mw 3, .gw, .iw 3, .pw, .sw, .tw, .eye 3, .stm 11],
     ∀ st ∈ [1, 2],
     let d : Dev := Dev.setWin {} w { st := st }
     d.isUp w.island = true ∧ d.halted = false ∧ (d.win w).st ≠ 0 ∧ d.carried 11 = true ∧ d.pwReach .pf0 = true) := by
  refine ⟨?_, ?_⟩ <;> decide +kernel

theorem witness_FaultAcknowledgementSetsAcked :
    (let e : LogEntry := { msg := { cls := 0, kind := 1, island := 0 }, seq := 65535, level := 1, dtb := 0, dflt := 0 }
     let d : Dev := { fc := { log := ⟨[(63, some e)]⟩ } }
     d.isUp 25 = true ∧
      (d.fc.log.cells.find? fun c => match c.2 with | some e => !e.acked && e.seq == (65535 : BitVec 16).toNat | none => false) = some (63, some e) ∧
      (d.fc.log.cells.find? fun c => match c.2 with | some e => !e.acked && e.seq == (0 : BitVec 16).toNat | none => false) = none) := by
  decide +kernel

theorem witness_EveryStepAnswers :
    (State.reset.pending = [] ∧ State.reset.deferred = []) := by
  decide +kernel

theorem witness_ResetSteps : step State.reset = .next State.reset.idle := rfl

theorem witness_WindowsHoldOneCommandEach :
    (State.reset.heldOk) := by
  decide +kernel

theorem witness_CountersSaturateOrWrap :
    (let d : Dev := {}
     Ctr.MGT_BUS_TMO.cls ≠ .wrap64 ∧ d.cnt .MGT_BUS_TMO 3 ≤ Ctr.MGT_BUS_TMO.cls.max ∧ Ctr.NET_RX_FRAMES.cls = .wrap64) ∧
    (∃ c ∈ [Ctr.MGT_BUS_TMO, .MGT_BUS_RECOVER, .HOST_BAD_ACCESS], (c.cls = .sat16 ∨ c.cls = .sat32) ∧ c.cls.max - 1 < c.cls.max ∧ c.cls.max ≤ c.cls.max - 1 + 1) := by
  refine ⟨?_, ?_⟩ <;> decide +kernel

end Sys2Proof.Tests
end

