-- ==== Sys2Proof/WellFormed.lean ====
section
/-!
DEFINITION. Which commands are well-formed: the operands that name an element of the device name one that it has, bytes
are bytes, and the operands whose form the manual fixes have that form.
-/
namespace Sys2Proof
open Sys2Proof.Machine

/-- Every element is a byte. -/
def bytesOk (l : List Nat) : Bool := l.all fun x => decide (x < 256)

/-- Every element of bytes that are there is a byte. -/
def bytesOk? (l : Option (List Nat)) : Bool := bytesOk (l.getD [])

/-- The counter has this element. -/
def Machine.Ctr.has (c : Ctr) (i : Nat) : Bool := (dimOffset c.place.dims i).isSome

/-- A register access names something that the address map holds (R67, Table 31-2). -/
def targetOk : Target → Bool
  | .reg r i => r.has i
  | .ctr c i => c.has i
  | .closed c i => c.banked && c.has i
  | .win w off => decide (off < (match w with | .pw => 0x1000 | _ => 0x400)) && off % 8 == 0
  | .log _ _ => true

/-- A register that a setting names exists, and is written within its width. -/
def settingOk (x : Reg × Nat × BitVec 64) : Bool := x.1.has x.2.1 && decide (x.2.2.toNat < 2 ^ x.1.width)

/-- A fuse word that does not settle, or reads otherwise: word, copy and margin exist, and 39 bits are read (R554). -/
def fuseOk (word copy bits39 : Nat) : Bool := decide (word < 512) && decide (copy < 2) && decide (bits39 < 2 ^ 39)

/-- The TYPE field of a doorbell is this (Table 15-4). -/
def dbType (v : BitVec 64) (ts : List Nat) : Bool := ts.contains (bits v.toNat 16 2)

/-- The command's operands are well-formed. -/
def WellFormed : Instr → Bool
  | .registerWrite _ t _ _ _ => targetOk t
  | .rcRead _ _ _ => true
  | .halfReadLow _ t => targetOk t
  | .halfReadHigh _ t => targetOk t
  | .halfWriteLow _ t _ => targetOk t
  | .halfWriteHigh _ t _ => targetOk t
  | .resultAck _ _ => true
  | .reservedAccess _ _ => true
  | .epochSwitchRequest _ => true
  | .epochPeriodExpiry => true
  | .epochSwitchInstant => true
  | .epochClose => true
  | .counterUpdate c ix _ issued => c.has ix && decide (issued < 2 ^ 64)
  | .reqToIslandInReset _ _ => true
  | .discardToIslandInReset _ => true
  | .sequenceGap _ _ _ => true
  | .routerDeclaredFailed _ _ => true
  | .rerouteHoldExpiry _ => true
  | .pseudoChannelRetire _ _ _ => true
  | .structureRebuild _ => true
  | .frameReceive _ bytes ts _ _ _ => bytesOk bytes && decide (ts < 2 ^ 64)
  | .segmentAdmit _ => true
  | .tokenDispatch _ => true
  | .tokenBind _ => true
  | .tokenReissue _ => true
  | .commitMessage _ => true
  | .batchTimeoutDiscard _ => true
  | .effectApply _ _ => true
  | .effectResend _ => true
  | .lifetimeExpiry _ => true
  | .lifetimeSweep => true
  | .portHoldExpiry _ _ => true
  | .schedulerPick _ => true
  | .copySent _ ts _ => decide (ts < 2 ^ 64)
  | .prefetch _ => true
  | .pauseFrameReceived _ _ _ _ => true
  | .pauseExpiry _ _ => true
  | .pauseFrameSend _ => true
  | .pauseRepeat _ => true
  | .pfcStorm _ _ => true
  | .groupModeWrite _ _ => true
  | .portUp _ => true
  | .laneFaultDegrade _ _ => true
  | .degradeTimeout _ => true
  | .restore _ => true
  | .moduleInsertion _ _ => true
  | .signalDetect n k => hasLane n.val k.val
  | .lossOfSignal n k => hasLane n.val k.val
  | .adaptComplete n k => hasLane n.val k.val
  | .histReject n k => hasLane n.val k.val
  | .polarityAlternate n k => hasLane n.val k.val
  | .pcsLock n k => hasLane n.val k.val
  | .lockFail n k => hasLane n.val k.val
  | .historySave n k _ => hasLane n.val k.val
  | .laneCfgWrite n k _ => hasLane n.val k.val
  | .prbsEnable n k _ => hasLane n.val k.val
  | .prbsDisable n k => hasLane n.val k.val
  | .marginRefresh n k _ _ _ _ => hasLane n.val k.val
  | .eyeScan _ _ _ _ _ _ => true
  | .eyeScanComplete _ _ _ => true
  | .elEnable _ _ => true
  | .blockLock _ _ _ => true
  | .linkMap _ _ _ _ _ _ _ => true
  | .mapRetry _ => true
  | .linkDeskew _ _ => true
  | .qualCountdown _ => true
  | .qualWindowEnd _ _ _ _ _ => true
  | .linkActive _ => true
  | .qualFail _ => true
  | .failedRetry _ => true
  | .erruicMessageReceive _ b _ _ => bytesOk b
  | .creditBlockReceive _ b => bytesOk b
  | .acknReceive _ b => bytesOk b
  | .creditSend _ => true
  | .acknSend _ => true
  | .replayTimeout _ => true
  | .erruicLinkDown _ => true
  | .shaperEnable _ _ => true
  | .lookupRequest _ _ _ => true
  | .fillReturn _ => true
  | .walkComplete _ _ _ => true
  | .lookupUnitFault _ _ _ => true
  | .t1CfgWrite _ => true
  | .remoteRequest _ _ _ _ => true
  | .remoteResponse _ _ _ => true
  | .remoteTimeout _ => true
  | .insert _ _ plen prio arg => bytesOk arg && decide (plen < 256) && decide (prio < 2 ^ 20)
  | .modify _ _ _ plen prio arg => bytesOk arg && decide (plen < 256) && decide (prio < 2 ^ 20)
  | .delete _ _ plen prio arg => bytesOk arg && decide (plen < 256) && decide (prio < 2 ^ 20)
  | .read _ _ plen prio arg => bytesOk arg && decide (plen < 256) && decide (prio < 2 ^ 20)
  | .readHandle _ _ _ => true
  | .modifyHandle _ _ _ arg => bytesOk arg
  | .deleteHandle _ _ _ => true
  | .cntRead _ _ _ _ => true
  | .descCreate _ _ _ _ => true
  | .descDestroy _ _ => true
  | .descParam _ _ _ _ => true
  | .lookup _ _ arg => bytesOk arg
  | .bulkBatch _ recs _ _ => recs.all bytesOk
  | .bulkBatchTimeout _ _ => true
  | .agingVisit _ _ => true
  | .saCreate _ _ img _ => bytesOk img
  | .saDestroy _ _ _ => true
  | .saRetireComplete _ => true
  | .saRead _ _ _ => true
  | .keyLoadWrapped _ _ _ wrap _ => bytesOk wrap
  | .keyZero _ _ _ => true
  | .keyInfo _ _ _ => true
  | .cryptoVerdict _ _ _ => true
  | .connCfgWrite _ _ => true
  | .resyncArm _ _ => true
  | .cidFetchComplete _ _ => true
  | .rqDelivery _ => true
  | .rqBufferWaitExpiry _ => true
  | .perstAssert _ => true
  | .perstDeassert _ => true
  | .hotReset _ => true
  | .linkTrained _ _ _ _ _ => true
  | .detach _ => true
  | .hostHoldExpiry _ => true
  | .bmeClear _ => true
  | .bmeSet _ => true
  | .bmeHoldExpiry _ => true
  | .flrVf _ => true
  | .flrPf _ => true
  | .readCompletion _ _ _ _ data => bytesOk data
  | .completionTimeout _ => true
  | .vfEnable _ => true
  | .vfDisable _ => true
  | .atsInvalidate _ _ _ _ => true
  | .d3hotEntry _ => true
  | .ltrEnable _ => true
  | .heldLedgerWrite _ => true
  | .configRequest _ _ => true
  | .ledgerWrite _ => true
  | .warmLedgerTimeout => true
  | .queueEnable _ => true
  | .queueDisable _ => true
  | .queueStopped _ => true
  | .queueResume _ _ => true
  | .doorbellPi _ v _ => dbType v [0, 3]
  | .doorbellCq _ v _ => dbType v [1]
  | .doorbellEq _ v _ => dbType v [2]
  | .sliceVisit _ => true
  | .descriptorFetchComplete _ _ => true
  | .descriptorAccept _ => true
  | .payloadLoadComplete _ => true
  | .headWriteBack _ => true
  | .cqEnable _ _ => true
  | .eqEnable _ _ => true
  | .ledgerAck _ _ => true
  | .sliceFail _ _ => true
  | .burstGrant _ _ => true
  | .flush _ => true
  | .flushComplete _ => true
  | .abort _ => true
  | .channelStopped _ => true
  | .resume _ => true
  | .channelMove _ _ => true
  | .channelMoveComplete _ => true
  | .channelFail _ => true
  | .create _ _ _ _ => true
  | .enable _ _ => true
  | .reset _ _ _ => true
  | .remove _ _ => true
  | .drainEnd _ => true
  | .drainForced _ => true
  | .dirtyStart _ _ _ _ _ _ => true
  | .dirtySwap _ _ => true
  | .dirtySwapComplete _ => true
  | .dirtyStop _ _ => true
  | .freezeQuiesce _ _ _ => true
  | .quiesced _ => true
  | .freezeInPlace _ _ _ => true
  | .save _ _ _ _ => true
  | .thaw _ _ => true
  | .send _ _ => true
  | .cancel _ _ => true
  | .rxTake _ _ _ => true
  | .mailboxTimeout _ _ => true
  | .imageLoad _ _ _ _ data => bytesOk? data
  | .imageDrop _ _ _ => true
  | .slotBind _ _ _ _ _ _ map => bytesOk? map
  | .slotUnbind _ _ _ => true
  | .cfgSet _ _ _ v => bytesOk v
  | .cfgGet _ _ _ => true
  | .keyLoad _ _ _ _ key => bytesOk key
  | .kekLoad _ _ _ _ _ _ key => bytesOk key
  | .inject _ _ _ _ _ _ data => bytesOk? data
  | .fwInfo _ _ => true
  | .stewardCmdTimeout _ => true
  | .bar4Request _ _ _ _ => true
  | .eventRaise _ => true
  | .msixMessage _ _ => true
  | .faultMessage _ _ => true
  | .fatalAssert _ => true
  | .fatalSilent _ => true
  | .faultAck _ => true
  | .isolationClear _ => true
  | .logMemoryFailure => true
  | .operationHang _ _ => true
  | .stewardWatchdog => true
  | .droopFloor _ => true
  | .ceStorm _ _ _ _ => true
  | .dtbAlign _ => true
  | .helloSend _ => true
  | .helloReceive _ b => bytesOk b
  | .forwardedCopyArrival _ b => bytesOk b
  | .forwardAck _ _ _ => true
  | .refuseResend _ _ => true
  | .groupHoldExpiry st _ => decide (st < 2 ^ 48)
  | .groupCommit _ _ data => bytesOk? data
  | .groupLeave => true
  | .groupRejoin => true
  | .prepare _ _ _ _ enc => bytesOk enc
  | .ready _ _ => true
  | .commit _ => true
  | .commitApply => true
  | .groupAbort => true
  | .prepareTimeout => true
  | .preparedDiscard => true
  | .groupForm => true
  | .leaderLost => true
  | .selfFence => true
  | .fenceRecovery => true
  | .memberLost _ => true
  | .replicatedWrite _ => true
  | .replicatedApplyTimeout _ => true
  | .replicatedAgingReport _ _ _ _ => true
  | .beaconTransmit _ => true
  | .beaconReceive b at_ => bytesOk b && decide (at_ < 2 ^ 64)
  | .wakeReceive b at_ => bytesOk b && decide (at_ < 2 ^ 64)
  | .announceReceive b at_ => bytesOk b && decide (at_ < 2 ^ 64)
  | .wakeFrameSend _ _ _ => true
  | .slotTrim => true
  | .slotSilenced => true
  | .holdOverExpiry => true
  | .rendezvousWaitExpiry => true
  | .wakePulse => true
  | .mctpPacket _ => true
  | .reassemblyTimeout _ _ => true
  | .setEndpointId => true
  | .getEndpointId => true
  | .getEndpointUuid => true
  | .getMctpVersionSupport => true
  | .getMessageTypeSupport => true
  | .getVendorDefinedMessageSupport => true
  | .getMeasurements _ => true
  | .getCertificate _ => true
  | .challenge _ => true
  | .keyExchange _ => true
  | .identify => true
  | .health => true
  | .logRead => true
  | .moduleStatus => true
  | .moduleRead => true
  | .moduleWrite => true
  | .stewardCmd => true
  | .i2cTransaction _ _ => true
  | .arbitrationLost _ _ _ => true
  | .arbBackoffExpiry _ _ => true
  | .busTimeout _ _ => true
  | .busRecovery _ _ => true
  | .modulePoll _ => true
  | .voutCommand _ => true
  | .avsTelemetry _ => true
  | .modRead _ _ _ _ _ => true
  | .modWrite _ _ _ _ _ _ => true
  | .cocoonReq => true
  | .cocoonEntry _ => true
  | .cocoonWake _ => true
  | .pwrGoodAssert => true
  | .pwrGoodTimeout => true
  | .islandRelease _ => true
  | .pwrGoodFall => true
  | .porAssert => true
  | .porDeassert _ => true
  | .aonPowerLoss => true
  | .parkAutoWake => true
  | .clockLoss _ => true
  | .xtal32kRecover => true
  | .timeStep _ => true
  | .timeAdjWrite _ => true
  | .lockTimeout => true
  | .timeSteer => true
  | .dtbSync _ _ => true
  | .avsTargetUpdate _ => true
  | .warmReset _ _ => true
  | .warmRelease => true
  | .fuseSense _ ov _ => ov.all (fun x => fuseOk x.1 x.2.1 x.2.2.2 && decide (x.2.2.1 < 3))
  | .senseTimeout _ => true
  | .bootSelect _ => true
  | .bootWatchdog _ => true
  | .configApply settings => settings.all settingOk
  | .microcodeLoad => true
  | .portRelease => true
  | .chrysalisStart => true
  | .hbmTraining _ => true
  | .podLoad _ => true
  | .serviceSwitch => true
  | .retrainGroup _ _ _ => true
  | .retrainTimeout => true
  | .runEntry => true
  | .chrysalisForward _ => true
  | .program _ _ _ miss => miss.all (fun x => fuseOk x.1 x.2.1 x.2.2)
  | .lcAdvance _ miss => miss.all (fun x => fuseOk x.1 x.2.1 x.2.2)
  | .rollbackAdvance _ _ miss => miss.all (fun x => fuseOk x.1 x.2.1 x.2.2)
  | .jtagInstruction _ => true
  | .fwWrite _ _ _ _ _ data _ => bytesOk? data
  | .fwFinish _ _ _ => true
  | .fwCommit _ _ _ miss _ => miss.all (fun x => fuseOk x.1 x.2.1 x.2.2)
  | .fwAbort _ _ => true
  | .moultSet _ _ l => l.all (fun x => bytesOk? x.2.2.2.2)
  | .chryWrite _ _ _ _ data _ => bytesOk? data
  | .flashInfo _ _ => true
  | .autoCommit => true
  | .recordWrite _ => true
  | .logCompaction _ => true
  | .wearLedgerWrite _ => true
  | .moultSwitch _ => true
  | .moultRetired _ => true
  | .sample _ => true
  | .sampleTimeout => true
  | .singleConversion _ _ _ _ _ => true
  | .throttleApply => true
  | .coreCtlWrite _ _ _ => true
  | .quantumExpiry _ => true
  | .threadWake _ => true
  | .ticketComplete _ _ _ => true
  | .watchdog _ => true
  | .handlerDeadline _ => true
  | .slotHandlerWrite _ _ _ => true
  | .supervisorWrite _ _ => true
  | .supervisorHandover _ => true
  | .supervisorRestart _ => true
  | .parkRequest _ => true
  | .podParked _ => true
  | .parkCancel _ => true
  | .podWake _ => true
  | .podRun _ => true
  | .ngAdd _ _ _ _ _ _ => true
  | .ngSub _ _ _ _ _ _ => true
  | .ngAnd _ _ _ _ _ _ => true
  | .ngOr _ _ _ _ _ _ => true
  | .ngXor _ _ _ _ _ _ => true
  | .ngAndn _ _ _ _ _ _ => true
  | .ngShl _ _ _ _ _ _ => true
  | .ngShr _ _ _ _ _ _ => true
  | .ngSar _ _ _ _ _ _ => true
  | .ngRol _ _ _ _ _ _ => true
  | .ngMin _ _ _ _ _ _ => true
  | .ngMax _ _ _ _ _ _ => true
  | .ngMinu _ _ _ _ _ _ => true
  | .ngMaxu _ _ _ _ _ _ => true
  | .ngMul _ _ _ _ _ _ => true
  | .ngMulhu _ _ _ _ _ _ => true
  | .ngDivu _ _ _ _ _ _ => true
  | .ngRemu _ _ _ _ _ _ => true
  | .ngPrd _ _ _ => true
  | .ngPwr _ _ _ => true
  | .ngAddi _ _ _ _ _ => true
  | .ngAndi _ _ _ _ _ => true
  | .ngOri _ _ _ _ _ => true
  | .ngXori _ _ _ _ _ => true
  | .ngMovi _ _ _ _ => true
  | .ngMovhi _ _ _ _ _ => true
  | .ngShiShl _ _ _ _ _ _ => true
  | .ngShiShr _ _ _ _ _ _ => true
  | .ngShiSar _ _ _ _ _ _ => true
  | .ngShiRol _ _ _ _ _ _ => true
  | .ngCmp _ _ _ _ _ _ _ _ => true
  | .ngCmpi _ _ _ _ _ _ _ _ => true
  | .ngPlog _ _ _ _ _ _ => true
  | .ngExtu _ _ _ _ _ _ => true
  | .ngExts _ _ _ _ _ _ => true
  | .ngIns _ _ _ _ _ _ => true
  | .ngBswap16 _ _ _ _ _ => true
  | .ngBswap32 _ _ _ _ _ => true
  | .ngBswap64 _ _ _ _ => true
  | .ngClz _ _ _ _ _ => true
  | .ngCtz _ _ _ _ _ => true
  | .ngPopc _ _ _ _ _ => true
  | .ngCrc32cB _ _ _ _ _ => true
  | .ngCrc32cW _ _ _ _ _ => true
  | .ngCrc32cD _ _ _ _ _ => true
  | .ngCsadd _ _ _ _ _ => true
  | .ngCsfold _ _ _ _ _ => true
  | .ngSel _ _ _ _ _ _ _ => true
  | .ngBr _ _ _ => true
  | .ngCall _ _ _ => true
  | .ngJr _ _ _ _ _ => true
  | .ngLdl _ _ _ _ _ _ _ => true
  | .ngStl _ _ _ _ _ _ => true
  | .ngLdp _ _ _ _ _ _ _ => true
  | .ngLk _ _ _ _ _ _ => true
  | .ngLks _ _ _ _ _ _ => true
  | .ngLkc _ _ _ => true
  | .ngTrd _ _ _ _ _ _ => true
  | .ngReach _ _ _ _ _ => true
  | .ngHrd _ _ _ _ _ => true
  | .ngCsrrd _ _ _ _ _ _ => true
  | .ngTkst _ _ _ _ => true
  | .ngTkpeek _ _ _ _ => true
  | .ngTktest _ _ _ _ => true
  | .ngTkcan _ _ _ => true
  | .ngRddtb _ _ _ => true
  | .ngSettc _ _ _ => true
  | .ngRdtc _ _ _ => true
  | .ngWaitt _ _ _ _ => true
  | .ngHapp _ _ _ => true
  | .ngHclr _ _ => true
  | .ngHpop _ _ => true
  | .ngVerdict _ _ _ _ _ => true
  | .ngSaqry _ _ _ _ _ => true
  | .ngTwrInsert _ _ _ _ _ => true
  | .ngTwrModify _ _ _ _ _ => true
  | .ngTwrDelete _ _ _ _ => true
  | .ngCntaEntry _ _ _ _ _ => true
  | .ngCntaProg _ _ _ _ => true
  | .ngAtom _ _ _ _ => true
  | .ngEmit _ _ _ _ => true
  | .ngEmitEnd _ _ _ _ => true
  | .ngDisc _ _ _ => true
  | .ngDiscEnd _ _ _ => true
  | .ngDmawImmediate _ _ _ _ => true
  | .ngDmawRange _ _ _ => true
  | .ngMbxp _ _ _ _ => true
  | .ngCsrw _ _ _ _ _ => true
  | .ngSaup _ _ _ _ => true
  | .ngEvt _ _ _ => true
  | .ngEnd _ _ => true
  | .ngFnpop _ _ _ _ => true
  | .ngThctl _ _ _ _ => true
  | .ngSstd _ _ _ _ => true
  | .ngHretry _ _ => true
  | .ngHskip _ _ => true
  | .ngHdisc _ _ _ => true
  | .ngHesc _ _ => true
  | .ngRdfk _ _ _ => true
  | .migrationRestore _ _ _ _ img => bytesOk? img
  | .remoteFault _ _ => true
  | .pfcStormEnd _ _ => true
  | .timeDiverged => true
  | .gblLineAwake => true
  | .islandResetEnd _ => true
  | .ideKmMessage _ _ _ => true
  | .spdmSessionEnd _ => true
  | .latchedWake => true
  | .d0Entry _ => true

end Sys2Proof
end

