-- ==== Sys2Proof/Tests/Slice0.lean ====
section
/-!
SUPPORT. An ill-formed command for each check of WellFormed, which the check refuses, and tests of one step each against
values that the manual states: its worked cases and tables, or what follows from them by hand.
-/
namespace Sys2Proof.Tests
open Sys2Proof.Machine
set_option Elab.async false

/-! ### WellFormed refuses -/

theorem test_wf_byte : WellFormed (.frameReceive 0 [256] 0 false false false) = false := by decide +kernel
theorem test_wf_time : WellFormed (.frameReceive 0 [0] (2 ^ 64) false false false) = false := by decide +kernel
theorem test_wf_bytes_there : WellFormed (.imageLoad 0 0 0 1 (some [256])) = false := by decide +kernel
theorem test_wf_bytes_list : WellFormed (.moultSet 0 0 [(1, 2, 3, 4, some [256])]) = false := by decide +kernel
theorem test_wf_register : WellFormed (.registerWrite .steward (.reg .POD_CORE_CTL 256) 0 15 []) = false := by decide +kernel
theorem test_wf_window : WellFormed (.registerWrite .steward (.win .gw 0x404) 0 15 []) = false := by decide +kernel
theorem test_wf_counter : WellFormed (.counterUpdate .MGT_BUS_TMO 4 1 0) = false := by decide +kernel
theorem test_wf_lane : WellFormed (.histReject 0 8) = false := by decide +kernel
theorem test_wf_stamp : WellFormed (.groupHoldExpiry (2 ^ 48) 0) = false := by decide +kernel
theorem test_wf_plen : WellFormed (.insert 0 0 256 0 []) = false := by decide +kernel
theorem test_wf_priority : WellFormed (.delete 0 0 0 (2 ^ 20) []) = false := by decide +kernel
theorem test_wf_doorbell : WellFormed (.doorbellCq 0 0x20000 true) = false := by decide +kernel
theorem test_wf_setting : WellFormed (.configApply [(.MGT_MOD_MAP, 0, 2 ^ 40)]) = false := by decide +kernel
theorem test_wf_fuse : WellFormed (.program .pf0 8 [1] [(512, 0, 1)]) = false := by decide +kernel

/-- The command answers a next state whose device has this. -/
def tGives (d : Dev) (c : Instr) (p : Dev → Bool) : Bool :=
  match exec c (tSt d) with
  | .next t => p t.dev
  | _ => false

/-! ### NGL -/

/-- The constant of chapter 05: MOVI leaves the low half. -/
theorem test_movi : tGives (tNgl (tTh [])) (.ngMovi 1 tG 8 (.ext 0x89ABCDEF)) (fun e => (e.th 1).rg 8 == 0x89ABCDEF) = true := by
  decide +kernel
/-- And MOVHI completes it. -/
theorem test_movhi : tGives (tNgl (tTh [(8, 0x89ABCDEF)])) (.ngMovhi 1 tG 8 8 (.ext 0x01234567))
    (fun e => (e.th 1).rg 8 == 0x0123456789ABCDEF) = true := by decide +kernel
theorem test_add_wraps : tGives (tNgl (tTh [(1, 0xFFFFFFFFFFFFFFFF), (2, 1)])) (.ngAdd 1 tG false 1 1 2)
    (fun e => (e.th 1).rg 1 == 0 && (e.th 1).pc == 4) = true := by decide +kernel
theorem test_sar_sign : tGives (tNgl (tTh [(1, 0x8000000000000000), (2, 63)])) (.ngSar 1 tG false 3 1 2)
    (fun e => (e.th 1).rg 3 == 0xFFFFFFFFFFFFFFFF) = true := by decide +kernel
/-- Table 05-6: DIVU by 0 gives all ones; with W, 0x0000_0000_FFFF_FFFF. -/
theorem test_divu_by_zero : (tGives (tNgl (tTh [(1, 7)])) (.ngDivu 1 tG false 3 1 2) (fun e => (e.th 1).rg 3 == 0xFFFFFFFFFFFFFFFF) &&
    tGives (tNgl (tTh [(1, 7)])) (.ngDivu 1 tG true 3 1 2) (fun e => (e.th 1).rg 3 == 0xFFFFFFFF)) = true := by decide +kernel
/-- And REMU gives ra; with W, its low half. -/
theorem test_remu_by_zero : tGives (tNgl (tTh [(1, 0x500000007)])) (.ngRemu 1 tG true 3 1 2) (fun e => (e.th 1).rg 3 == 7) = true := by
  decide +kernel
/-- Table 05-8: CSFOLD folds by ones'-complement addition and does not invert. -/
theorem test_csfold : tGives (tNgl (tTh [(1, 0x00010000FFFF0001)])) (.ngCsfold 1 tG false 3 1) (fun e => (e.th 1).rg 3 == 2) = true := by
  decide +kernel
theorem test_bswap16 : tGives (tNgl (tTh [(1, 0xFFFF1234)])) (.ngBswap16 1 tG false 3 1) (fun e => (e.th 1).rg 3 == 0x3412) = true := by
  decide +kernel
/-- CRC32C of RFC 3720: 32 bytes of zeros give AA 36 91 8A (its Appendix B.4); here the first byte alone, by hand from the
reflected polynomial 0x82F6_3B78. -/
theorem test_crc32c_byte : tGives (tNgl (tTh [(1, 0), (2, 0x80)])) (.ngCrc32cB 1 tG 3 1 2) (fun e => (e.th 1).rg 3 == 0x82F63B78) = true := by
  decide +kernel
/-- R118: a bit field past bit 63 is ILLEGAL and writes nothing. -/
theorem test_extu_past_63 : tGives (tNgl (tTh [(1, 5)])) (.ngExtu 1 tG 3 1 32 32)
    (fun e => (e.th 1).st != .bound && (e.th 1).rg 3 == 0) = true := by decide +kernel
theorem test_ext_signed : tGives (tNgl (tTh [(1, 0x80)])) (.ngExts 1 tG 3 1 4 3) (fun e => (e.th 1).rg 3 == 0xFFFFFFFFFFFFFFF8) = true := by
  decide +kernel

/-! ### Faults (chapter 21, "Case: escalation to a halt") -/

/-- POD9's message: words 0 to 2 of its entry, FPSW, and INFO16 and INFO32 of event 0x561. -/
theorem test_pod9_entry : tGives { fc := { seq := 0x100 } } (.faultMessage (.detected 1 2 9 0 0x14A3C0 0) [])
    (fun e => match e.fc.log.cells with
      | [(_, some x)] => decide (x.bytes.take 12 = toLe 4 0x31020101 ++ toLe 4 0x4A3C0009 ++ toLe 4 1)
      | _ => false) = true := by decide +kernel
theorem test_pod9_event : tGives { fc := { seq := 0x100 } } (.faultMessage (.detected 1 2 9 0 0x14A3C0 0) [])
    (fun e => e.evq.any fun m => m.id == 0x561 && m.info16 == 0x4B && m.info32 == 0x20101) = true := by decide +kernel

/-! ### Descriptor fetch (chapter 15, "Case: two instances on one slice") -/

/-- Instances 40 and 44 with SQs 0x0500, 0x0501 and 0x0600, all backlogged, with the credits given. -/
def tTwo (i40 i44 q0 q1 q2 : Nat) (lastI lastQ : Option Nat) : Dev :=
  let f : Fn := { bme := true }
  let d : Dev := { hst := { live := [40, 44], fns := ⟨[(40, f), (44, f)]⟩,
                            insts := ⟨[(40, { credit := i40, lastQ := lastQ }), (44, { credit := i44 })]⟩,
                            lastInst := ⟨[(0, lastI)]⟩,
                            qs := ⟨[(0x500, { fetch := 984, credit := q0 }), (0x501, { credit := q1 }), (0x600, { credit := q2 })]⟩ } }
  let d := [(40, 0x500, 2, 48), (44, 0x600, 1, 16)].foldl (fun (d : Dev) x =>
    (((d.put F.INST_STATE_STATE x.1 3).put F.INST_RANGE_BASE (16 * x.1) x.2.1).put F.INST_RANGE_COUNT (16 * x.1) x.2.2.1).put F.QE_INST_ARB_WEIGHT
      x.1 x.2.2.2) d
  [(0x500, 32, 16, 984 + 512), (0x501, 16, 16, 512), (0x600, 255, 8, 512)].foldl (fun (d : Dev) x =>
    ((((d.put F.QE_QCTX_STATE_STATE x.1 1).put F.QE_QCTX_CFG_LOG2_SIZE x.1 10).put F.QE_QCTX_ARB_WEIGHT x.1 x.2.1).put F.QE_QCTX_ARB_BURST
      x.1 x.2.2.1).wr .QE_QCTX_PI x.1 x.2.2.2) d

/-- The credits of instances 40 and 44 and of the three queues. -/
def tCred (e : Dev) : List Nat := [(e.instX 40).credit, (e.instX 44).credit, (e.q 0x500).credit, (e.q 0x501).credit, (e.q 0x600).credit]

/-- Visit 1 of Table 15-14 begins round 1 and reads 984 to 999 of 0x0500; visit 6 finds no credit left, and round 2 begins before it. -/
theorem test_visit_1 : tGives (tTwo 0 0 0 0 0 none none) (.sliceVisit 0) (fun e => tCred e == [32, 16, 16, 16, 255] && (e.q 0x500).fetch == 1000) = true := by
  decide +kernel
theorem test_visit_6 : tGives (tTwo 0 0 0 0 239 (some 40) (some 0x500)) (.sliceVisit 0) (fun e => tCred e == [48, 8, 32, 16, 231]) = true := by
  decide +kernel

/-! ### Windows, counters, time -/

/-- R88: a RESULT_ACK of another SEQ is ignored with cause ACK_MISMATCH, and DONE stays. -/
theorem test_ack_mismatch : tGives (Dev.setWin {} .gw { st := 2, seq := 1 }) (.resultAck .gw 2) (fun e => (e.win .gw).st == 2) = true := by decide +kernel
theorem test_ack : tGives (Dev.setWin {} .gw { st := 2, seq := 1 }) (.resultAck .gw 1) (fun e => (e.win .gw).st == 0 && (e.win .gw).seq == 1) = true := by
  decide +kernel
/-- A step of the DTB applies 2 µs after the write (R539). -/
theorem test_time_step : tGives {} (.timeStep 500) (fun e => e.now == 2500) = true := by decide +kernel
/-- A step runs the command at the front and leaves the rest. -/
theorem test_step_front : (match step { tSt {} with pending := [.epochClose, .holdOverExpiry] } with
    | .next t => t.pending == [.holdOverExpiry]
    | _ => false) = true := by decide +kernel
/-- With nothing waiting a step answers too (notes/assumptions/5.md). -/
theorem test_step_idle : (match step State.reset with | .next t => t.pending.isEmpty | _ => false) = true := by decide +kernel

end Sys2Proof.Tests
end

section
/-!
SUPPORT. Counters: what a counter reads after an increment, by its class (R77, R78), and that nothing else is counted.
-/
namespace Sys2Proof.Machine

/-- Counters that read from the same table read alike. -/
theorem Dev.cnt_of_ctrs_eq {d e : Dev} (h : d.ctrs = e.ctrs) (c : Ctr) (i : Nat) : d.cnt c i = e.cnt c i :=
  congrArg (fun t : Tbl Nat => t.get (c.key i)) h

/-- A counter event changes no counter, whichever source of R448 it is raised on. -/
@[simp] theorem Dev.counterEvent_ctrs (d : Dev) (c : Ctr) (i : Nat) : (d.counterEvent c i).ctrs = d.ctrs := by
  unfold Dev.counterEvent
  cases c.event with
  | dev l => simp only [Dev.raiseLocal_ctrs]
  | inst id => simp only [apply_ite Dev.ctrs, Dev.raiseLocal_ctrs, Dev.raiseInst_ctrs, ite_self]
  | none => rfl

/-- The device in which a saturating counter has reached its maximum: it stands there, SAT is set and its event is raised (R78). -/
def Dev.saturated (d : Dev) (c : Ctr) (i : Nat) : Dev :=
  ((d.setCnt c i c.cls.max).put F.BLK_STATUS_SAT (c.place.header i) 1).counterEvent c i

theorem Dev.saturated_ctrs (d : Dev) (c : Ctr) (i : Nat) : (d.saturated c i).ctrs = (d.setCnt c i c.cls.max).ctrs := by
  simp only [Dev.saturated, Dev.counterEvent_ctrs, Dev.put_ctrs]

/-- An increment of a WRAP64 counter: its sum modulo 2^64, with WRAPPED where it passed the largest value. -/
theorem Dev.count_wrap64 (d : Dev) (c : Ctr) (i n : Nat) (h : c.cls = .wrap64) :
    d.count c i n =
      if d.cnt c i + n < 2 ^ 64 then d.setCnt c i ((d.cnt c i + n) % 2 ^ 64)
      else (d.setCnt c i ((d.cnt c i + n) % 2 ^ 64)).put F.BLK_STATUS_WRAPPED (c.place.header i) 1 := by
  simp only [Dev.count, h]

theorem Dev.count_gauge (d : Dev) (c : Ctr) (i n : Nat) (h : c.cls = .gauge) : d.count c i n = d.setCnt c i (d.cnt c i + n) := by
  simp only [Dev.count, h]

/-- An increment of a saturating counter: none at its maximum, the sum below it, and saturation from below. -/
theorem Dev.count_sat (d : Dev) (c : Ctr) (i n : Nat) (h : c.cls = .sat16 ∨ c.cls = .sat32) :
    d.count c i n =
      if d.cnt c i = c.cls.max then d
      else if d.cnt c i + n < c.cls.max then d.setCnt c i (d.cnt c i + n) else d.saturated c i := by
  rcases h with h | h <;> simp only [Dev.count, Dev.saturated, h]

/-- An increment writes the table of counters at its own element or not at all. -/
theorem Dev.count_ctrs (d : Dev) (c : Ctr) (i n : Nat) :
    (d.count c i n).ctrs = d.ctrs ∨ ∃ v, (d.count c i n).ctrs = (d.setCnt c i v).ctrs := by
  have hcls : c.cls = .wrap64 ∨ c.cls = .gauge ∨ (c.cls = .sat16 ∨ c.cls = .sat32) := by cases c.cls <;> simp
  rcases hcls with h | h | h
  · rw [d.count_wrap64 c i n h]
    split <;> exact .inr ⟨_, rfl⟩
  · exact .inr ⟨_, congrArg Dev.ctrs (d.count_gauge c i n h)⟩
  · rw [d.count_sat c i n h]
    split
    · exact .inl rfl
    · split
      · exact .inr ⟨_, rfl⟩
      · exact .inr ⟨_, d.saturated_ctrs c i⟩

/-- An increment leaves every other counter, and every other element of its own, alone. -/
theorem Dev.cnt_count_ne (d : Dev) (c c' : Ctr) (i j n : Nat) (h : c' ≠ c ∨ j ≠ i) : (d.count c i n).cnt c' j = d.cnt c' j := by
  rcases d.count_ctrs c i n with e | ⟨v, e⟩
  · exact Dev.cnt_of_ctrs_eq e c' j
  · exact (Dev.cnt_of_ctrs_eq e c' j).trans (d.cnt_setCnt_ne c c' i j v h)

theorem Dev.cnt_count_wrap64 (d : Dev) (c : Ctr) (i n : Nat) (h : c.cls = .wrap64) :
    (d.count c i n).cnt c i = (d.cnt c i + n) % 2 ^ 64 := by
  have e : (d.count c i n).ctrs = (d.setCnt c i ((d.cnt c i + n) % 2 ^ 64)).ctrs := by
    rw [d.count_wrap64 c i n h]
    split <;> rfl
  rw [Dev.cnt_of_ctrs_eq e, Dev.cnt_setCnt_same]

theorem Dev.cnt_count_sat (d : Dev) (c : Ctr) (i n : Nat) (h : c.cls = .sat16 ∨ c.cls = .sat32) :
    (d.count c i n).cnt c i = min c.cls.max (d.cnt c i + n) := by
  rw [d.count_sat c i n h]
  split
  case isTrue hmax => omega
  case isFalse =>
    split
    case isTrue hlt =>
      rw [Dev.cnt_setCnt_same]
      omega
    case isFalse hge =>
      rw [Dev.cnt_of_ctrs_eq (d.saturated_ctrs c i), Dev.cnt_setCnt_same]
      omega

/-- A saturating counter that software has set below its maximum saturates again. -/
theorem Dev.count_setCnt_saturates (d : Dev) (c : Ctr) (i n v : Nat) (h : c.cls = .sat16 ∨ c.cls = .sat32) (hv : v < c.cls.max)
    (hn : c.cls.max ≤ v + n) : (d.setCnt c i v).count c i n = (d.setCnt c i v).saturated c i := by
  rw [Dev.count_sat _ c i n h, Dev.cnt_setCnt_same, if_neg (by omega), if_neg (by omega)]

/-- Settles O60, by the three classes of counter that an increment distinguishes. -/
theorem countersSaturateOrWrap : Obligations.CountersSaturateOrWrap := by
  intro d c i n
  exact ⟨fun h _ => d.cnt_count_sat c i n h, d.cnt_count_wrap64 c i n, fun h v => d.count_setCnt_saturates c i n v h,
    fun c' j => d.cnt_count_ne c c' i j n⟩

end Sys2Proof.Machine
end

section
/-!
SUPPORT. A result window that is BUSY or DONE: every wrapper through which a command reaches a window ignores the command with cause
WINDOW_HELD, and RESULT_ACK releases a DONE window (R88).
-/
namespace Sys2Proof.Machine

/-! ### The wrappers of the window commands -/

section
variable {d : Dev}

/-- A table window keeps STATE when the write of its command is stored (R190). -/
@[simp] theorem Dev.tawStore_st (d : Dev) (w : Fin 5) (x : WCmd) : ((d.tawStore w x).win (.taw w)).st = (d.win (.taw w)).st := by
  simp only [Dev.tawStore, Dev.win_setWin_same]

/-- A command of a table window that is BUSY or DONE is ignored, TAW_CMD and TAW_ARG holding what was written (R88, R190). -/
theorem Dev.tawStore_submit_busy {t : Fin 5} (x : WCmd) (f : Dev → Dev) (hu : d.isUp 22 = true) (hh : d.halted = false)
    (hs : (d.win (.taw t)).st ≠ 0) :
    (if d.isUp 22 && !d.halted then d.tawStore t x else d).submit (.taw t) f = (d.tawStore t x).winIgnored (.taw t) 0x10 cWINDOW_HELD := by
  have hlive : (d.isUp 22 && !d.halted) = true := by rw [hu, hh]; rfl
  rw [if_pos hlive]
  exact Dev.submit_busy _ _ f hu hh (by rwa [Dev.tawStore_st])

/-- A management transaction of a length in range is submitted like any other (R519). -/
theorem Dev.twSubmit_busy {len top : Nat} (f : Dev → Dev) (h1 : 1 ≤ len) (h2 : len ≤ top) (hu : d.isUp 24 = true)
    (hh : d.halted = false) (hs : (d.win .tw).st ≠ 0) : d.twSubmit len top f = d.winIgnored .tw 0x10 cWINDOW_HELD := by
  rw [Dev.twSubmit, Dev.onIsland_up _ _ _ hu, if_neg (by omega)]
  exact Dev.submit_busy _ _ _ hu hh hs

/-- A source that reaches FUSE.PW submits to it (R563). -/
theorem Dev.pwSubmit_busy {src : PwSource} (f : Dev → Dev) (hr : d.pwReach src = true) (hu : d.isUp 24 = true)
    (hh : d.halted = false) (hs : (d.win .pw).st ≠ 0) : d.pwSubmit src f = d.winIgnored .pw 0x10 cWINDOW_HELD := by
  rw [Dev.pwSubmit, if_pos hr]
  exact Dev.submit_busy _ _ f hu hh hs

/-- A carried steward window that is BUSY or DONE ignores the command before the firmware sees it (R88, R440). -/
theorem Dev.steward_busy {m : Fin 16} (tmo : BitVec 14) (f : Dev → Dev) (hc : d.carried m = true) (hu : d.isUp 24 = true)
    (hh : d.halted = false) (hs : (d.win (.stm m)).st ≠ 0) : d.steward m tmo f = d.winIgnored (.stm m) 0x10 cWINDOW_HELD := by
  rw [Dev.steward, if_neg (by simp [hc])]
  exact Dev.submit_busy _ _ _ hu hh hs

end

/-! ### Commands on a held window -/

/-- The command is one that window `w` ignores with cause WINDOW_HELD while it is BUSY or DONE (R88). -/
def IgnoredWhileHeld (s : State) (w : WinId) (c : Instr) : Prop :=
  s.dev.isUp w.island = true → s.dev.halted = false → (s.dev.win w).st ≠ 0 → Does c s (s.dev.winIgnored w 0x10 cWINDOW_HELD)

/-- The command is one that table window `w` ignores while it is BUSY or DONE, keeping its fields `x` (R88, R190). -/
def StoredWhileHeld (s : State) (w : Fin 5) (x : WCmd) (c : Instr) : Prop :=
  s.dev.isUp 22 = true → s.dev.halted = false → (s.dev.win (.taw w)).st ≠ 0 →
    Does c s ((s.dev.tawStore w x).winIgnored (.taw w) 0x10 cWINDOW_HELD)

section
variable {s : State} {w : WinId} {c : Instr}

/-- A command that may wait for RUN, submitted to its window. -/
theorem ignoredWhileHeld_of_window {k : WinCmd} {f : Dev → Dev} (he : exec c s = s.window w k fun d => d.submit w f) :
    IgnoredWhileHeld s w c := fun hu hh hs => by
  rw [Does, he, State.window_busy _ _ _ _ hs, State.on_eq, Dev.submit_busy _ _ _ hu hh hs]

/-- A command submitted to its window at any time. -/
theorem ignoredWhileHeld_of_submit {f : Dev → Dev} (he : exec c s = s.on fun d => d.submit w f) : IgnoredWhileHeld s w c :=
  fun hu hh hs => by rw [Does, he, State.on_eq, Dev.submit_busy _ _ _ hu hh hs]

theorem ignoredWhileHeld_of_twSubmit {len top : Nat} {f : Dev → Dev} (h1 : 1 ≤ len) (h2 : len ≤ top)
    (he : exec c s = s.on fun d => d.twSubmit len top f) : IgnoredWhileHeld s .tw c :=
  fun hu hh hs => by rw [Does, he, State.on_eq, Dev.twSubmit_busy f h1 h2 hu hh hs]

theorem ignoredWhileHeld_of_pwSubmit {src : PwSource} {f : Dev → Dev} (hr : s.dev.pwReach src = true)
    (he : exec c s = s.on fun d => d.pwSubmit src f) : IgnoredWhileHeld s .pw c :=
  fun hu hh hs => by rw [Does, he, State.on_eq, Dev.pwSubmit_busy f hr hu hh hs]

theorem ignoredWhileHeld_of_steward {m : Fin 16} {tmo : BitVec 14} {f : Dev → Dev} (hc : s.dev.carried m = true)
    (he : exec c s = s.on fun d => d.steward m tmo f) : IgnoredWhileHeld s (.stm m) c :=
  fun hu hh hs => by rw [Does, he, State.on_eq, Dev.steward_busy tmo f hc hu hh hs]

/-- A command that may wait for RUN, written to a table window. -/
theorem storedWhileHeld_of_window {t : Fin 5} {x : WCmd} {k : WinCmd} {f : Dev → Dev}
    (he : exec c s = s.window (.taw t) k fun d => (if d.isUp 22 && !d.halted then d.tawStore t x else d).submit (.taw t) f) :
    StoredWhileHeld s t x c := fun hu hh hs => by
  rw [Does, he, State.window_busy _ _ _ _ hs, State.on_eq, Dev.tawStore_submit_busy x f hu hh hs]

end

/-! ### RESULT_ACK -/

section
variable {s : State} {w : WinId} {a : BitVec 16}

theorem does_resultAck_of_done (hu : s.dev.isUp w.island = true) (hh : s.dev.halted = false) (hst : (s.dev.win w).st = 2)
    (hseq : (s.dev.win w).seq = a.toNat) : Does (.resultAck w a) s (s.dev.setWin w { s.dev.win w with st := 0 }) := by
  simp [Does, execResultAck, Dev.onIsland_up, hu, hh, hst, hseq]

theorem does_resultAck_of_mismatch (hu : s.dev.isUp w.island = true) (hh : s.dev.halted = false)
    (hne : (s.dev.win w).st ≠ 2 ∨ (s.dev.win w).seq ≠ a.toNat) :
    Does (.resultAck w a) s (s.dev.winIgnored w 8 cACK_MISMATCH) := by
  have hno : ¬ ((s.dev.win w).st = 2 ∧ (s.dev.win w).seq = a.toNat) := fun ⟨h1, h2⟩ => hne.elim (· h1) (· h2)
  simp [Does, execResultAck, Dev.onIsland_up, hu, hh, hno]

end

/-! ### Each window's commands -/

section
variable (s : State)

theorem iwCommands_ignoredWhileHeld (p : Fin 4) f cold sh hold :
    IgnoredWhileHeld s (.iw p) (.create p f cold sh) ∧ IgnoredWhileHeld s (.iw p) (.enable p f) ∧
      IgnoredWhileHeld s (.iw p) (.reset p f hold) ∧ IgnoredWhileHeld s (.iw p) (.remove p f) :=
  ⟨ignoredWhileHeld_of_window Laws.exec_create, ignoredWhileHeld_of_window Laws.exec_enable,
    ignoredWhileHeld_of_window Laws.exec_reset, ignoredWhileHeld_of_window Laws.exec_remove⟩

theorem mwCommands_ignoredWhileHeld (p : Fin 4) f b0 b1 base lg kek addr size img :
    IgnoredWhileHeld s (.mw p) (.dirtyStart p f b0 b1 base lg) ∧ IgnoredWhileHeld s (.mw p) (.dirtySwap p f) ∧
      IgnoredWhileHeld s (.mw p) (.dirtyStop p f) ∧ IgnoredWhileHeld s (.mw p) (.freezeQuiesce p f kek) ∧
      IgnoredWhileHeld s (.mw p) (.freezeInPlace p f kek) ∧ IgnoredWhileHeld s (.mw p) (.thaw p f) ∧
      IgnoredWhileHeld s (.mw p) (.save p f addr size) ∧ IgnoredWhileHeld s (.mw p) (.migrationRestore p f kek size img) :=
  ⟨ignoredWhileHeld_of_window Laws.exec_dirtyStart, ignoredWhileHeld_of_window Laws.exec_dirtySwap,
    ignoredWhileHeld_of_window Laws.exec_dirtyStop, ignoredWhileHeld_of_window Laws.exec_freezeQuiesce,
    ignoredWhileHeld_of_window Laws.exec_freezeInPlace, ignoredWhileHeld_of_window Laws.exec_thaw,
    ignoredWhileHeld_of_window Laws.exec_save, ignoredWhileHeld_of_window Laws.exec_migrationRestore⟩

theorem cwCommands_ignoredWhileHeld (w : Fin 5) sa img ue slot kek wrap :
    IgnoredWhileHeld s (.cw w) (.saCreate w sa img ue) ∧ IgnoredWhileHeld s (.cw w) (.saDestroy w sa ue) ∧
      IgnoredWhileHeld s (.cw w) (.saRead w sa ue) ∧ IgnoredWhileHeld s (.cw w) (.keyLoadWrapped w slot kek wrap ue) ∧
      IgnoredWhileHeld s (.cw w) (.keyZero w slot ue) ∧ IgnoredWhileHeld s (.cw w) (.keyInfo w slot ue) :=
  ⟨ignoredWhileHeld_of_window Laws.exec_saCreate, ignoredWhileHeld_of_window Laws.exec_saDestroy,
    ignoredWhileHeld_of_window Laws.exec_saRead, ignoredWhileHeld_of_window Laws.exec_keyLoadWrapped,
    ignoredWhileHeld_of_window Laws.exec_keyZero, ignoredWhileHeld_of_window Laws.exec_keyInfo⟩

theorem gwCommands_ignoredWhileHeld off len data :
    IgnoredWhileHeld s .gw (.groupCommit off len data) ∧ IgnoredWhileHeld s .gw .groupLeave ∧ IgnoredWhileHeld s .gw .groupRejoin :=
  ⟨ignoredWhileHeld_of_window Laws.exec_groupCommit, ignoredWhileHeld_of_window Laws.exec_groupLeave,
    ignoredWhileHeld_of_window Laws.exec_groupRejoin⟩

theorem tawCommands_storedWhileHeld (w : Fin 5) (n : Fin 1024) plen prio arg rst clr (h img cap : BitVec 64) (age learn : BitVec 32) :
    StoredWhileHeld s w { opc := 1, n := n.val, plen := plen, prio := prio, arg := arg } (.insert w n plen prio arg) ∧
      StoredWhileHeld s w { opc := 2, n := n.val, rst := rst, plen := plen, prio := prio, arg := arg } (.modify w n rst plen prio arg) ∧
      StoredWhileHeld s w { opc := 3, n := n.val, plen := plen, prio := prio, arg := arg } (.delete w n plen prio arg) ∧
      StoredWhileHeld s w { opc := 4, n := n.val, plen := plen, prio := prio, arg := arg } (.read w n plen prio arg) ∧
      StoredWhileHeld s w { opc := 5, n := n.val, arg := toLe 8 h.toNat } (.readHandle w n h) ∧
      StoredWhileHeld s w { opc := 6, n := n.val, rst := rst, arg := arg } (.modifyHandle w n rst arg) ∧
      StoredWhileHeld s w { opc := 7, n := n.val, arg := toLe 8 h.toNat } (.deleteHandle w n h) ∧
      StoredWhileHeld s w { opc := 8, n := n.val, clr := clr, arg := toLe 8 h.toNat } (.cntRead w n clr h) ∧
      StoredWhileHeld s w { opc := 12, n := n.val, arg := arg } (.lookup w n arg) ∧
      StoredWhileHeld s w { opc := 9, n := n.val, arg := toLe 8 img.toNat ++ toLe 8 cap.toNat } (.descCreate w n img cap) ∧
      StoredWhileHeld s w { opc := 10, n := n.val } (.descDestroy w n) ∧
      StoredWhileHeld s w { opc := 11, n := n.val, arg := toLe 4 age.toNat ++ toLe 4 learn.toNat } (.descParam w n age learn) :=
  ⟨storedWhileHeld_of_window Laws.exec_insert, storedWhileHeld_of_window Laws.exec_modify,
    storedWhileHeld_of_window Laws.exec_delete, storedWhileHeld_of_window Laws.exec_read,
    storedWhileHeld_of_window Laws.exec_readHandle, storedWhileHeld_of_window Laws.exec_modifyHandle,
    storedWhileHeld_of_window Laws.exec_deleteHandle, storedWhileHeld_of_window Laws.exec_cntRead,
    storedWhileHeld_of_window Laws.exec_lookup, storedWhileHeld_of_window Laws.exec_descCreate,
    storedWhileHeld_of_window Laws.exec_descDestroy, storedWhileHeld_of_window Laws.exec_descParam⟩

theorem twCommands_ignoredWhileHeld m bank page off (len : BitVec 8) data (h : 1 ≤ len.toNat) :
    (len.toNat ≤ 128 → IgnoredWhileHeld s .tw (.modRead m bank page off len)) ∧
      (len.toNat ≤ 8 → IgnoredWhileHeld s .tw (.modWrite m bank page off len data)) :=
  ⟨fun h' => ignoredWhileHeld_of_twSubmit h h' Laws.exec_modRead, fun h' => ignoredWhileHeld_of_twSubmit h h' Laws.exec_modWrite⟩

theorem pwCommands_ignoredWhileHeld src word data miss t (h : s.dev.pwReach src = true) :
    IgnoredWhileHeld s .pw (.program src word data miss) ∧ IgnoredWhileHeld s .pw (.lcAdvance src miss) ∧
      IgnoredWhileHeld s .pw (.rollbackAdvance src t miss) :=
  ⟨ignoredWhileHeld_of_pwSubmit h Laws.exec_program, ignoredWhileHeld_of_pwSubmit h Laws.exec_lcAdvance,
    ignoredWhileHeld_of_pwSubmit h Laws.exec_rollbackAdvance⟩

theorem stmCommands_ignoredWhileHeld m tmo off len data id slot inst map l item v slotOff fq miss adv (h : s.dev.carried m = true) :
    IgnoredWhileHeld s (.stm m) (.imageLoad m tmo off len data) ∧ IgnoredWhileHeld s (.stm m) (.imageDrop m tmo id) ∧
      IgnoredWhileHeld s (.stm m) (.slotBind m tmo id slot inst off map) ∧ IgnoredWhileHeld s (.stm m) (.slotUnbind m tmo slot) ∧
      IgnoredWhileHeld s (.stm m) (.moultSet m tmo l) ∧ IgnoredWhileHeld s (.stm m) (.cfgSet m tmo item v) ∧
      IgnoredWhileHeld s (.stm m) (.cfgGet m tmo item) ∧ IgnoredWhileHeld s (.stm m) (.fwInfo m tmo) ∧
      IgnoredWhileHeld s (.stm m) (.fwWrite m tmo off len slotOff data fq) ∧ IgnoredWhileHeld s (.stm m) (.fwFinish m tmo fq) ∧
      IgnoredWhileHeld s (.stm m) (.fwCommit m tmo adv miss fq) ∧ IgnoredWhileHeld s (.stm m) (.fwAbort m tmo) ∧
      IgnoredWhileHeld s (.stm m) (.chryWrite m tmo off len data fq) ∧ IgnoredWhileHeld s (.stm m) (.flashInfo m tmo) :=
  ⟨ignoredWhileHeld_of_steward h Laws.exec_imageLoad, ignoredWhileHeld_of_steward h Laws.exec_imageDrop,
    ignoredWhileHeld_of_steward h Laws.exec_slotBind, ignoredWhileHeld_of_steward h Laws.exec_slotUnbind,
    ignoredWhileHeld_of_steward h Laws.exec_moultSet, ignoredWhileHeld_of_steward h Laws.exec_cfgSet,
    ignoredWhileHeld_of_steward h Laws.exec_cfgGet, ignoredWhileHeld_of_steward h Laws.exec_fwInfo,
    ignoredWhileHeld_of_steward h Laws.exec_fwWrite, ignoredWhileHeld_of_steward h Laws.exec_fwFinish,
    ignoredWhileHeld_of_steward h Laws.exec_fwCommit, ignoredWhileHeld_of_steward h Laws.exec_fwAbort,
    ignoredWhileHeld_of_steward h Laws.exec_chryWrite, ignoredWhileHeld_of_steward h Laws.exec_flashInfo⟩

theorem stmKeyAndInjectCommands_ignoredWhileHeld m tmo slot owner key kslot kowner exp klen off len islot inst data
    (h : s.dev.carried m = true) :
    IgnoredWhileHeld s (.stm m) (.keyLoad m tmo slot owner key) ∧
      IgnoredWhileHeld s (.stm m) (.kekLoad m tmo kslot kowner exp klen key) ∧
      IgnoredWhileHeld s (.stm m) (.inject m tmo off len islot inst data) :=
  ⟨ignoredWhileHeld_of_steward h Laws.exec_keyLoad, ignoredWhileHeld_of_steward h Laws.exec_kekLoad,
    ignoredWhileHeld_of_steward h Laws.exec_inject⟩

end

/-- Settles O53: each command's meaning is one of the submissions above, and RESULT_ACK releases or counts a mismatch. -/
theorem resultWindowsAreReleased : Obligations.ResultWindowsAreReleased := by
  intro s
  refine ⟨fun w a hu hh => ⟨fun hst hseq => ?done, does_resultAck_of_mismatch hu hh⟩,
    iwCommands_ignoredWhileHeld s, mwCommands_ignoredWhileHeld s, cwCommands_ignoredWhileHeld s, gwCommands_ignoredWhileHeld s,
    fun n lane eye h v dwell => ignoredWhileHeld_of_submit Laws.exec_eyeScan,
    fun ch gain osr chop count => ignoredWhileHeld_of_submit Laws.exec_singleConversion,
    twCommands_ignoredWhileHeld s, pwCommands_ignoredWhileHeld s, stmCommands_ignoredWhileHeld s,
    stmKeyAndInjectCommands_ignoredWhileHeld s, tawCommands_storedWhileHeld s⟩
  case done =>
    refine ⟨does_resultAck_of_done hu hh hst hseq, ?_, ?_⟩ <;> rw [Dev.win_setWin_same]

end Sys2Proof.Machine
end

section
/-!
SUPPORT. What every NGL instruction is: one issue, after which HRD alone starts its ticket's host read (R96); and what that makes of a
fetch at or beyond CODE_SIZE (R120).
-/
namespace Sys2Proof.Machine

/-! ### Every NGL instruction is an issue -/

/-- `F` issues one instruction of `len` bytes on thread `th` under the guard `g`, and does nothing else. -/
def Issuing (th : Fin 2048) (g : Guard) (len : Nat) (F : Dev → Dev) : Prop :=
  ∃ ill f, ∀ d : Dev, F d = d.issue th.val len g ill f

section
variable {th : Fin 2048} {g : Guard}

theorem issuing_alu1 {w : Bool} {rd ra : Fin 32} {f : Word → Word} {f32 : BitVec 32 → BitVec 32} :
    Issuing th g 4 fun d => d.alu1 th g w rd ra f f32 := by
  unfold Dev.alu1
  exact ⟨_, _, fun _ => rfl⟩

theorem issuing_crc {rd ra rb : Fin 32} {k : Nat} : Issuing th g 4 fun d => d.crc th g rd ra rb k := by
  unfold Dev.crc
  exact ⟨_, _, fun _ => rfl⟩

theorem issuing_lookupInsn {shadow : Bool} {tk : Fin 8} {tref : Fin 64} {ra rb : Fin 32} :
    Issuing th g 4 fun d => d.lookupInsn th g shadow tk tref ra rb := by
  unfold Dev.lookupInsn
  exact ⟨_, _, fun _ => rfl⟩

theorem issuing_tableWriteIns {op : Nat} {tref : Fin 64} {ra rb : Fin 32} :
    Issuing th g 4 fun d => d.tableWriteIns th g op tref ra rb := by
  unfold Dev.tableWriteIns
  exact ⟨_, _, fun _ => rfl⟩

theorem issuing_emitInsn {fin : Bool} {ra rb : Fin 32} : Issuing th g 4 fun d => d.emitInsn th g fin ra rb := by
  unfold Dev.emitInsn
  exact ⟨_, _, fun _ => rfl⟩

theorem issuing_discInsn {fin : Bool} {ra : Fin 32} : Issuing th g 4 fun d => d.discInsn th g fin ra := by
  unfold Dev.discInsn
  exact ⟨_, _, fun _ => rfl⟩

theorem issuing_resumeInsn {skip : Bool} : Issuing th g 4 fun d => d.resumeInsn th g skip := by
  unfold Dev.resumeInsn
  exact ⟨_, _, fun _ => rfl⟩

end

/-- What an instruction does once its issue is settled, however it was settled: HRD starts the host read that its ticket holds (R96). -/
def afterIssue : Instr → Dev → Dev
  | .ngHrd th _ tk _ _, d => d.startHrd th.val tk.val
  | _, d => d

/-- Each instruction issues on its own thread, with its own guard and length, and then does what follows its issue. The named cases are
the forms that share a meaning; the others issue directly. -/
theorem exec_issuing {c : Instr} {th : Fin 2048} {g : Guard} {len : Nat} (hc : c.issuer = some (th, g, len)) :
    ∃ F, Issuing th g len F ∧ ∀ s : State, exec c s = s.on fun d => afterIssue c (F d) := by
  cases c <;> simp only [Instr.issuer, Option.some.injEq, Prod.mk.injEq, reduceCtorEq] at hc <;> obtain ⟨rfl, rfl, rfl⟩ := hc <;>
    dsimp only [afterIssue]
  case ngBswap16 | ngBswap32 | ngBswap64 | ngClz | ngCtz | ngPopc | ngCsfold => exact ⟨_, issuing_alu1, fun _ => rfl⟩
  case ngCrc32cB | ngCrc32cW | ngCrc32cD => exact ⟨_, issuing_crc, fun _ => rfl⟩
  case ngLk | ngLks => exact ⟨_, issuing_lookupInsn, fun _ => rfl⟩
  case ngTwrInsert | ngTwrModify | ngTwrDelete => exact ⟨_, issuing_tableWriteIns, fun _ => rfl⟩
  case ngEmit | ngEmitEnd => exact ⟨_, issuing_emitInsn, fun _ => rfl⟩
  case ngDisc | ngDiscEnd => exact ⟨_, issuing_discInsn, fun _ => rfl⟩
  case ngHretry | ngHskip => exact ⟨_, issuing_resumeInsn, fun _ => rfl⟩
  all_goals exact ⟨fun d => d.issue _ _ _ _ _, ⟨_, _, fun _ => rfl⟩, fun _ => rfl⟩

/-- A command has one effect. -/
theorem does_unique {c : Instr} {s : State} {d e : Dev} (hd : Does c s d) (he : Does c s e) : d = e := by
  rw [Does, hd] at he
  injection he with h
  exact congrArg State.dev h

/-! ### A fetch at or beyond CODE_SIZE (R120) -/

/-- The fetch comes before the form, the guard and every other fault. -/
theorem Dev.issue_beyond_code (d : Dev) (th len : Nat) (g : Guard) (ill : Bool) (f : Dev → Thread → Iss) (h1 : d.canIssue th = true)
    (h2 : (d.th th).code ≤ (d.th th).pc) : d.issue th len g ill f = d.trap th kBRANCH (d.th th).pc len := by
  rw [Dev.issue_eq, if_pos h1, if_pos h2]

/-- BRANCH is raised at the fetched offset, whatever the instruction, and what follows the instruction's issue still comes after it. -/
theorem does_afterIssue_of_fetch_beyond_code {s : State} {c : Instr} {th : Fin 2048} {g : Guard} {len : Nat}
    (hc : c.issuer = some (th, g, len)) (h1 : s.dev.canIssue th.val = true) (h2 : (s.dev.th th.val).code ≤ (s.dev.th th.val).pc) :
    Does c s (afterIssue c (s.dev.trap th.val kBRANCH (s.dev.th th.val).pc len)) := by
  obtain ⟨F, ⟨ill, f, hF⟩, hexec⟩ := exec_issuing hc
  rw [Does, hexec, State.on_eq, hF, Dev.issue_beyond_code _ _ _ _ _ _ h1 h2]

/-! ### The host read that outlives the fault -/

/-- Pod 0's supervisor at the end of its code, its ticket 0 PENDING with an HRD that has not been sent. -/
def unsentHrdAtCodeEnd : Dev :=
  { ths := ⟨[(0, { st := .bound, tks := ⟨[(0, { st := 1, req := .hrd 0 0 8 0 })]⟩ })]⟩ }

theorem unsentHrdAtCodeEnd_fetches_beyond_code :
    unsentHrdAtCodeEnd.canIssue 0 = true ∧ (unsentHrdAtCodeEnd.th 0).code ≤ (unsentHrdAtCodeEnd.th 0).pc := by decide +kernel

/-- The fault alone leaves the ticket's request unsent; the HRD starts it, and the ticket keeps the number 1. -/
theorem unsentHrdAtCodeEnd_sent :
    let d := unsentHrdAtCodeEnd.trap 0 kBRANCH (unsentHrdAtCodeEnd.th 0).pc 4
    ((d.th 0).tk 0).sent = 0 ∧ (((afterIssue (.ngHrd 0 ⟨0, false⟩ 0 0 0) d).th 0).tk 0).sent = 1 := by decide +kernel

/-- Refutes O55: HRD starts its ticket's host read even when its fetch raises BRANCH, so in a state whose ticket holds an HRD not yet
sent the effect is more than the fault. By `does_afterIssue_of_fetch_beyond_code` HRD is the only instruction that adds to the fault. -/
theorem not_fetchBeyondCodeRaisesBranch : ¬ Obligations.FetchBeyondCodeRaisesBranch := by
  intro h
  obtain ⟨hissue, hbeyond⟩ := unsentHrdAtCodeEnd_fetches_beyond_code
  obtain ⟨hunsent, hsent⟩ := unsentHrdAtCodeEnd_sent
  have hclaim := h { dev := unsentHrdAtCodeEnd } (.ngHrd 0 ⟨0, false⟩ 0 0 0) 0 ⟨0, false⟩ 4 rfl hissue hbeyond
  have hmodel := does_afterIssue_of_fetch_beyond_code (s := { dev := unsentHrdAtCodeEnd }) (c := .ngHrd 0 ⟨0, false⟩ 0 0 0) rfl
    hissue hbeyond
  have hsame := congrArg (fun d : Dev => ((d.th 0).tk 0).sent) (does_unique hmodel hclaim)
  exact absurd (hsent.symm.trans (hsame.trans hunsent)) (by decide)

end Sys2Proof.Machine
end

section
/-!
SUPPORT. The acknowledgement of a fault: the log entry that a SEQ names, what its acknowledgement writes and what it leaves (R471).
-/
namespace Sys2Proof.Machine

/-- The first unacknowledged entry that holds `seq`, with its slot. -/
def Fcol.unackedOf (x : Fcol) (seq : Nat) : Option (Nat × Option LogEntry) :=
  x.log.cells.find? fun c => match c.2 with | some e => !e.acked && e.seq == seq | none => false

/-- ACKED is set in the entry `e` of `slot`. -/
def Dev.setAcked (d : Dev) (slot : Nat) (e : Option LogEntry) : Dev :=
  { d with fc := { d.fc with log := d.fc.log.set slot (e.map fun e => { e with acked := true }) } }

/-- UNACKED follows the log. -/
def Dev.updateUnacked (d : Dev) : Dev := d.put F.FCOL_STATUS_UNACKED 0 d.fc.open_.length

/-- LOG_FULL is cleared where the slot acknowledged is the one that is written next. -/
def Dev.freeLogSlot (d : Dev) (slot : Nat) : Dev :=
  if slot = d.get F.FCOL_LOG_PI_PI % 256 then d.put F.FCOL_STATUS_LOG_FULL 0 0 else d

theorem Dev.ackFault_eq (d : Dev) (seq : Nat) : d.ackFault seq = match d.fc.unackedOf seq with
    | none => d.ignored .FCOL_ACK 0 cACK_MISMATCH
    | some (slot, e) => (d.setAcked slot e).updateUnacked.freeLogSlot slot := rfl

theorem Dev.ackFault_of_unacked {d : Dev} {seq slot : Nat} {e : Option LogEntry} (h : d.fc.unackedOf seq = some (slot, e)) :
    d.ackFault seq = (d.setAcked slot e).updateUnacked.freeLogSlot slot := by rw [Dev.ackFault_eq, h]

theorem Dev.ackFault_of_not_held {d : Dev} {seq : Nat} (h : d.fc.unackedOf seq = none) :
    d.ackFault seq = d.ignored .FCOL_ACK 0 cACK_MISMATCH := by rw [Dev.ackFault_eq, h]

@[simp] theorem Dev.setAcked_log (d : Dev) (slot : Nat) (e : LogEntry) :
    (d.setAcked slot (some e)).fc.log = d.fc.log.set slot (some { e with acked := true }) := rfl

@[simp] theorem Dev.setAcked_rd (d : Dev) (slot : Nat) (e : Option LogEntry) (r : Reg) (i : Nat) :
    (d.setAcked slot e).rd r i = d.rd r i := rfl

@[simp] theorem Dev.updateUnacked_fc (d : Dev) : d.updateUnacked.fc = d.fc := rfl

theorem Dev.updateUnacked_rd_ne (d : Dev) (r : Reg) (i : Nat) (h : r ≠ .FCOL_STATUS) : d.updateUnacked.rd r i = d.rd r i :=
  Dev.rd_put_ne d F.FCOL_STATUS_UNACKED r 0 i _ (.inl h)

@[simp] theorem Dev.freeLogSlot_fc (d : Dev) (slot : Nat) : (d.freeLogSlot slot).fc = d.fc := by
  simp only [Dev.freeLogSlot, apply_ite Dev.fc, Dev.put_fc, ite_self]

theorem Dev.freeLogSlot_rd_ne (d : Dev) (slot : Nat) (r : Reg) (i : Nat) (h : r ≠ .FCOL_STATUS) :
    (d.freeLogSlot slot).rd r i = d.rd r i := by
  unfold Dev.freeLogSlot
  split
  · exact Dev.rd_put_ne d F.FCOL_STATUS_LOG_FULL r 0 i _ (.inl h)
  · rfl

/-- The log after an acknowledgement: its only write is the entry that held the SEQ. -/
theorem Dev.ackFault_log {d : Dev} {seq slot : Nat} {e : LogEntry} (h : d.fc.unackedOf seq = some (slot, some e)) :
    (d.ackFault seq).fc.log = d.fc.log.set slot (some { e with acked := true }) := by
  rw [Dev.ackFault_of_unacked h, Dev.freeLogSlot_fc, Dev.updateUnacked_fc, Dev.setAcked_log]

/-- Of the registers an acknowledgement writes FCOL.STATUS only. -/
theorem Dev.ackFault_rd_ne {d : Dev} {seq slot : Nat} {e : Option LogEntry} (h : d.fc.unackedOf seq = some (slot, e)) (r : Reg)
    (i : Nat) (hr : r ≠ .FCOL_STATUS) : (d.ackFault seq).rd r i = d.rd r i := by
  rw [Dev.ackFault_of_unacked h, Dev.freeLogSlot_rd_ne _ _ _ _ hr, Dev.updateUnacked_rd_ne _ _ _ hr, Dev.setAcked_rd]

theorem does_faultAck {s : State} (seq : BitVec 16) (h : s.dev.isUp 25 = true) :
    Does (.faultAck seq) s (s.dev.ackFault seq.toNat) := by
  rw [Does, Laws.exec_faultAck, execFaultAck, State.on_eq, Dev.onIsland_up _ _ _ h]

/-- Settles O54: the entry acknowledged is the only write of the log, and FPSW is not the register that an acknowledgement writes. -/
theorem faultAcknowledgementSetsAcked : Obligations.FaultAcknowledgementSetsAcked := by
  intro s seq hup
  have hack := does_faultAck seq hup
  refine ⟨fun slot e hheld => ⟨s.dev.ackFault seq.toNat, hack, ?acked, fun j hj => ?others, ?fpsw⟩, fun hnone => ?mismatch⟩
  case acked => rw [Dev.ackFault_log hheld, Tbl.get_set_same]
  case others => rw [Dev.ackFault_log hheld, Tbl.get_set_ne _ _ _ _ hj]
  case fpsw => exact Dev.ackFault_rd_ne hheld _ _ (by decide)
  case mismatch => exact Dev.ackFault_of_not_held hnone ▸ hack

end Sys2Proof.Machine
end

section
/-!
SUPPORT. What a step can do: a command acts on the device or is a window command that may be held for RUN, and so every step answers
(notes/assumptions/5.md) and keeps what it holds for RUN in order (R86).
-/
namespace Sys2Proof.Machine

/-! ### What a command and a held command do -/

/-- A command acts on the device alone, or it is a command of a window, which may hold it for RUN. -/
theorem exec_does_or_window (c : Instr) (s : State) :
    (∃ d, Does c s d) ∨ ∃ w k f, exec c s = s.window w k f ∧ k.window = w := by
  cases c
  case dirtyStart | dirtySwap | dirtyStop | freezeQuiesce | freezeInPlace | thaw | save | migrationRestore | groupCommit | groupLeave |
      groupRejoin | saCreate | saDestroy | saRead | keyLoadWrapped | keyZero | keyInfo | insert | modify | delete | read | readHandle |
      modifyHandle | deleteHandle | cntRead | lookup | descCreate | descDestroy | descParam | create | enable | reset | remove =>
    exact .inr ⟨_, _, _, rfl, rfl⟩
  all_goals exact .inl ⟨_, rfl⟩

/-- A window command that was held runs as the command that it is. -/
theorem runLate_window (k : WinCmd) (s : State) : ∃ f, runLate k s = s.window k.window k f := by
  cases k <;> exact ⟨_, rfl⟩

theorem exec_keeps (c : Instr) (s : State) : ∃ d l, exec c s = .next { dev := d, pending := s.pending, deferred := l } := by
  rcases exec_does_or_window c s with ⟨d, h⟩ | ⟨w, k, f, h, -⟩
  · exact ⟨d, s.deferred, h⟩
  · exact h ▸ s.window_keeps w k f

/-! ### What a step does -/

theorem step_of_cons {s : State} {c : Instr} {rest : List Instr} (h : s.pending = c :: rest) :
    step s = exec c { s with pending := rest } := by
  simp only [step, h]

theorem step_of_idle {s : State} (hp : s.pending = []) (hd : s.deferred = []) : step s = .next { s with dev := s.dev.tick } := by
  simp only [step, hp, State.due, hd, State.idle]

/-- The state in which the first held command runs: its window is IDLE until it takes the command again. -/
def State.released (s : State) (w : WinId) (l : List (WinId × WinCmd)) : State :=
  { s with dev := s.dev.setWin w { s.dev.win w with st := 0 }, deferred := l }

/-- With nothing waiting, the first command held for RUN runs or nothing does. -/
theorem step_of_nil {s : State} (h : s.pending = []) :
    (∃ w k l, s.deferred = (w, k) :: l ∧ step s = runLate k (s.released w l)) ∨ step s = .next s.idle := by
  obtain ⟨d, pending, deferred⟩ := s
  cases h
  cases deferred with
  | nil => exact .inr rfl
  | cons x l =>
    obtain ⟨w, k⟩ := x
    by_cases hdue : 12 ≤ d.stw.start.step ∧ ¬ d.halted ∧ (d.win w).st = 1
    · exact .inl ⟨w, k, l, rfl, by simp only [step, State.due, if_pos hdue, State.released]⟩
    · exact .inr (by simp only [step, State.due, if_neg hdue])

theorem step_safe (s : State) : Safe s := by
  cases h : s.pending with
  | nil =>
    rcases step_of_nil h with ⟨w, k, l, -, e⟩ | e
    · obtain ⟨f, he⟩ := runLate_window k (s.released w l)
      obtain ⟨d, l', hk⟩ := (s.released w l).window_keeps k.window k f
      exact ⟨_, e.trans (he.trans hk)⟩
    · exact ⟨_, e⟩
  | cons c rest =>
    obtain ⟨d, l, e⟩ := exec_keeps c { s with pending := rest }
    exact ⟨_, (step_of_cons h).trans e⟩

/-- Settles O1: a step on a queue that is not empty is its front command on the rest. -/
theorem stepRunsFront : Obligations.StepRunsFront := fun _ _ _ => step_of_cons

/-- Settles O57: a command, a held command and an idle step each answer a next state. -/
theorem everyStepAnswers : Obligations.EveryStepAnswers := ⟨exec_keeps, step_safe, fun _ => step_of_idle⟩

/-! ### What is held for RUN -/

theorem exec_heldOk {c : Instr} {s t : State} (h : s.heldOk) (e : exec c s = .next t) : t.heldOk := by
  rcases exec_does_or_window c s with ⟨d, hd⟩ | ⟨w, k, f, hw, hk⟩
  · cases hd.symm.trans e
    exact h
  · exact s.window_heldOk t w k f h hk (hw ▸ e)

theorem runLate_heldOk {k : WinCmd} {s t : State} (h : s.heldOk) (e : runLate k s = .next t) : t.heldOk := by
  obtain ⟨f, he⟩ := runLate_window k s
  exact s.window_heldOk t k.window k f h rfl (he ▸ e)

/-- The commands behind the first one held are in order without it. -/
theorem heldOk_of_cons {s : State} {x : WinId × WinCmd} {l : List (WinId × WinCmd)} (h : s.heldOk) (hd : s.deferred = x :: l) (d : Dev) :
    State.heldOk { s with dev := d, deferred := l } := by
  obtain ⟨hnodup, hown⟩ := h
  rw [hd] at hnodup hown
  exact ⟨(List.nodup_cons.1 hnodup).2, fun y hy => hown y (List.mem_cons_of_mem x hy)⟩

theorem idle_heldOk {s : State} (h : s.heldOk) : s.idle.heldOk := by
  unfold State.idle
  split
  case h_1 => exact h
  case h_2 w k l hd =>
    split
    · exact h
    · exact heldOk_of_cons h hd s.dev

/-- Settles O58: what is held is in order behind its first command, and a window that takes a command holds no other. -/
theorem windowsHoldOneCommandEach : Obligations.WindowsHoldOneCommandEach := by
  intro s t h e
  cases hp : s.pending with
  | nil =>
    rcases step_of_nil hp with ⟨w, k, l, hd, hrun⟩ | hidle
    · exact runLate_heldOk (heldOk_of_cons h hd _) (hrun.symm.trans e)
    · cases hidle.symm.trans e
      exact idle_heldOk h
  | cons c rest => exact exec_heldOk (s := { s with pending := rest }) h ((step_of_cons hp).symm.trans e)

/-! ### The state after reset -/

/-- After reset a register reads its Reset column. -/
theorem State.reset_rd (r : Reg) (i : Nat) : State.reset.dev.rd r i = r.reset i := rfl

theorem State.reset_isUp (n : Nat) : State.reset.dev.isUp n = true := by
  simp only [Dev.isUp, bit, State.reset, Nat.zero_testBit, Bool.not_false]

/-- Settles O59: nothing is listed in the sparse state after reset, so every element reads its default. -/
theorem resetStateIsAsStated : Obligations.ResetStateIsAsStated := by
  refine ⟨⟨List.nodup_nil, fun _ hx => absurd hx List.not_mem_nil⟩, rfl, State.reset_rd, fun _ _ => rfl, fun _ => ⟨rfl, rfl⟩, rfl, rfl,
    State.reset_isUp, ?_, ?_, fun m => ?_, ?_⟩
  · decide +kernel
  · decide +kernel
  · have hcfg : State.reset.dev.rd .MBX_TX_CFG m = 0xC8 := rfl
    exact (congrArg (fun v => bits v F.MBX_TX_CFG_TMO_MS.lo F.MBX_TX_CFG_TMO_MS.w) hcfg).trans (by decide)
  · decide +kernel

end Sys2Proof.Machine
end

section
/-!
SUPPORT. What an instruction does once it issues with its guard holding (R116, R121), and the instructions that only compute: each
writes one register or predicate of its thread (R125 to R130).
-/
namespace Sys2Proof.Machine

/-! ### An issue whose guard holds -/

section
variable {s : State} {th : Fin 2048} {g : Guard} {c : Instr} {len : Nat} {ill : Bool} {f : Dev → Thread → Iss}

/-- A legal instruction that issues with its guard holding does what its answer says, on the thread with its pc past it. -/
theorem does_issue (h : s.dev.Issues th g) (he : exec c s = s.on fun d => d.issue th.val len g ill f) (hi : ill = false) :
    Does c s (s.dev.answered th.val len (f s.dev (s.dev.past th len))) := by
  obtain ⟨hissue, hpc, hguard⟩ := h
  rw [Does, he, State.on_eq, hi, Dev.issue_holds _ _ _ _ _ hissue hpc hguard]
  rfl

/-- One that settles its thread leaves the device as it stands. -/
theorem does_issue_done {e : Dev} (h : s.dev.Issues th g) (he : exec c s = s.on fun d => d.issue th.val len g ill f) (hi : ill = false)
    (hf : f s.dev (s.dev.past th len) = .done e) : Does c s e := by
  have hdoes := does_issue h he hi
  rwa [hf] at hdoes

/-- One that completes stores its thread in the device that it answers. -/
theorem does_issue_ok {e : Dev} {t : Thread} (h : s.dev.Issues th g) (he : exec c s = s.on fun d => d.issue th.val len g ill f)
    (hi : ill = false) (hf : f s.dev (s.dev.past th len) = .ok t e) : Does c s (e.setTh th.val t) := by
  have hdoes := does_issue h he hi
  rwa [hf] at hdoes

/-- One that completes on the device as it is leaves its thread as it answers. -/
theorem leavesThread_issue {t : Thread} (h : s.dev.Issues th g) (he : exec c s = s.on fun d => d.issue th.val len g ill f)
    (hi : ill = false) (hf : f s.dev (s.dev.past th len) = .ok t s.dev) : LeavesThread c s th t := does_issue_ok h he hi hf

end

/-! ### ALU operations at their width (R125, Table 05-5) -/

section
variable {s : State} {th : Fin 2048} {g : Guard} {c : Instr} {w : Bool} {rd ra rb : Fin 32}

theorem leavesThread_alu {f : Word → Word → Word} {f32 : BitVec 32 → BitVec 32 → BitVec 32} {v : Word} (h : s.dev.Issues th g)
    (he : exec c s = s.on fun d => d.alu th g w rd ra rb f f32)
    (hv : (if w then (f32 (((s.dev.past th 4).rg ra).setWidth 32) (((s.dev.past th 4).rg rb).setWidth 32)).setWidth 64
      else f ((s.dev.past th 4).rg ra) ((s.dev.past th 4).rg rb)) = v) :
    LeavesThread c s th ((s.dev.past th 4).wg rd v) :=
  leavesThread_issue h he rfl (by rw [← hv])

/-- An operation that is the same at both widths is computed at the width that W names. -/
theorem leavesThread_atWidth {F : (n : Nat) → BitVec n → BitVec n → BitVec n} (op : (n : Nat) → BitVec n → BitVec n → BitVec n)
    (h : s.dev.Issues th g) (he : exec c s = s.on fun d => d.alu th g w rd ra rb (op 64) (op 32))
    (hop : ∀ n x y, op n x y = F n x y) :
    LeavesThread c s th ((s.dev.past th 4).wg rd (atWidth w F ((s.dev.past th 4).rg ra) ((s.dev.past th 4).rg rb))) :=
  leavesThread_alu h he (by simp only [hop, atWidth])

end

section
variable {n : Nat} (x y : BitVec n) (k : Nat)

theorem add_eq_ofNat : x + y = BitVec.ofNat n (x.toNat + y.toNat) := by simp [BitVec.ofNat_add]

theorem sub_eq_ofInt : x - y = BitVec.ofInt n ((x.toNat : Int) - y.toNat) := by
  rw [Int.sub_eq_add_neg, BitVec.ofInt_add, BitVec.ofInt_neg, BitVec.ofInt_natCast, BitVec.ofInt_natCast, ← BitVec.sub_eq_add_neg]
  simp only [BitVec.ofNat_toNat, BitVec.setWidth_eq]

theorem mul_eq_ofNat : x * y = BitVec.ofNat n (x.toNat * y.toNat) := by simp [BitVec.ofNat_mul]

theorem shiftLeft_eq_ofNat : x <<< k = BitVec.ofNat n (x.toNat * 2 ^ k) :=
  BitVec.eq_of_toNat_eq (by rw [BitVec.toNat_shiftLeft, BitVec.toNat_ofNat, Nat.shiftLeft_eq])

theorem ushiftRight_eq_ofNat : x >>> k = BitVec.ofNat n (x.toNat / 2 ^ k) := by
  apply BitVec.eq_of_toNat_eq
  rw [BitVec.toNat_ushiftRight, BitVec.toNat_ofNat, Nat.shiftRight_eq_div_pow]
  exact (Nat.mod_eq_of_lt (Nat.lt_of_le_of_lt (Nat.div_le_self _ _) x.isLt)).symm

theorem sshiftRight_eq_ofInt : x.sshiftRight k = BitVec.ofInt n (x.toInt / 2 ^ k) := by
  rw [BitVec.sshiftRight, Int.shiftRight_eq_div_pow]
  norm_cast

theorem udiv_eq_ofNat : x / y = BitVec.ofNat n (x.toNat / y.toNat) := by
  apply BitVec.eq_of_toNat_eq
  rw [BitVec.toNat_udiv, BitVec.toNat_ofNat]
  exact (Nat.mod_eq_of_lt (Nat.lt_of_le_of_lt (Nat.div_le_self _ _) x.isLt)).symm

theorem umod_eq_ofNat : x % y = BitVec.ofNat n (x.toNat % y.toNat) := by
  apply BitVec.eq_of_toNat_eq
  rw [BitVec.toNat_umod, BitVec.toNat_ofNat]
  exact (Nat.mod_eq_of_lt (Nat.lt_of_le_of_lt (Nat.mod_le _ _) x.isLt)).symm

theorem allOnes_eq_ofNat : BitVec.allOnes n = BitVec.ofNat n (2 ^ n - 1) := by
  apply BitVec.eq_of_toNat_eq
  rw [BitVec.toNat_allOnes, BitVec.toNat_ofNat, Nat.mod_eq_of_lt (Nat.sub_one_lt (Nat.ne_of_gt (Nat.two_pow_pos n)))]

theorem eq_zero_iff_toNat : y = 0 ↔ y.toNat = 0 := by
  rw [BitVec.toNat_eq]
  simp

end

/-- Settles O2: each operation of Table 05-5 is one operation of every width. -/
theorem aluInstructionsWriteTheirResult : Obligations.AluInstructionsWriteTheirResult := by
  intro s th g w rd ra rb h
  refine ⟨?add, ?sub, ?and, ?or, ?xor, ?andn, ?shl, ?shr, ?sar, ?rol, ?min, ?max, ?minu, ?maxu, ?mul, ?mulhu, ?divu, ?remu⟩
  case add => exact leavesThread_atWidth (fun _ a b => a + b) h Laws.exec_ngAdd fun _ => add_eq_ofNat
  case sub => exact leavesThread_atWidth (fun _ a b => a - b) h Laws.exec_ngSub fun _ => sub_eq_ofInt
  case and => exact leavesThread_atWidth (fun _ a b => a &&& b) h Laws.exec_ngAnd fun _ _ _ => rfl
  case or => exact leavesThread_atWidth (fun _ a b => a ||| b) h Laws.exec_ngOr fun _ _ _ => rfl
  case xor => exact leavesThread_atWidth (fun _ a b => a ^^^ b) h Laws.exec_ngXor fun _ _ _ => rfl
  case andn => exact leavesThread_atWidth (fun _ a b => a &&& ~~~b) h Laws.exec_ngAndn fun _ _ _ => rfl
  case shl => exact leavesThread_atWidth (fun n a b => a <<< (b.toNat % n)) h Laws.exec_ngShl fun _ x _ => shiftLeft_eq_ofNat x _
  case shr => exact leavesThread_atWidth (fun n a b => a >>> (b.toNat % n)) h Laws.exec_ngShr fun _ x _ => ushiftRight_eq_ofNat x _
  case sar =>
    exact leavesThread_atWidth (fun n a b => a.sshiftRight (b.toNat % n)) h Laws.exec_ngSar fun _ x _ => sshiftRight_eq_ofInt x _
  case rol =>
    refine leavesThread_atWidth (fun n a b => a.rotateLeft (b.toNat % n)) h Laws.exec_ngRol fun n x y => ?_
    rw [BitVec.rotateLeft_def, Nat.mod_mod]
  case min =>
    refine leavesThread_atWidth (fun n a b => if a.slt b then a else b) h Laws.exec_ngMin fun n x y => ?_
    simp only [BitVec.slt, decide_eq_true_eq]
  case max =>
    refine leavesThread_atWidth (fun n a b => if a.slt b then b else a) h Laws.exec_ngMax fun n x y => ?_
    simp only [BitVec.slt, decide_eq_true_eq]
  case minu =>
    refine leavesThread_atWidth (fun n a b => if a.ult b then a else b) h Laws.exec_ngMinu fun n x y => ?_
    simp only [BitVec.ult, decide_eq_true_eq]
  case maxu =>
    refine leavesThread_atWidth (fun n a b => if a.ult b then b else a) h Laws.exec_ngMaxu fun n x y => ?_
    simp only [BitVec.ult, decide_eq_true_eq]
  case mul => exact leavesThread_atWidth (fun _ a b => a * b) h Laws.exec_ngMul fun _ => mul_eq_ofNat
  case mulhu =>
    exact leavesThread_atWidth (fun n a b => BitVec.ofNat n (a.toNat * b.toNat / 2 ^ n)) h Laws.exec_ngMulhu fun _ _ _ => rfl
  case divu =>
    refine leavesThread_atWidth (fun n a b => if b = 0 then BitVec.allOnes n else a / b) h Laws.exec_ngDivu fun n x y => ?_
    simp only [eq_zero_iff_toNat, allOnes_eq_ofNat, udiv_eq_ofNat]
  case remu =>
    refine leavesThread_atWidth (fun n a b => if b = 0 then a else a % b) h Laws.exec_ngRemu fun n x y => ?_
    simp only [eq_zero_iff_toNat, umod_eq_ofNat]

/-! ### Immediates (R125) -/

section
variable {s : State} {th : Fin 2048} {g : Guard} {c : Instr} {w : Bool} {rd ra : Fin 32}

theorem leavesThread_aluI {imm : ImmI} {ill : Bool} {f : Word → Word} {v : Word} (h : s.dev.Issues th g)
    (he : exec c s = s.on fun d => d.aluI th g rd ra imm ill f) (hi : ill = false) (hv : f ((s.dev.past th imm.len).rg ra) = v) :
    LeavesThread c s th ((s.dev.past th imm.len).wg rd v) :=
  leavesThread_issue h he hi (by rw [hv])

/-- A shift by an amount that its width allows. -/
theorem leavesThread_shi {amt : Fin 64} {F : (n : Nat) → BitVec n → BitVec n → BitVec n} (op : (n : Nat) → BitVec n → Nat → BitVec n)
    (h : s.dev.Issues th g) (he : exec c s = s.on fun d => d.shi th g w rd ra amt (op 64) (op 32)) (ha : w = true → amt.val < 32)
    (hop : ∀ n x y, amt.val < n → op n x amt.val = F n x y) :
    LeavesThread c s th ((s.dev.past th 4).wg rd (atWidth w F ((s.dev.past th 4).rg ra) 0)) := by
  refine leavesThread_issue h he (by simpa using ha) ?_
  cases w with
  | true => simp only [if_true, atWidth, hop 32 _ 0 (ha rfl), BitVec.ofNat_eq_ofNat, BitVec.setWidth_zero]
  | false => simp only [Bool.false_eq_true, if_false, atWidth, hop 64 _ 0 amt.isLt]

end

/-- An immediate below 2^32 above the low half of a register (MOVHI). -/
theorem movhi_eq_ofNat (a z : Word) (hz : z.toNat < 2 ^ 32) :
    (a &&& 0xFFFFFFFF#64) ||| (z <<< 32) = BitVec.ofNat 64 (z.toNat * 2 ^ 32 + a.toNat % 2 ^ 32) := by
  apply BitVec.eq_of_toNat_eq
  have hlow : a.toNat &&& 4294967295 = a.toNat % 2 ^ 32 := Nat.and_two_pow_sub_one_eq_mod a.toNat 32
  have hhigh : z.toNat * 2 ^ 32 % 2 ^ 64 = 2 ^ 32 * z.toNat := by omega
  rw [BitVec.toNat_or, BitVec.toNat_and, BitVec.toNat_shiftLeft, Nat.shiftLeft_eq, hhigh, BitVec.toNat_ofNat, BitVec.toNat_ofNat,
    Nat.or_comm, show 0xFFFFFFFF % 2 ^ 64 = 4294967295 from rfl, hlow, ← Nat.two_pow_add_eq_or_of_lt (Nat.mod_lt _ (by decide))]
  omega

/-- Settles O3: an immediate is an operand of the register form, and MOVHI and SHI are legal where the statement asks it. -/
theorem immediateInstructionsWriteTheirResult : Obligations.ImmediateInstructionsWriteTheirResult := by
  intro s th g w rd ra imm amt h
  refine ⟨?addi, ?andi, ?ori, ?xori, ?movi, fun hz => ?movhi, fun ha => ⟨?shl, ?shr, ?sar, ?rol⟩⟩
  case addi => exact leavesThread_aluI h Laws.exec_ngAddi rfl (add_eq_ofNat _ _)
  case andi => exact leavesThread_aluI h Laws.exec_ngAndi rfl rfl
  case ori => exact leavesThread_aluI h Laws.exec_ngOri rfl rfl
  case xori => exact leavesThread_aluI h Laws.exec_ngXori rfl rfl
  case movi => exact leavesThread_aluI h Laws.exec_ngMovi rfl rfl
  case movhi => exact leavesThread_aluI h Laws.exec_ngMovhi (decide_eq_false (Nat.not_le.2 hz)) (movhi_eq_ofNat _ _ hz)
  case shl =>
    exact leavesThread_shi (fun _ x k => x <<< k) h Laws.exec_ngShiShl ha fun _ x _ _ => shiftLeft_eq_ofNat x _
  case shr =>
    exact leavesThread_shi (fun _ x k => x >>> k) h Laws.exec_ngShiShr ha fun _ x _ _ => ushiftRight_eq_ofNat x _
  case sar =>
    exact leavesThread_shi (fun _ x k => x.sshiftRight k) h Laws.exec_ngShiSar ha fun _ x _ _ => sshiftRight_eq_ofInt x _
  case rol =>
    refine leavesThread_shi (fun _ x k => x.rotateLeft k) h Laws.exec_ngShiRol ha fun n x _ hk => ?_
    rw [BitVec.rotateLeft_def, Nat.mod_eq_of_lt hk]

/-! ### Predicates (R126, R127) -/

/-- The conditions of Table 05-7 on the values of the operands. -/
theorem cmpCond_eq {n : Nat} (cond : Fin 8) (x y : BitVec n) : cmpCond cond x y = match cond with
    | 0 => x.toNat == y.toNat
    | 1 => x.toNat != y.toNat
    | 2 => decide (x.toInt < y.toInt)
    | 3 => decide (y.toInt ≤ x.toInt)
    | 4 => decide (x.toNat < y.toNat)
    | 5 => decide (y.toNat ≤ x.toNat)
    | 6 => Nat.land x.toNat y.toNat != 0
    | 7 => Nat.land x.toNat y.toNat == 0 := by
  have heq (u v : BitVec n) : (u == v) = (u.toNat == v.toNat) := by
    rw [Bool.eq_iff_iff, beq_iff_eq, beq_iff_eq, BitVec.toNat_eq]
  have htest : ((x &&& y) == 0) = (Nat.land x.toNat y.toNat == 0) := (heq _ 0).trans (congrArg (_ == ·) BitVec.toNat_zero)
  match cond with
  | 0 => exact heq x y
  | 1 => exact congrArg (!·) (heq x y)
  | 2 => rfl
  | 3 => rw [cmpCond, BitVec.slt, ← decide_not, decide_eq_decide, Int.not_lt]
  | 4 => rfl
  | 5 => rw [cmpCond, BitVec.ult, ← decide_not, decide_eq_decide, Nat.not_lt]
  | 6 => exact congrArg (!·) htest
  | 7 => exact htest

theorem cmpMode_eq (mode : Fin 3) (old c : Bool) :
    cmpMode mode old c = if mode = 0 then c else if mode = 1 then old && c else old || c := by
  match mode with
  | 0 => rfl
  | 1 => rfl
  | 2 => rfl

/-- A condition at the width that W names, on the values that Table 05-7 compares. -/
theorem cmpVal_eq (w : Bool) (cond : Fin 8) (x y : Word) : cmpVal w cond x y =
    (let su := if w then (((x.setWidth 32).toInt, (y.setWidth 32).toInt) : Int × Int) else (x.toInt, y.toInt)
     let un := if w then (x.toNat % 2 ^ 32, y.toNat % 2 ^ 32) else (x.toNat, y.toNat)
     match cond with
     | 0 => un.1 == un.2
     | 1 => un.1 != un.2
     | 2 => decide (su.1 < su.2)
     | 3 => decide (su.2 ≤ su.1)
     | 4 => decide (un.1 < un.2)
     | 5 => decide (un.2 ≤ un.1)
     | 6 => Nat.land un.1 un.2 != 0
     | 7 => Nat.land un.1 un.2 == 0) := by
  cases w <;> simp only [cmpVal, cmpCond_eq, BitVec.toNat_setWidth, if_true, Bool.false_eq_true, if_false]

theorem setBits_low (v x : Nat) (hx : x < 2) : setBits (v % 256) 0 1 x = v % 256 / 2 * 2 + x := by
  rw [setBits_eq]
  omega

section
variable {s : State} {th : Fin 2048} {g : Guard}

/-- PLOG's operations, by PLOP. -/
theorem leavesThread_ngPlog {pop : Fin 4} {pd pa pb : Fin 8} (h : s.dev.Issues th g) :
    let t := s.dev.past th 4
    LeavesThread (.ngPlog th g pop pd pa pb) s th
      (t.wp pd (if pop = 0 then t.rp pa && t.rp pb else if pop = 1 then t.rp pa || t.rp pb else if pop = 2 then Bool.xor (t.rp pa) (t.rp pb)
        else t.rp pa && !t.rp pb)) := by
  refine leavesThread_issue h Laws.exec_ngPlog rfl ?_
  match pop with
  | 0 => rfl
  | 1 => rfl
  | 2 => rfl
  | 3 => rfl

end

/-- Settles O4: the conditions at the width that W names, the modes, and the byte that p0 to p7 make. -/
theorem predicateInstructionsComplete : Obligations.PredicateInstructionsComplete := by
  intro s th g w mode cond pd pa pb n pop neg rd ra rb imm h
  refine ⟨?cmp, ?cmpi, leavesThread_ngPlog h, ?prd, ?pwr, ?sel⟩
  case cmp => exact leavesThread_issue h Laws.exec_ngCmp rfl (by rw [cmpMode_eq, cmpVal_eq] <;> rfl)
  case cmpi => exact leavesThread_issue h Laws.exec_ngCmpi rfl (by rw [cmpMode_eq, cmpVal_eq] <;> rfl)
  case prd => exact leavesThread_issue h Laws.exec_ngPrd rfl (by rw [setBits_low _ 1 (by decide)])
  case pwr => exact leavesThread_issue h Laws.exec_ngPwr rfl (by rw [setBits_low _ 0 (by decide)] <;> rfl)
  case sel =>
    refine leavesThread_issue h Laws.exec_ngSel rfl ?_
    by_cases hn : (s.dev.past th 4).rp n = neg <;> simp [hn]

/-! ### Bit fields and bit operations (R125, Table 05-6) -/

section
variable {s : State} {th : Fin 2048} {g : Guard} {c : Instr} {w : Bool} {rd ra rb : Fin 32}

/-- A one-operand instruction computes at the width that W names. -/
theorem leavesThread_alu1 (op op32 : Nat → Nat) {x : Nat} (h : s.dev.Issues th g)
    (he : exec c s = s.on fun d => d.alu1 th g w rd ra (fun a => BitVec.ofNat 64 (op a.toNat)) (fun a => BitVec.ofNat 32 (op32 a.toNat)))
    (hlow : ∀ v, op32 v < 2 ^ 32)
    (hx : (if w then op32 (((s.dev.past th 4).rg ra).toNat % 2 ^ 32) else op ((s.dev.past th 4).rg ra).toNat) = x) :
    LeavesThread c s th ((s.dev.past th 4).wg rd (BitVec.ofNat 64 x)) := by
  refine leavesThread_alu h he ?_
  subst hx
  cases w with
  | true =>
    apply BitVec.eq_of_toNat_eq
    have h32 := Nat.mod_eq_of_lt (hlow (((s.dev.past th 4).rg ra).toNat % 2 ^ 32))
    simp only [if_true, BitVec.toNat_setWidth, BitVec.toNat_ofNat, h32]
  | false => rfl

end

/-- A 64-bit number shifted right arithmetically by `m` keeps its top `q + 1` bits as a signed number. -/
theorem toInt_div_two_pow (x : Word) {m q : Nat} (hm : m + q = 63) :
    x.toInt / 2 ^ m = if 2 ^ q ≤ x.toNat / 2 ^ m then ((x.toNat / 2 ^ m : Nat) : Int) - 2 ^ (q + 1) else (x.toNat / 2 ^ m : Nat) := by
  have hsign : 2 ^ q ≤ x.toNat / 2 ^ m ↔ 2 ^ 63 ≤ x.toNat := by
    rw [Nat.le_div_iff_mul_le (Nat.two_pow_pos m), ← Nat.pow_add, Nat.add_comm, hm]
  have htop : 2 ^ 64 = 2 ^ m * 2 ^ (q + 1) := by rw [← Nat.pow_add, ← Nat.add_assoc, hm]
  have hpos : (2 : Int) ^ m ≠ 0 := Int.pow_ne_zero (by decide)
  rw [BitVec.toInt_eq_toNat_cond]
  by_cases hs : 2 ^ 63 ≤ x.toNat
  · rw [if_neg (by omega), if_pos (hsign.2 hs), htop, Int.natCast_mul, Int.natCast_pow, Int.natCast_pow, Int.cast_ofNat_Int, Int.sub_mul_ediv_left _ _ hpos]
    norm_cast
  · rw [if_pos (by omega), if_neg (mt hsign.1 hs)]
    norm_cast
theorem shiftLeft_div_two_pow (a : Word) {k p w : Nat} (hk : k + (p + w) = 64) :
    (a <<< k).toNat / 2 ^ (k + p) = a.toNat / 2 ^ p % 2 ^ w := by
  have htop : a.toNat * 2 ^ k % 2 ^ 64 = 2 ^ k * (a.toNat % (2 ^ p * 2 ^ w)) := by
    have h64 : 2 ^ 64 = 2 ^ k * (2 ^ p * 2 ^ w) := by rw [← Nat.pow_add, ← Nat.pow_add, hk]
    rw [h64, Nat.mul_comm a.toNat, Nat.mul_mod_mul_left]
  rw [BitVec.toNat_shiftLeft, Nat.shiftLeft_eq, htop, Nat.pow_add, Nat.mul_div_mul_left _ _ (Nat.two_pow_pos k), Nat.mod_mul_right_div_self]


/-- A field moved to the top of a word and back arithmetically is its value as a signed number (EXTS). -/
theorem shiftLeft_sshiftRight_eq_ofInt (a : Word) (pos wm1 : Fin 64) (hp : pos.val + wm1.val < 64) :
    let fld := a.toNat / 2 ^ pos.val % 2 ^ (wm1.val + 1)
    (a <<< (63 - pos.val - wm1.val)).sshiftRight (63 - wm1.val) =
      BitVec.ofInt 64 (if 2 ^ wm1.val ≤ fld then (fld : Int) - 2 ^ (wm1.val + 1) else fld) := by
  have hk : 63 - wm1.val = 63 - pos.val - wm1.val + pos.val := by omega
  rw [sshiftRight_eq_ofInt, hk, toInt_div_two_pow _ (q := wm1.val) (by omega), shiftLeft_div_two_pow a (w := wm1.val + 1) (by omega)]

theorem popcNat_eq_sum (n v : Nat) : popcNat n v = ((List.range n).map fun i => v / 2 ^ i % 2).sum := by
  unfold popcNat
  induction List.range n with
  | nil => rfl
  | cons i l ih =>
    rw [List.map_cons, List.sum_cons, ← ih, ← Nat.toNat_testBit, List.filter_cons]
    cases v.testBit i <;> simp [Nat.add_comm]

theorem clzNat_le (n v : Nat) : clzNat n v ≤ n :=
  Nat.le_trans (List.takeWhile_prefix _).length_le (by simp)

theorem ctzNat_le (n v : Nat) : ctzNat n v ≤ n :=
  Nat.le_trans (List.takeWhile_prefix _).length_le (by simp)

theorem popcNat_le (n v : Nat) : popcNat n v ≤ n :=
  Nat.le_trans (List.length_filter_le _ _) (by simp)

theorem beNat_toLe_two (v : Nat) : beNat (toLe 2 v) = v % 256 * 256 + v / 256 % 256 := by
  simp only [toLe, List.range_succ, List.range_zero, beNat, leNat, List.nil_append, List.cons_append, List.map_cons, List.map_nil,
    List.reverse_cons, List.reverse_nil, Nat.reducePow, Nat.div_one]
  omega

theorem beNat_toLe_four (v : Nat) :
    beNat (toLe 4 v) = v % 256 * 2 ^ 24 + v / 256 % 256 * 2 ^ 16 + v / 2 ^ 16 % 256 * 256 + v / 2 ^ 24 % 256 := by
  simp only [toLe, List.range_succ, List.range_zero, beNat, leNat, List.nil_append, List.cons_append, List.map_cons, List.map_nil,
    List.reverse_cons, List.reverse_nil, Nat.reducePow, Nat.div_one]
  omega

theorem csfold_two_lt (v : Nat) : csfold 2 v < 2 ^ 32 := by
  simp only [csfold, List.range_succ, List.range_zero, List.nil_append, List.cons_append, List.foldl_cons, List.foldl_nil, oc16]
  omega

theorem fieldBad_eq_false {pos wm1 : Fin 64} (hp : pos.val + wm1.val < 64) : fieldBad pos wm1 = false :=
  decide_eq_false (by omega)

/-- Settles O5: each result is one number of the operands, at the width that W names where the form has one. -/
theorem bitInstructionsWriteTheirResult : Obligations.BitInstructionsWriteTheirResult := by
  intro s th g w rd ra rb pos wm1 h
  refine ⟨fun hp => ⟨?extu, ?exts, ?ins⟩, ?bswap16, ?bswap32, ?bswap64, ?clz, ?ctz, ?popc, ?crcB, ?crcW, ?crcD, ?csadd, ?csfold⟩
  case extu => exact leavesThread_issue h Laws.exec_ngExtu (fieldBad_eq_false hp) rfl
  case exts =>
    exact leavesThread_issue h Laws.exec_ngExts (fieldBad_eq_false hp) (by rw [shiftLeft_sshiftRight_eq_ofInt _ _ _ hp])
  case ins =>
    refine leavesThread_issue h Laws.exec_ngIns (fieldBad_eq_false hp) ?_
    rw [Nat.add_assoc pos.val, setBits_eq, Nat.mul_add, ← Nat.mul_assoc, ← Nat.pow_add, Nat.mul_comm (2 ^ (pos.val + (wm1.val + 1))), Nat.mul_comm (2 ^ pos.val)]

  case bswap16 =>
    refine leavesThread_alu1 (fun v => beNat (toLe 2 v)) (fun v => beNat (toLe 2 v)) h Laws.exec_ngBswap16 (fun v => by rw [beNat_toLe_two]; omega) ?_
    cases w <;> simp only [beNat_toLe_two, if_true, Bool.false_eq_true, if_false]
  case bswap32 =>
    refine leavesThread_alu1 (fun v => beNat (toLe 4 v)) (fun v => beNat (toLe 4 v)) h Laws.exec_ngBswap32 (fun v => by rw [beNat_toLe_four]; omega) ?_
    cases w <;> simp only [beNat_toLe_four, if_true, Bool.false_eq_true, if_false]
  case bswap64 => exact leavesThread_alu h Laws.exec_ngBswap64 rfl
  case clz =>
    refine leavesThread_alu1 (clzNat 64) (clzNat 32) h Laws.exec_ngClz (fun v => Nat.lt_of_le_of_lt (clzNat_le 32 v) (by decide)) ?_
    cases w <;> rfl
  case ctz =>
    refine leavesThread_alu1 (ctzNat 64) (ctzNat 32) h Laws.exec_ngCtz (fun v => Nat.lt_of_le_of_lt (ctzNat_le 32 v) (by decide)) ?_
    cases w <;> rfl
  case popc =>
    refine leavesThread_alu1 (popcNat 64) (popcNat 32) h Laws.exec_ngPopc (fun v => Nat.lt_of_le_of_lt (popcNat_le 32 v) (by decide)) ?_
    cases w <;> simp only [popcNat_eq_sum, if_true, Bool.false_eq_true, if_false]
  case crcB => exact leavesThread_alu h Laws.exec_ngCrc32cB rfl
  case crcW => exact leavesThread_alu h Laws.exec_ngCrc32cW rfl
  case crcD => exact leavesThread_alu h Laws.exec_ngCrc32cD rfl
  case csadd => exact leavesThread_alu h Laws.exec_ngCsadd rfl
  case csfold =>
    refine leavesThread_alu1 (csfold 4) (csfold 2) h Laws.exec_ngCsfold csfold_two_lt ?_
    cases w <;> rfl

/-! ### Branches (R128) -/

theorem branchTo_taken {t : Thread} {target : Word} {d : Dev} {pc : Nat} (ht : target.toNat = pc) (h : pc % 4 = 0 ∧ pc + 4 ≤ t.code) :
    branchTo t target d = .ok { t with pc := pc } d := by
  subst ht
  exact if_pos h

/-- An offset in words, sign-extended, counts four bytes each. -/
theorem signExtend_shiftLeft_two {n : Nat} (off : BitVec n) : off.signExtend 64 <<< 2 = BitVec.ofInt 64 (4 * off.toInt) := by
  rw [BitVec.shiftLeft_eq_mul_twoPow, BitVec.mul_comm, BitVec.ofInt_mul]
  rfl

/-- BR and CALL count from the address of the branch itself. -/
theorem nearTarget_eq (pc : Nat) (off : BitVec 22) :
    BitVec.ofNat 64 (pc + 4 - 4) + (off.signExtend 64 <<< 2) = BitVec.ofInt 64 ((pc : Int) + 4 * off.toInt) := by
  rw [signExtend_shiftLeft_two, BitVec.ofInt_add, BitVec.ofInt_natCast, Nat.add_sub_cancel]

/-- JR counts from the value of ra. -/
theorem farTarget_eq (a : Word) (imm : BitVec 12) :
    a + (imm.signExtend 64 <<< 2) = BitVec.ofInt 64 (a.toInt + 4 * imm.toInt) := by
  rw [signExtend_shiftLeft_two, BitVec.ofInt_add, BitVec.ofInt_toInt]

/-- Settles O6: a target within the code and on a word is taken, and the link register is written beside it. -/
theorem branchInstructionsTakeTheirTarget : Obligations.BranchInstructionsTakeTheirTarget := by
  intro s th g rd ra off imm h
  refine ⟨fun hnear => ⟨?br, ?call⟩, fun hfar => ?jr⟩
  case br => exact leavesThread_issue h Laws.exec_ngBr rfl (branchTo_taken (congrArg BitVec.toNat (nearTarget_eq _ _)) hnear)
  case call =>
    exact leavesThread_issue h Laws.exec_ngCall rfl
      (branchTo_taken (congrArg BitVec.toNat (nearTarget_eq _ _)) (by rwa [Thread.wg_code]))
  case jr =>
    exact leavesThread_issue h Laws.exec_ngJr rfl (branchTo_taken (congrArg BitVec.toNat (farTarget_eq _ _)) (by rwa [Thread.wg_code]))

/-! ### Loads and stores (R129, R130) -/

/-- The two's complement of a signed number is the word of it. -/
theorem ofNat_unsigned (v : Int) : BitVec.ofNat 64 (unsigned 64 v) = BitVec.ofInt 64 v := by
  apply BitVec.eq_of_toInt_eq
  rw [← BitVec.ofInt_natCast, BitVec.toInt_ofInt, BitVec.toInt_ofInt, unsigned, Int.toNat_of_nonneg (Int.emod_nonneg _ (by decide))]
  exact Int.emod_bmod v (2 ^ 64)

/-- Settles O7: the address lies in its region and is aligned, so no fault of R129 or R130 is raised. -/
theorem memoryInstructionsComplete : Obligations.MemoryInstructionsComplete := by
  intro s th g sz sx be rd rs ra off po h
  refine ⟨fun ⟨hregion, halign⟩ => ?ldl, fun ⟨hregion, halign⟩ => ?stl, fun hpkt => ?ldp⟩
  case ldl =>
    refine leavesThread_issue h Laws.exec_ngLdl rfl ?_
    obtain ⟨r, hr⟩ := Option.isSome_iff_exists.1 hregion
    simp only [add_eq_ofNat, hr]
    rw [if_neg (not_not_intro halign)]
    cases sx
    · rfl
    · simp only [if_true, ofNat_unsigned]
  case stl =>
    refine leavesThread_issue h Laws.exec_ngStl rfl ?_
    simp only [add_eq_ofNat, hregion]
    rw [if_neg (not_not_intro halign)]
  case ldp =>
    refine leavesThread_issue h Laws.exec_ngLdp rfl ?_
    have hoff : (BitVec.ofNat 64 po.val).toNat = po.val := Nat.mod_eq_of_lt (by omega)
    simp only [add_eq_ofNat, hoff]
    exact if_neg (Nat.not_lt.2 hpkt)

end Sys2Proof.Machine
end

section
/-!
SUPPORT. The instructions that check their operands before they complete (R121): tickets, time, the edit list, EMIT, DISC and END, and the
supervisor's and the handlers' instructions. Each checks a list of conditions, of which none holds where the operands are in place.
-/
namespace Sys2Proof.Machine

/-! ### Lists of fault conditions -/

/-- None of the fault conditions holds. -/
def NoFault (l : List (Bool × Nat)) : Prop := ∀ c ∈ l, c.1 = false

@[simp] theorem noFault_nil : NoFault [] := fun _ h => absurd h List.not_mem_nil

@[simp] theorem noFault_cons {b : Bool} {k : Nat} {l : List (Bool × Nat)} : NoFault ((b, k) :: l) ↔ b = false ∧ NoFault l := by
  simp [NoFault]

@[simp] theorem noFault_append {l m : List (Bool × Nat)} : NoFault (l ++ m) ↔ NoFault l ∧ NoFault m := by
  simp only [NoFault, List.mem_append, or_imp, forall_and]

/-- A ticket's destination in the LOCAL of its thread (R132). -/
theorem noFault_dstFaults {a n : Nat} : NoFault (dstFaults a n) ↔ privateRange a n := by
  simp [dstFaults, privateRange]

/-- A source copied at issue, 8-aligned where its rule asks (R139, R173). -/
theorem noFault_srcFaults {a n : Nat} {aligned : Bool} :
    NoFault (srcFaults a n aligned) ↔ (localRegion a n).isSome = true ∧ (aligned = true → a % 8 = 0) := by
  cases aligned <;> simp [srcFaults, ← Option.ne_none_iff_isSome]

theorem noFault_srcFaults_aligned {a n : Nat} : NoFault (srcFaults a n true) ↔ alignedRange a n := by
  simp [noFault_srcFaults, alignedRange]

/-! ### Ticketed instructions (R131) -/

section
variable {s : State} {th : Fin 2048} {g : Guard} {c : Instr}

/-- On an IDLE ticket, with no fault of its operands, the instruction makes its ticket PENDING with its request. -/
theorem ticketed_eq {tk : Fin 8} {f : Dev → Thread → List (Bool × Nat) × TkReq × Nat} (h : s.dev.Issues th g)
    (hst : ((s.dev.past th 4).tk tk).st = 0) (hf : NoFault (f s.dev (s.dev.past th 4)).1) :
    s.dev.ticketed th g tk f = s.dev.setTh th.val ((s.dev.past th 4).setTk tk
      { st := 1, req := (f s.dev (s.dev.past th 4)).2.1, dst := (f s.dev (s.dev.past th 4)).2.2 }) := by
  obtain ⟨hissue, hpc, hguard⟩ := h
  rw [Dev.ticketed, Dev.issue_holds _ _ _ _ _ hissue hpc hguard, checked_byPrecedence_ok]
  · rfl
  · exact noFault_cons.2 ⟨bne_eq_false_iff_eq.2 hst, hf⟩

theorem leavesThread_ticketed {tk : Fin 8} {f : Dev → Thread → List (Bool × Nat) × TkReq × Nat} {q : TkReq} {dst : Nat}
    (h : s.dev.Issues th g) (he : exec c s = s.on fun d => d.ticketed th g tk f) (hst : ((s.dev.past th 4).tk tk).st = 0)
    (hq : (f s.dev (s.dev.past th 4)).2 = (q, dst)) (hf : NoFault (f s.dev (s.dev.past th 4)).1) :
    LeavesThread c s th ((s.dev.past th 4).setTk tk { st := 1, req := q, dst := dst }) := by
  rw [LeavesThread, Does, he, State.on_eq, ticketed_eq h hst hf, hq]

end

section
variable {s : State} {th : Fin 2048} {g : Guard} {tk : Fin 8} {ra rb : Fin 32}

theorem bits_zero (v w : Nat) : bits v 0 w = v % 2 ^ w := by simp only [bits, Nat.pow_zero, Nat.div_one]

/-- LK and LKS, by their SHADOW bit. -/
theorem leavesThread_lookupInsn {c : Instr} {shadow : Bool} {tref : Fin 64} {n : Nat} (h : s.dev.Issues th g)
    (he : exec c s = s.on fun d => d.lookupInsn th g shadow tk tref ra rb) (hst : ((s.dev.past th 4).tk tk).st = 0)
    (hn : (s.dev.tref (s.dev.past th 4) tref).table = some n) (hrd : (s.dev.tref (s.dev.past th 4) tref).rd = true)
    (hsrc : alignedRange ((s.dev.past th 4).rg ra).toNat (s.dev.get F.TABLE_DESC_CFG_KEY_LEN n))
    (hdst : privateRange ((s.dev.past th 4).rg rb).toNat (s.dev.get F.TABLE_DESC_CFG_RESULT_LEN n)) :
    LeavesThread c s th ((s.dev.past th 4).setTk tk
      { st := 1,
        req := .lk shadow n
          (s.dev.localBytes th.val (s.dev.past th 4) ((s.dev.past th 4).rg ra).toNat (s.dev.get F.TABLE_DESC_CFG_KEY_LEN n))
          ((s.dev.past th 4).rg rb).toNat,
        dst := ((s.dev.past th 4).rg rb).toNat }) := by
  refine leavesThread_ticketed h he hst (by simp only [hn, Option.getD_some]) ?_
  simp only [hn, hrd, Option.getD_some, Option.isNone_some, Bool.not_true, Bool.or_false, List.cons_append, noFault_cons, noFault_append,
    noFault_srcFaults_aligned, noFault_dstFaults]
  exact ⟨trivial, hsrc, hdst⟩

end

/-- A CSR address that the slot reaches, aligned to the access and without a reserved bit (Table 05-12, R109). -/
theorem noFault_csrFaults {d : Dev} {th : Nat} {t : Thread} {v : Nat} {is64 : Bool}
    (hmay : d.isSup th = true ∨ (d.isTenant t = false ∧ bits v 32 6 < 26)) (hblk : bits v 32 6 ≤ 37) (hr1 : bits v 24 8 = 0)
    (hr2 : bits v 38 2 = 0) (hr3 : bits v 52 12 = 0) (hal : v % (if is64 then 8 else 4) = 0) :
    NoFault (d.csrFaults th t v is64) := by
  have hreach : (!d.isSup th && (d.isTenant t || decide (26 ≤ bits v 32 6 ∧ bits v 32 6 ≤ 37))) = false := by
    rcases hmay with hsup | ⟨htenant, hdata⟩
    · simp [hsup]
    · simp [htenant, Nat.not_le.2 hdata]
  have haligned : v % 2 ^ 24 % (if is64 then 8 else 4) = 0 := by
    cases is64 <;> simp only [if_true, Bool.false_eq_true, if_false] at hal ⊢ <;> omega
  simp only [Dev.csrFaults, hreach, bits_zero, haligned, noFault_cons, noFault_nil, Bool.or_eq_false_iff, decide_eq_false_iff_not,
    bne_eq_false_iff_eq]
  exact ⟨trivial, trivial, ⟨⟨⟨hr1, hr2⟩, hr3⟩, Nat.not_lt.2 hblk⟩, trivial⟩

/-- A TENANT slot reaches an SA that its owner holds (R109). -/
theorem reachesSa {tenant owns : Bool} (h : tenant = true → owns = true) : (tenant && !owns) = false := by
  cases tenant
  · rfl
  · rw [h rfl]
    rfl

/-- Settles O8: the ticket is IDLE and no operand is at fault, so the ticket takes the request. -/
theorem ticketInstructionsMakeRequests : Obligations.TicketInstructionsMakeRequests := by
  intro s th g is32 tk tref ra rb h
  refine ⟨fun hst => ⟨fun n hn hrd => ⟨fun hsrc hdst => ⟨?lk, ?lks⟩, fun hown hlt hdst => ?trd⟩,
    fun hlt hoff hlen hmax hdst => ?reach, fun hsrc hlen hmax hr1 hr2 hr3 hinst hdst => ?hrd,
    fun hmay hblk hr1 hr2 hr3 hal hdst => ?csrrd, fun hmine hres hsrc hdst => ⟨?saqry, fun hplen hhead hpdst => ?verdict⟩⟩,
    fun hst n key dst hreq => ?lkc⟩
  case lk => exact leavesThread_lookupInsn h Laws.exec_ngLk hst hn hrd hsrc hdst
  case lks => exact leavesThread_lookupInsn h Laws.exec_ngLks hst hn hrd hsrc hdst
  case trd =>
    refine leavesThread_ticketed h Laws.exec_ngTrd hst (by simp only [hn, Option.getD_some]) ?_
    simp only [hn, hrd, hown, Option.getD_some, Option.isNone_some, Bool.not_true, Bool.or_false, bne_self_eq_false, noFault_cons,
      noFault_dstFaults, decide_eq_false_iff_not, Nat.not_le]
    exact ⟨trivial, hlt, hdst⟩
  case reach =>
    have hb : bits ((s.dev.past th 4).rg rb).toNat 16 16 = ((s.dev.past th 4).rg rb).toNat / 2 ^ 16 :=
      Nat.mod_eq_of_lt (by omega)
    refine leavesThread_ticketed h Laws.exec_ngReach hst (by simp only [hb, bits_zero]) ?_
    simp only [hb, bits_zero, noFault_cons, noFault_dstFaults, decide_eq_false_iff_not]
    exact ⟨by omega, hdst⟩
  case hrd =>
    rw [Does, Laws.exec_ngHrd, execNgHrd, State.on_eq, ticketed_eq h hst]
    · simp only [bits_zero]
    · have hreach : (!s.dev.isTenant (s.dev.past th 4) && decide (2051 < if s.dev.isTenant (s.dev.past th 4) = true then
          (s.dev.itemOf (s.dev.past th 4)).tok.inst
        else bits (leNat (slice (s.dev.localBytes th.val (s.dev.past th 4) ((s.dev.past th 4).rg ra).toNat 16) 8 4)) 16 12)) = false := by
        cases ht : s.dev.isTenant (s.dev.past th 4)
        · simpa using hinst ht
        · rfl
      simp only [bits_zero, List.cons_append, noFault_cons, noFault_append, noFault_srcFaults, noFault_dstFaults, Bool.or_eq_false_iff,
        decide_eq_false_iff_not, bne_eq_false_iff_eq, hreach]
      exact ⟨⟨⟨⟨⟨by omega, hr1⟩, hr2⟩, hr3⟩, trivial⟩, ⟨hsrc, fun hf => absurd hf (by decide)⟩, hdst⟩
  case csrrd =>
    refine leavesThread_ticketed h Laws.exec_ngCsrrd hst rfl ?_
    simp only [noFault_append, noFault_dstFaults]
    exact ⟨noFault_csrFaults hmay hblk hr1 hr2 hr3 (by cases is32 <;> exact hal), hdst⟩
  case saqry =>
    refine leavesThread_ticketed h Laws.exec_ngSaqry hst rfl ?_
    simp only [bits_zero, hres, List.cons_append, noFault_cons, noFault_append, noFault_srcFaults, noFault_dstFaults]
    exact ⟨reachesSa hmine, trivial, ⟨hsrc, fun hf => absurd hf (by decide)⟩, hdst⟩
  case verdict =>
    refine leavesThread_ticketed h Laws.exec_ngVerdict hst rfl ?_
    simp only [bits_zero, hres, List.cons_append, noFault_cons, noFault_append, noFault_srcFaults, noFault_dstFaults, Bool.or_eq_false_iff,
      decide_eq_false_iff_not] at hpdst ⊢
    exact ⟨reachesSa hmine, ⟨⟨trivial, Nat.not_lt.2 hplen⟩, Nat.not_lt.2 (by simpa only [bits_zero] using hhead)⟩,
      ⟨⟨hsrc, fun hf => absurd hf (by decide)⟩, hdst⟩, hpdst⟩
  case lkc =>
    refine leavesThread_issue h Laws.exec_ngLkc rfl ?_
    simp only [hst, hreq]

/-! ### Waiting and time (R131, R137) -/

section
variable {s : State} {th : Fin 2048} {g : Guard}

/-- TKST and TKPEEK on a READY ticket. -/
theorem leavesThread_tkWait_ready {c : Instr} {tk : Fin 8} {rd : Fin 32} {peek : Bool} (h : s.dev.Issues th g)
    (he : exec c s = s.on fun d => d.tkWait th g tk rd peek) (hst : 2 ≤ ((s.dev.past th 4).tk tk).st) :
    LeavesThread c s th
      ((if peek then s.dev.past th 4 else (s.dev.past th 4).setTk tk {}).wg rd ((s.dev.past th 4).tk tk).word) := by
  refine leavesThread_issue h he rfl ?_
  obtain ⟨k, hk⟩ : ∃ k, ((s.dev.past th 4).tk tk).st = k + 2 := ⟨_, (Nat.sub_add_cancel hst).symm⟩
  simp only [hk]

/-- TKST and TKPEEK on a PENDING ticket. -/
theorem does_tkWait_pending {c : Instr} {tk : Fin 8} {rd : Fin 32} {peek : Bool} (h : s.dev.Issues th g)
    (he : exec c s = s.on fun d => d.tkWait th g tk rd peek) (hst : ((s.dev.past th 4).tk tk).st = 1) :
    Does c s ((s.dev.setTh th.val { s.dev.past th 4 with sleep := .ticket tk.val rd.val peek }).settleSlot (th.val / 8)) :=
  does_issue_done h he rfl (by simp only [hst])

/-- A condition of WAITT holds: its timer, a ticket of its mask, or its event (R137). -/
def waittFired (now : Nat) (t : Thread) (mask : Nat) (event : Bool) : Prop :=
  t.tcmp ≤ now ∨ Nat.land t.readyMask mask ≠ 0 ∨ (event = true ∧ t.wake = true)

theorem waittNow_of_fired {now : Nat} {t : Thread} {mask : Nat} {event : Bool} (h : waittFired now t mask event) :
    waittNow now t mask event = some (b2n (decide (t.tcmp ≤ now)) + 2 * b2n (Nat.land t.readyMask mask != 0) + 4 * b2n (event && t.wake)
      + 256 * t.readyMask) := by
  refine if_pos ?_
  simpa only [waittFired, Bool.or_eq_true, Bool.and_eq_true, decide_eq_true_eq, bne_iff_ne, or_assoc] using h

theorem waittNow_of_not_fired {now : Nat} {t : Thread} {mask : Nat} {event : Bool} (h : ¬ waittFired now t mask event) :
    waittNow now t mask event = none := by
  refine if_neg ?_
  simpa only [waittFired, Bool.or_eq_true, Bool.and_eq_true, decide_eq_true_eq, bne_iff_ne, or_assoc] using h

end

/-- Settles O9: a ticket is READY or PENDING, and a WAITT has a condition that holds or has none. -/
theorem waitingInstructionsComplete : Obligations.WaitingInstructionsComplete := by
  intro s th g tk pd rd ra rb h
  refine ⟨fun hst => ⟨?tkst, ?tkpeek⟩, fun hst => ⟨?tkstWaits, ?tkpeekWaits⟩, ?tktest, ?tkcan, ?rddtb, ?settc, ?rdtc,
    fun hv => ⟨fun hfired => ?fires, fun hidle => ?sleeps⟩⟩
  case tkst => exact leavesThread_tkWait_ready h Laws.exec_ngTkst hst
  case tkpeek => exact leavesThread_tkWait_ready h Laws.exec_ngTkpeek hst
  case tkstWaits => exact does_tkWait_pending h Laws.exec_ngTkst hst
  case tkpeekWaits => exact does_tkWait_pending h Laws.exec_ngTkpeek hst
  case tktest => exact leavesThread_issue h Laws.exec_ngTktest rfl rfl
  case tkcan => exact leavesThread_issue h Laws.exec_ngTkcan rfl rfl
  case rddtb => exact leavesThread_issue h Laws.exec_ngRddtb rfl rfl
  case settc => exact leavesThread_issue h Laws.exec_ngSettc rfl rfl
  case rdtc => exact leavesThread_issue h Laws.exec_ngRdtc rfl rfl
  case fires =>
    refine leavesThread_issue h Laws.exec_ngWaitt rfl ?_
    simp only [if_neg (Nat.not_le.2 hv), waittNow_of_fired hfired]
  case sleeps =>
    refine does_issue_done h Laws.exec_ngWaitt rfl ?_
    simp only [if_neg (Nat.not_le.2 hv), waittNow_of_not_fired hidle]

/-! ### The edit list (R138) -/

/-- A command whose edit data HAPP copies from LOCAL: a PUSH or a WRITE of source 2. -/
theorem happTakes_eq (c : EditCmd) :
    (c.src == 2 && (c.cmd == ePUSH || c.cmd == eWRITE)) = decide (c.src = 2 ∧ (c.cmd = ePUSH ∨ c.cmd = eWRITE)) := by
  rw [Bool.eq_iff_iff]
  simp only [Bool.and_eq_true, Bool.or_eq_true, beq_iff_eq, decide_eq_true_eq]

/-- The edit data do not change a command's code. -/
theorem withData_cmd (c : EditCmd) (p : Prop) [Decidable p] (l : List Nat) : (if p then { c with data := l } else c).cmd = c.cmd := by
  split <;> rfl

/-- The edit data do not change a command's word 1. -/
theorem withData_w1 (c : EditCmd) (p : Prop) [Decidable p] (l : List Nat) : (if p then { c with data := l } else c).w1 = c.w1 := by
  split <;> rfl

/-- Settles O10: HAPP's operands are in place and the list has room; HCLR and HPOP check nothing. -/
theorem editListInstructionsComplete : Obligations.EditListInstructionsComplete := by
  intro s th g ra h
  refine ⟨fun hcmd hdata hnvme hgood hroom => ?happ, ?hclr, ?hpop⟩
  case happ =>
    refine leavesThread_issue h Laws.exec_ngHapp rfl ?_
    simp only [happTakes_eq, decide_eq_true_eq, withData_cmd, withData_w1]
    refine checked_byPrecedence_ok _ _ (noFault_cons.2 ⟨Bool.and_eq_false_imp.2 fun hnv => by simpa using hnvme (by simpa using hnv), noFault_cons.2 ⟨?_, ?_⟩⟩)
    · simp_all [alignedRange]
    · simp_all [alignedRange]
  case hclr => exact leavesThread_issue h Laws.exec_ngHclr rfl rfl
  case hpop => exact leavesThread_issue h Laws.exec_ngHpop rfl rfl

/-! ### Staging and the end of an attempt (R139, R140) -/

section
variable {s : State} {th : Fin 2048} {g : Guard} {c : Instr}

/-- With room for its record and no fault of its operands, a staging instruction appends it. -/
theorem leavesThread_stage {f : Dev → Thread → List (Bool × Nat) × Eff} {e : Eff} (h : s.dev.Issues th g)
    (he : exec c s = s.on fun d => d.stage th g false false f) (hroom : (s.dev.past th 4).effs.length < 32)
    (heff : (f s.dev (s.dev.past th 4)).2 = e) (hf : NoFault (f s.dev (s.dev.past th 4)).1) :
    LeavesThread c s th { s.dev.past th 4 with effs := (s.dev.past th 4).effs ++ [e] } := by
  refine leavesThread_issue h he rfl ?_
  subst heff
  rw [checked_byPrecedence_ok]
  · rfl
  · exact noFault_append.2 ⟨hf, noFault_cons.2 ⟨decide_eq_false (Nat.not_le.2 hroom), noFault_nil⟩⟩

/-- The device after an attempt's end on thread `u`: the supervisor goes on, a worker's batch is sent (R140). -/
def Dev.ended (d : Dev) (th : Nat) (u : Thread) : Dev :=
  if d.isSup th then d.setTh th u else (d.setTh th u).endAttempt th u.effs (d.idleState th)

theorem Dev.answered_endInsn (d : Dev) (th len : Nat) (u : Thread) : d.answered th len (d.endInsn th u) = d.ended th u := by
  unfold Dev.endInsn Dev.ended
  split <;> rfl

/-- The same where the record ends the attempt. -/
theorem does_stage_end {f : Dev → Thread → List (Bool × Nat) × Eff} {e : Eff} (h : s.dev.Issues th g)
    (he : exec c s = s.on fun d => d.stage th g true false f) (hroom : (s.dev.past th 4).effs.length < 32)
    (heff : (f s.dev (s.dev.past th 4)).2 = e) (hf : NoFault (f s.dev (s.dev.past th 4)).1) :
    Does c s (s.dev.ended th.val { s.dev.past th 4 with effs := (s.dev.past th 4).effs ++ [e] }) := by
  have hdoes := does_issue h he rfl
  subst heff
  rw [checked_byPrecedence_ok] at hdoes
  · rwa [if_pos rfl, Dev.answered_endInsn] at hdoes
  · exact noFault_append.2 ⟨hf, noFault_cons.2 ⟨decide_eq_false (Nat.not_le.2 hroom), noFault_nil⟩⟩

end

/-- DISC and HDISC take verdict 1 with a subcode of the architecture or the program (R103). -/
theorem discVerdictBad_eq_false {v : Nat} (hdisp : bits v 8 3 = 1) (hsub : v % 2 ^ 8 = 0 ∨ 0x80 ≤ v % 2 ^ 8) : discVerdictBad v = false := by
  simp only [discVerdictBad, bits_zero, hdisp, Bool.or_eq_false_iff, bne_self_eq_false, Bool.not_eq_false', Bool.or_eq_true, beq_iff_eq,
    decide_eq_true_eq]
  exact ⟨trivial, hsub⟩

/-- The staged and the ending form of one instruction. -/
theorem stages_and_ends {s : State} {th : Fin 2048} {g : Guard} {c cEnd : Instr} {F : Bool → Dev → Dev}
    {f : Bool → Dev → Thread → List (Bool × Nat) × Eff} {e : Bool → Eff} (h : s.dev.Issues th g)
    (hF : ∀ fin d, F fin d = d.stage th g fin false (f fin)) (he : exec c s = s.on (F false)) (heEnd : exec cEnd s = s.on (F true))
    (hroom : (s.dev.past th 4).effs.length < 32) (heff : ∀ fin, (f fin s.dev (s.dev.past th 4)).2 = e fin)
    (hf : ∀ fin, NoFault (f fin s.dev (s.dev.past th 4)).1) :
    LeavesThread c s th { s.dev.past th 4 with effs := (s.dev.past th 4).effs ++ [e false] } ∧
      Does cEnd s (s.dev.ended th.val { s.dev.past th 4 with effs := (s.dev.past th 4).effs ++ [e true] }) :=
  ⟨leavesThread_stage h (he.trans (congrArg s.on (funext (hF false)))) hroom (heff false) (hf false),
    does_stage_end h (heEnd.trans (congrArg s.on (funext (hF true)))) hroom (heff true) (hf true)⟩

/-- Settles O12: no operand is at fault, so the record is staged. -/
theorem emitDiscardAndEndComplete : Obligations.EmitDiscardAndEndComplete := by
  intro s th g ra rb h
  refine ⟨fun hroom => ⟨fun ha hb hty hhost hgroup htenant hsa hnet hts hplace hlow hhigh => ?emit,
    fun ha hdisp hsub hone => ?disc⟩, ?attemptEnds⟩
  case emit =>
    refine stages_and_ends (F := fun fin d => d.emitInsn th g fin ra rb)
      (e := fun fin => .emit (((s.dev.past th 4).rg ra).toNat % 2 ^ 17) (bits ((s.dev.past th 4).rg ra).toNat 17 2)
        (((s.dev.past th 4).rg rb).toNat % 2 ^ 16) (bit ((s.dev.past th 4).rg rb).toNat 16) fin (s.dev.past th 4).edits)
        h (fun _ _ => rfl) Laws.exec_ngEmit Laws.exec_ngEmitEnd hroom ?_ ?_
    · intro fin
      simp only [bits_zero]
    · intro fin
      simp only [noFault_cons, noFault_nil, bits_zero, Bool.or_eq_false_iff, decide_eq_false_iff_not, not_or]
      refine ⟨?mayEmit, ?owns, ⟨⟨⟨⟨⟨⟨⟨⟨⟨Nat.not_le.2 ha, Nat.not_le.2 hb⟩, ?ty⟩, ?host⟩, ?group⟩, ?sa⟩, ?net⟩, ?ts⟩, ?place⟩,
        Nat.not_lt.2 hlow, Nat.not_lt.2 hhigh⟩, trivial⟩
      case mayEmit => exact Bool.and_eq_false_imp.2 fun ht => by rw [(htenant ht).1, Bool.not_true]
      case owns =>
        refine Bool.and_eq_false_imp.2 fun ht => ?_
        obtain ⟨ht, hsav⟩ := Bool.and_eq_true_iff.1 ht
        rw [(htenant ht).2 hsav, Bool.not_true]
      case ty => exact beq_eq_false_iff_ne.2 (Nat.ne_of_lt hty)
      case host => exact Bool.and_eq_false_imp.2 fun ht => decide_eq_false (Nat.not_lt.2 (hhost (beq_iff_eq.1 ht)))
      case group => exact Bool.and_eq_false_imp.2 fun ht => by rw [hgroup (beq_iff_eq.1 ht), Bool.not_true]
      case sa =>
        refine Bool.and_eq_false_imp.2 fun hsav => ?_
        obtain ⟨hty0, hmark, hdir⟩ := hsa hsav
        dsimp only at hmark
        rw [hty0, hmark, hdir]
        rfl
      case net => exact Bool.and_eq_false_imp.2 fun hedit => bne_eq_false_iff_eq.2 (hnet hedit)
      case ts =>
        refine Bool.and_eq_false_imp.2 fun ht => decide_eq_false ?_
        obtain ⟨hedit, ht⟩ := Bool.and_eq_true_iff.1 ht
        exact Nat.not_le.2 (hts hedit (beq_iff_eq.1 ht))
      case place => exact Bool.and_eq_false_imp.2 fun hedit => bne_eq_false_iff_eq.2 (hplace hedit)
  case disc =>
    refine stages_and_ends (F := fun fin d => d.discInsn th g fin ra) h (fun _ _ => rfl) Laws.exec_ngDisc Laws.exec_ngDiscEnd hroom ?_ ?_
    · intro fin
      simp only [hdisp, bits_zero]
    · intro fin
      have hfirst : (s.dev.past th 4).effs.any (fun e => match e with | .discard .. => true | _ => false) = false := by
        refine List.any_eq_false.2 fun e he => ?_
        have := hone e he
        cases e <;> simp_all
      simp only [noFault_cons, noFault_nil, discVerdictBad_eq_false hdisp hsub, decide_eq_false_iff_not]
      exact ⟨Nat.not_le.2 ha, hfirst, trivial, trivial⟩
  case attemptEnds =>
    have hdoes := does_issue h Laws.exec_ngEnd rfl
    rwa [Dev.answered_endInsn] at hdoes

/-! ### The supervisor (R141, R159) -/

section
variable {s : State} {th : Fin 2048} {g : Guard} {c : Instr} {f : Dev → Thread → Iss}

/-- On the supervisor its instructions run. -/
theorem does_supInsn {t : Thread} {e : Dev} (h : s.dev.Issues th g) (hsup : s.dev.isSup th.val = true)
    (he : exec c s = s.on fun d => d.supInsn th g f) (hf : f s.dev (s.dev.past th 4) = .ok t e) : Does c s (e.setTh th.val t) :=
  does_issue_ok h he rfl ((if_pos hsup).trans hf)

/-- In a handler its instructions run. -/
theorem hndInsn_runs (hst : (s.dev.th th.val).st = .trapped) :
    (fun (d : Dev) (t : Thread) => if t.st == .trapped then f d t else .trap kPRIVILEGE) s.dev (s.dev.past th 4) =
      f s.dev (s.dev.past th 4) :=
  if_pos (beq_iff_eq.2 hst)

theorem does_hndInsn_done {e : Dev} (h : s.dev.Issues th g) (hst : (s.dev.th th.val).st = .trapped)
    (he : exec c s = s.on fun d => d.hndInsn th g f) (hf : f s.dev (s.dev.past th 4) = .done e) : Does c s e :=
  does_issue_done h he rfl ((hndInsn_runs hst).trans hf)

theorem leavesThread_hndInsn {t : Thread} (h : s.dev.Issues th g) (hst : (s.dev.th th.val).st = .trapped)
    (he : exec c s = s.on fun d => d.hndInsn th g f) (hf : f s.dev (s.dev.past th 4) = .ok t s.dev) : LeavesThread c s th t :=
  leavesThread_issue h he rfl ((hndInsn_runs hst).trans hf)

end

/-- Settles O13: FNPOP by the queue of notes, THCTL by its action and the state of the thread that it names, SSTD in shared LOCAL. -/
theorem supervisorInstructionsComplete : Obligations.SupervisorInstructionsComplete := by
  intro s th g rd ra rb h hsup
  refine ⟨fun hdst => ⟨fun hnone => ?empty, fun n rest hnote => ?note⟩, fun hy => ⟨fun hact => ?restart, fun hact => ?halt, fun hact => ?wake⟩,
    fun hregion hal => ?sstd⟩
  case empty =>
    refine does_supInsn h hsup Laws.exec_ngFnpop ?_
    rw [checked_ok _ _ (noFault_dstFaults.2 hdst), hnone]
  case note =>
    refine does_supInsn h hsup Laws.exec_ngFnpop ?_
    rw [checked_ok _ _ (noFault_dstFaults.2 hdst), hnote]
  case restart =>
    refine does_supInsn h hsup Laws.exec_ngThctl ?_
    rw [if_neg (by rw [hact]; simpa using hy), if_pos hact]
    cases hst : (s.dev.th (th.val / 128 * 128 + ((s.dev.past th 4).rg ra).toNat % 128)).st <;> rfl
  case halt =>
    refine does_supInsn h hsup Laws.exec_ngThctl ?_
    rw [if_neg (by rw [hact]; simpa using hy), if_neg (by rw [hact]; decide), if_pos hact]
    cases hst : (s.dev.th (th.val / 128 * 128 + ((s.dev.past th 4).rg ra).toNat % 128)).st <;> rfl
  case wake =>
    refine does_supInsn h hsup Laws.exec_ngThctl ?_
    rw [if_neg (by rw [hact]; simpa using hy), if_neg (by rw [hact]; decide), if_neg (by rw [hact]; decide)]
  case sstd =>
    refine does_supInsn h hsup Laws.exec_ngSstd ?_
    rw [checked_ok]
    simp [hregion, hal]

/-! ### Handlers (R142, R153, R154) -/

/-- Settles O14: the thread is in a handler; HRETRY and HSKIP go by the fault kind. -/
theorem handlerInstructionsComplete : Obligations.HandlerInstructionsComplete := by
  intro s th g rd ra h hst
  refine ⟨fun hkind => ⟨?retry, ?skip⟩, fun hkind => ⟨?retryEsc, ?skipEsc⟩, fun ha hdisp hsub => ?hdisc, ?hesc, ?rdfk⟩
  case retry => exact leavesThread_hndInsn h hst Laws.exec_ngHretry (if_neg hkind)
  case skip => exact leavesThread_hndInsn h hst Laws.exec_ngHskip (if_neg hkind)
  case retryEsc => exact does_hndInsn_done h hst Laws.exec_ngHretry (if_pos hkind)
  case skipEsc => exact does_hndInsn_done h hst Laws.exec_ngHskip (if_pos hkind)
  case hdisc =>
    refine does_hndInsn_done h hst Laws.exec_ngHdisc ?_
    simp only [if_neg (Nat.not_le.2 ha), discVerdictBad_eq_false hdisp hsub, hdisp, bits_zero, Bool.false_eq_true, if_false]
  case hesc => exact does_hndInsn_done h hst Laws.exec_ngHesc rfl
  case rdfk => exact leavesThread_hndInsn h hst Laws.exec_ngRdfk rfl

end Sys2Proof.Machine
end

section
/-!
SUPPORT. The tables' engine (07, 08): the entries of a table as its storage lists them, the free indices, the lookup of an EXACT table, and
what storing or removing one entry changes.
-/
namespace Sys2Proof.Machine

/-! ### Storage as a canonical list -/

section
variable {α : Type} {t : List (Nat × α)}

theorem mem_of_cellGet {k : Nat} {v : α} (h : cellGet t k = some v) : (k, v) ∈ t := by
  induction t with
  | nil => simp [cellGet] at h
  | cons c t ih =>
    obtain ⟨j, w⟩ := c
    simp only [cellGet] at h
    split at h
    · simp_all
    · exact List.mem_cons_of_mem _ (ih h)

/-- The canonical form lists rising keys. -/
theorem cellsWf_rising [DecidableEq α] {f : Nat → α} {lo : Option Nat} (h : cellsWf f lo t = true) :
    t.Pairwise (·.1 < ·.1) ∧ ∀ c ∈ t, above lo c.1 := by
  induction t generalizing lo with
  | nil => simp
  | cons c t ih =>
    obtain ⟨hlo, -, ht⟩ := (cellsWf_cons f lo c.1 c.2 t).1 h
    obtain ⟨hrise, habove⟩ := ih ht
    refine ⟨List.pairwise_cons.2 ⟨fun x hx => habove x hx _ rfl, hrise⟩, fun x hx => ?_⟩
    rcases List.mem_cons.1 hx with rfl | hx
    · exact hlo
    · exact fun l hl => Nat.lt_trans (hlo l hl) (habove x hx _ rfl)

theorem cellGet_of_mem {k : Nat} {v : α} (h : t.Pairwise (·.1 < ·.1)) (hm : (k, v) ∈ t) : cellGet t k = some v := by
  induction t with
  | nil => simp at hm
  | cons c t ih =>
    obtain ⟨hlt, hrise⟩ := List.pairwise_cons.1 h
    rcases List.mem_cons.1 hm with rfl | hm
    · exact if_pos rfl
    · exact (if_neg (Nat.ne_of_lt (hlt _ hm))).trans (ih hrise hm)

end

/-! ### The entries of a table -/

section
variable {d : Dev} {n i : Nat}

/-- Entries have one key each. -/
theorem entKey_inj {m j : Nat} (hi : i < 2 ^ 28) (hj : j < 2 ^ 28) : entKey m j = entKey n i ↔ m = n ∧ j = i := by
  unfold entKey
  omega

/-- A table lists the entries that it stores. -/
theorem mem_entriesOf {e : Entry} (h : d.tbl.entries.wf = true) : (i, e) ∈ d.entriesOf n ↔ i < 2 ^ 28 ∧ d.entry n i = some e := by
  simp only [Dev.entriesOf, List.mem_filterMap, Prod.exists]
  constructor
  · rintro ⟨k, o, hmem, hk⟩
    split at hk
    · next hn =>
      obtain ⟨x, rfl, hx⟩ := Option.map_eq_some_iff.1 hk
      obtain ⟨rfl, rfl⟩ := Prod.mk.injEq .. ▸ hx
      refine ⟨Nat.mod_lt _ (by decide), ?_⟩
      have hkey : entKey n (k % 2 ^ 28) = k := by
        unfold entKey
        omega
      simp only [Dev.entry, Tbl.get, hkey, cellGet_of_mem (cellsWf_rising h).1 hmem, Option.getD_some]
    · simp at hk
  · rintro ⟨hi, he⟩
    refine ⟨entKey n i, some e, ?_, ?_⟩
    · simp only [Dev.entry, Tbl.get] at he
      cases hc : cellGet d.tbl.entries.cells (entKey n i) with
      | none =>
        rw [hc] at he
        simp at he
      | some o =>
        rw [hc, Option.getD_some] at he
        exact he ▸ mem_of_cellGet hc
    · have hn : entKey n i / 2 ^ 28 = n ∧ entKey n i % 2 ^ 28 = i := by
        unfold entKey
        omega
      simp only [hn.1, hn.2, if_true, Option.map_some]

/-- The indices in use rise. -/
theorem entriesOf_rising (h : d.tbl.entries.wf = true) : ((d.entriesOf n).map (·.1)).Pairwise (· < ·) := by
  refine List.pairwise_map.2 (List.Pairwise.filterMap _ (fun a b hab x hx y hy => ?_) (cellsWf_rising h).1)
  split at hx
  · split at hy
    · obtain ⟨e, -, rfl⟩ := Option.map_eq_some_iff.1 hx
      obtain ⟨e', -, rfl⟩ := Option.map_eq_some_iff.1 hy
      simp only
      omega
    · simp at hy
  · simp at hx

/-! ### Free indices (R178) -/

theorem kthFree_le (l : List Nat) (k : Nat) : kthFree l k ≤ k + l.length := by
  induction l generalizing k with
  | nil => exact Nat.le_refl _
  | cons u t ih =>
    rw [kthFree, List.length_cons]
    split
    · have := ih (k + 1)
      omega
    · omega

theorem le_kthFree (l : List Nat) (k : Nat) : k ≤ kthFree l k := by
  induction l generalizing k with
  | nil => exact Nat.le_refl _
  | cons u t ih =>
    rw [kthFree]
    split
    · exact Nat.le_of_succ_le (ih (k + 1))
    · exact Nat.le_refl _

/-- The index taken is none of those in use. -/
theorem kthFree_not_mem (l : List Nat) (k : Nat) (h : l.Pairwise (· < ·)) : kthFree l k ∉ l := by
  induction l generalizing k with
  | nil => exact List.not_mem_nil
  | cons u t ih =>
    obtain ⟨hlt, hrise⟩ := List.pairwise_cons.1 h
    rw [kthFree, List.mem_cons, not_or]
    split
    · exact ⟨Nat.ne_of_gt (Nat.lt_of_lt_of_le (Nat.lt_succ_of_le ‹u ≤ k›) (le_kthFree t (k + 1))), ih (k + 1) hrise⟩
    · exact ⟨by omega, fun hk => by have := hlt _ hk; omega⟩

theorem newIndex_lt (h : (d.entriesOf n).length < d.get F.TABLE_DESC_CAP_CAPACITY n) :
    d.newIndex n < d.get F.TABLE_DESC_CAP_CAPACITY n := by
  simp only [Dev.newIndex, List.length_map]
  refine Nat.lt_of_le_of_lt (kthFree_le _ _) ?_
  rw [List.length_map, if_neg (by omega)]
  have hmod := Nat.mod_lt (Config.entryIndex n (d.tSeq n))
    (show 0 < d.get F.TABLE_DESC_CAP_CAPACITY n - (d.entriesOf n).length by omega)
  omega

theorem entry_newIndex (hwf : d.tbl.entries.wf = true) (h : d.newIndex n < 2 ^ 28) : d.entry n (d.newIndex n) = none := by
  have hfree : d.newIndex n ∉ (d.entriesOf n).map (·.1) := kthFree_not_mem _ _ (entriesOf_rising hwf)
  exact Option.eq_none_iff_forall_ne_some.2 fun e he =>
    hfree (List.mem_map_of_mem (f := (·.1)) ((mem_entriesOf hwf).2 ⟨h, he⟩))

/-! ### The lookup of an EXACT table (R174) -/

theorem matches_exact {e : Entry} {ex : Nat} {key : List Nat} : e.matches 0 ex key = true ↔ e.key = key := beq_iff_eq

theorem stored_exact {e : Entry} {key aux : List Nat} {plen prio : Nat} : e.stored 0 key aux plen prio = true ↔ e.key = key := beq_iff_eq

theorem tableFind_eq_none {key : List Nat} (hty : d.tType n = 0) (h : ∀ y ∈ d.entriesOf n, y.2.key ≠ key) : d.tableFind n key = none := by
  have hms : (d.entriesOf n).filter (fun e => e.2.matches 0 (d.get F.TABLE_DESC_CFG_EXACT_LEN n) key) = [] :=
    List.filter_eq_nil_iff.2 fun y hy hm => h y hy (matches_exact.1 hm)
  simp only [Dev.tableFind, hty, hms]

/-- A match that every other one equals is found. -/
theorem tableFind_eq_some {key : List Nat} {x : Nat × Entry} (hty : d.tType n = 0) (hx : x ∈ d.entriesOf n) (hkey : x.2.key = key)
    (h : ∀ y ∈ d.entriesOf n, y.2.key = key → y = x) : d.tableFind n key = some x := by
  simp only [Dev.tableFind, hty]
  generalize hms : (d.entriesOf n).filter (fun e => e.2.matches 0 (d.get F.TABLE_DESC_CFG_EXACT_LEN n) key) = ms
  have hmem : ∀ y, y ∈ ms ↔ y ∈ d.entriesOf n ∧ y.2.key = key := fun y => by
    rw [← hms, List.mem_filter, matches_exact]
  have hall : ∀ y ∈ ms, y = x := fun y hy => h y ((hmem y).1 hy).1 ((hmem y).1 hy).2
  have hin : x ∈ ms := (hmem x).2 ⟨hx, hkey⟩
  cases ms with
  | nil => simp at hin
  | cons m rest =>
    have hfold : ∀ l : List (Nat × Entry), l.foldl (better 0) m = m := fun l => by
      induction l with
      | nil => rfl
      | cons y l ih => exact ih
    exact congrArg some ((hfold rest).trans (hall m (List.mem_cons_self ..)))

theorem findStored_eq_some {key : List Nat} {x : Nat × Entry} (hty : d.tType n = 0) (hx : x ∈ d.entriesOf n) (hkey : x.2.key = key)
    (h : ∀ y ∈ d.entriesOf n, y.2.key = key → y = x) : d.findStored n key [] 0 0 = some x := by
  unfold Dev.findStored
  rw [hty]
  cases hf : (d.entriesOf n).find? (fun e => e.2.stored 0 key [] 0 0) with
  | none => exact absurd (stored_exact.2 hkey) (List.find?_eq_none.1 hf x hx)
  | some y => rw [h y (List.mem_of_find?_eq_some hf) (stored_exact.1 (List.find?_some (p := fun e : Nat × Entry => e.2.stored 0 key [] 0 0) hf))]

theorem key_ne_of_findStored {key : List Nat} (hty : d.tType n = 0) (h : d.findStored n key [] 0 0 = none) :
    ∀ y ∈ d.entriesOf n, y.2.key ≠ key := by
  intro y hy hkey
  rw [Dev.findStored, hty] at h
  exact List.find?_eq_none.1 h y hy (stored_exact.2 hkey)

end

/-! ### What a voided fill and a walk in flight leave alone -/

/-- Counting a WRAP64 counter writes no register but a block's header. -/
theorem Dev.count_wrap64_rd (d : Dev) {c : Ctr} (i n : Nat) {r : Reg} (j : Nat) (hc : c.cls = .wrap64) (h : r ≠ .BLK_STATUS) :
    (d.count c i n).rd r j = d.rd r j := by
  rw [Dev.count_wrap64 d c i n hc]
  split
  · rfl
  · exact Dev.rd_put_ne _ _ _ _ _ _ (Or.inl h)

theorem Dev.count_wrap64_tbl (d : Dev) {c : Ctr} (i n : Nat) (hc : c.cls = .wrap64) : (d.count c i n).tbl = d.tbl := by
  rw [Dev.count_wrap64 d c i n hc]
  split <;> rfl

section
variable {α : Type} {c : Ctr} (l : List α) (d : Dev) (hc : c.cls = .wrap64)
include hc

theorem foldl_count_rd {r : Reg} (j : Nat) (h : r ≠ .BLK_STATUS) : (l.foldl (fun d _ => d.count c) d).rd r j = d.rd r j := by
  induction l generalizing d with
  | nil => rfl
  | cons x l ih => exact (ih _).trans (d.count_wrap64_rd 0 1 j hc h)

theorem foldl_count_tbl : (l.foldl (fun d _ => d.count c) d).tbl = d.tbl := by
  induction l generalizing d with
  | nil => rfl
  | cons x l ih => exact (ih _).trans (d.count_wrap64_tbl 0 1 hc)

end

theorem Dev.voidFills_rd (d : Dev) (n i : Nat) (r : Reg) (j : Nat) (h : r ≠ .BLK_STATUS) : (d.voidFills n i).rd r j = d.rd r j := by
  unfold Dev.voidFills
  split
  · rfl
  · exact foldl_count_rd _ _ rfl j h

@[simp] theorem Dev.voidFills_entries (d : Dev) (n i : Nat) : (d.voidFills n i).tbl.entries = d.tbl.entries := by
  unfold Dev.voidFills
  split
  · rfl
  · simp only [foldl_count_tbl _ _ (show Ctr.TABLE_FILL_VOID_CNT.cls = .wrap64 from rfl)]

@[simp] theorem Dev.tableSeen_entries (d : Dev) (n : Nat) : (d.tableSeen n).tbl.entries = d.tbl.entries := rfl

@[simp] theorem Dev.tableSeen_rd (d : Dev) (n : Nat) (r : Reg) (j : Nat) : (d.tableSeen n).rd r j = d.rd r j := rfl

/-! ### Storing or removing one entry (R178) -/

/-- An entry's place takes `e`, with the WRITE_SEQ `v` and `k` entries in the table, and the walks in flight see it. -/
def Dev.placeEntry (d : Dev) (n i : Nat) (e : Option Entry) (v k : Nat) : Dev :=
  ((((d.setEntry n i e).wr .TABLE_DESC_SEQ n v).put F.TABLE_DESC_CAP_ENTRIES n k).voidFills n i).tableSeen n

section
variable (d : Dev) (n i : Nat) (e : Option Entry) (v k : Nat)

@[simp] theorem Dev.placeEntry_entries : (d.placeEntry n i e v k).tbl.entries = d.tbl.entries.set (entKey n i) e := by
  rw [Dev.placeEntry, Dev.tableSeen_entries, Dev.voidFills_entries, Dev.put_tbl, Dev.wr_tbl, Dev.setEntry]

theorem Dev.placeEntry_rd (r : Reg) (j : Nat) (h : r ≠ .BLK_STATUS) :
    (d.placeEntry n i e v k).rd r j = (((d.setEntry n i e).wr .TABLE_DESC_SEQ n v).put F.TABLE_DESC_CAP_ENTRIES n k).rd r j := by
  rw [Dev.placeEntry, Dev.tableSeen_rd, Dev.voidFills_rd _ _ _ _ _ h]

theorem Dev.placeEntry_wf (h : d.tbl.entries.wf = true) : (d.placeEntry n i e v k).tbl.entries.wf = true := by
  rw [Dev.placeEntry_entries]
  exact Tbl.set_wf _ _ _ h

theorem Dev.placeEntry_cfg (f : Fld) (j : Nat) (h : f.reg ≠ .BLK_STATUS ∧ f.reg ≠ .TABLE_DESC_SEQ ∧ f.reg ≠ .TABLE_DESC_CAP) :
    (d.placeEntry n i e v k).get f j = d.get f j := by
  obtain ⟨hblk, hseq, hcap⟩ := h
  unfold Dev.get
  rw [Dev.placeEntry_rd _ _ _ _ _ _ _ _ hblk, Dev.rd_put_ne _ _ _ _ _ _ (Or.inl hcap), Dev.rd_wr_ne _ _ _ _ _ _ (Or.inl hseq)]
  rfl

theorem Dev.placeEntry_tType : (d.placeEntry n i e v k).tType n = d.tType n := d.placeEntry_cfg n i e v k _ n (by decide)

theorem Dev.placeEntry_tValid : (d.placeEntry n i e v k).tValid n = d.tValid n :=
  congrArg (· == 1) (d.placeEntry_cfg n i e v k F.TABLE_DESC_CFG_VALID n (by decide))

theorem Dev.placeEntry_tSeq (h : v < 2 ^ 32) : (d.placeEntry n i e v k).tSeq n = v := by
  rw [Dev.tSeq, Dev.placeEntry_rd _ _ _ _ _ _ _ _ (by decide), Dev.rd_put_ne _ _ _ _ _ _ (Or.inl (by decide)), Dev.rd_wr_same]
  exact Nat.mod_eq_of_lt h

theorem Dev.placeEntry_tEntries (h : k < 2 ^ 28) : (d.placeEntry n i e v k).tEntries n = k := by
  rw [Dev.tEntries, Dev.get, Dev.placeEntry_rd _ _ _ _ _ _ _ _ (by decide)]
  exact (Dev.get_put_same _ F.TABLE_DESC_CAP_ENTRIES n k (by decide)).trans (Nat.mod_eq_of_lt h)

theorem Dev.placeEntry_entry_same : (d.placeEntry n i e v k).entry n i = e := by
  rw [Dev.entry, Dev.placeEntry_entries, Tbl.get_set_same]

theorem Dev.placeEntry_entry_ne {m j : Nat} (hi : i < 2 ^ 28) (hj : j < 2 ^ 28) (h : m ≠ n ∨ j ≠ i) :
    (d.placeEntry n i e v k).entry m j = d.entry m j := by
  rw [Dev.entry, Dev.placeEntry_entries, Tbl.get_set_ne]
  · rfl
  · exact fun hk => by
      obtain ⟨hm, hj⟩ := (entKey_inj hi hj).1 hk
      exact h.elim (· hm) (· hj)

end

section
variable {d : Dev} {n i : Nat} {key res : List Nat}

theorem plenOk_exact (hty : d.tType n = 0) (plen : Nat) : d.plenOk n plen = true := by
  simp only [Dev.plenOk, hty]
  rfl

/-- The registers that a handle and the entry count read are none that the WRITE_SEQ or an entry's storage changes. -/
theorem tEntries_wr_seq (e : Option Entry) (v : Nat) : ((d.setEntry n i e).wr .TABLE_DESC_SEQ n v).tEntries n = d.tEntries n :=
  congrArg (bits · 32 28) (Dev.rd_wr_ne _ _ _ _ _ _ (Or.inl (by decide)))

theorem handle_placed (e : Option Entry) (v k : Nat) :
    (((d.setEntry n i e).wr .TABLE_DESC_SEQ n v).put F.TABLE_DESC_CAP_ENTRIES n k).handle n i = d.handle n i := by
  have hcfg : ∀ (f : Fld) (j : Nat), f.reg ≠ .TABLE_DESC_SEQ → f.reg ≠ .TABLE_DESC_CAP →
      (((d.setEntry n i e).wr .TABLE_DESC_SEQ n v).put F.TABLE_DESC_CAP_ENTRIES n k).get f j = d.get f j := fun f j hseq hcap => by
    rw [Dev.get, Dev.rd_put_ne _ _ _ _ _ _ (Or.inl hcap), Dev.rd_wr_ne _ _ _ _ _ _ (Or.inl hseq)]
    rfl
  rw [Dev.handle, Dev.handle, Dev.tScope, Dev.tScope, hcfg _ _ (by decide) (by decide), hcfg _ _ (by decide) (by decide)]

/-- The engine's INSERT where it has no fault (R193). -/
theorem tableOp_insert (hvalid : d.tValid n = true) (hty : d.tType n = 0) (hnone : d.findStored n key [] 0 0 = none)
    (hfit : d.flag F.TABLE_DESC_CFG_UNFIT n = false) (hcap : d.tEntries n < d.get F.TABLE_DESC_CAP_CAPACITY n) :
    d.tableOp (.insert n key [] 0 0 res) =
      (d.placeEntry n (d.newIndex n) (some { key := key, plen := 0, prio := 0, res := res, vtag := nextSeq (d.tSeq n) }) (nextSeq (d.tSeq n))
        (d.tEntries n + 1), { handle := d.handle n (d.newIndex n), vtag := nextSeq (d.tSeq n) }) := by
  have hkey : storedKey 0 0 key = key := rfl
  simp only [Dev.tableOp, TOp.table, hvalid, Dev.tableInsert, plenOk_exact hty, hnone, hfit, hty, hkey, decide_eq_false (Nat.not_le.2 hcap),
    handle_placed, Bool.not_true, Bool.or_false, Bool.false_eq_true, Option.isSome_none, if_true, if_false, tOK]
  rfl

/-- The engine's DELETE of an entry that it finds (R193). -/
theorem tableOp_delete {e : Entry} (hvalid : d.tValid n = true) (hty : d.tType n = 0) (hsome : d.findStored n key [] 0 0 = some (i, e))
    (hkept : e.keyLost = false) :
    d.tableOp (.delete n key [] 0 0) =
      (d.placeEntry n i none (nextSeq (d.tSeq n)) (d.tEntries n - 1),
        { handle := d.handle n i, vtag := nextSeq (d.tSeq n), old := e }) := by
  simp only [Dev.tableOp, TOp.table, hvalid, Dev.tableDelete, plenOk_exact hty, hsome, hkept, handle_placed, tEntries_wr_seq, Bool.not_true,
    Bool.false_eq_true, if_true, if_false, tOK]
  rfl

end

/-! ### INSERT, lookup and DELETE together -/

theorem nextSeq_lt {v : Nat} (h : v < 2 ^ 32) : nextSeq v < 2 ^ 32 := by
  unfold nextSeq
  split <;> omega

section
variable {d : Dev} {n i v k : Nat} {x : Entry} (hwf : d.tbl.entries.wf = true) (hi : i < 2 ^ 28)
include hwf hi

theorem mem_entriesOf_placed : (i, x) ∈ (d.placeEntry n i (some x) v k).entriesOf n :=
  (mem_entriesOf (d.placeEntry_wf n i _ v k hwf)).2 ⟨hi, d.placeEntry_entry_same n i _ v k⟩

/-- What a table lists after an entry's place was written is that entry, or was listed before at another place. -/
theorem entriesOf_placed {e : Option Entry} {y : Nat × Entry} (hy : y ∈ (d.placeEntry n i e v k).entriesOf n) :
    (y.1 = i ∧ e = some y.2) ∨ (y.1 ≠ i ∧ y ∈ d.entriesOf n) := by
  obtain ⟨hlt, hentry⟩ := (mem_entriesOf (d.placeEntry_wf n i e v k hwf)).1 hy
  by_cases h : y.1 = i
  · rw [h, Dev.placeEntry_entry_same] at hentry
    exact .inl ⟨h, hentry⟩
  · rw [Dev.placeEntry_entry_ne d n i e v k hi hlt (.inr h)] at hentry
    exact .inr ⟨h, (mem_entriesOf hwf).2 ⟨hlt, hentry⟩⟩

/-- A key that no entry had is the new entry's alone. -/
theorem placed_unique (hfresh : ∀ y ∈ d.entriesOf n, y.2.key ≠ x.key) :
    ∀ y ∈ (d.placeEntry n i (some x) v k).entriesOf n, y.2.key = x.key → y = (i, x) := by
  intro y hy hkey
  rcases entriesOf_placed hwf hi hy with ⟨hidx, hx⟩ | ⟨-, hold⟩
  · exact Prod.ext hidx (Option.some.inj hx).symm
  · exact absurd hkey (hfresh y hold)

/-- With its one entry removed a key is no entry's. -/
theorem removed_fresh {key : List Nat} (huniq : ∀ y ∈ d.entriesOf n, y.2.key = key → y = (i, x)) :
    ∀ y ∈ (d.placeEntry n i none v k).entriesOf n, y.2.key ≠ key := by
  intro y hy hkey
  rcases entriesOf_placed hwf hi hy with ⟨-, hx⟩ | ⟨hidx, hold⟩
  · cases hx
  · exact hidx (congrArg Prod.fst (huniq y hold hkey))

end

/-- Settles O32. The new index is free, so the other entries keep their places and none of them has the key. -/
theorem insertedEntryIsFound : Obligations.InsertedEntryIsFound := by
  intro d n key res hn hvalid hty hnone hfit hcap hcapLe hlen hseq hwf
  have hi : d.newIndex n < d.get F.TABLE_DESC_CAP_CAPACITY n := newIndex_lt (hlen ▸ hcap)
  have hi28 : d.newIndex n < 2 ^ 28 := Nat.lt_of_lt_of_le hi hcapLe
  have hfree : d.entry n (d.newIndex n) = none := entry_newIndex hwf hi28
  have hv : nextSeq (d.tSeq n) < 2 ^ 32 := nextSeq_lt hseq
  have hk : d.tEntries n + 1 < 2 ^ 28 := Nat.lt_of_le_of_lt hcap (bits_lt _ 0 28)
  rw [tableOp_insert hvalid hty hnone hfit hcap]
  generalize d.newIndex n = i at *
  intro r i' x
  have hrty : r.1.tType n = 0 := (d.placeEntry_tType n i (some x) _ _).trans hty
  have hmem : (i, x) ∈ r.1.entriesOf n := mem_entriesOf_placed hwf hi28
  have huniq : ∀ y ∈ r.1.entriesOf n, y.2.key = key → y = (i, x) := placed_unique hwf hi28 (key_ne_of_findStored hty hnone)
  have hrseq : r.1.tSeq n = nextSeq (d.tSeq n) := d.placeEntry_tSeq _ _ _ _ _ hv
  have hrcount : r.1.tEntries n = d.tEntries n + 1 := d.placeEntry_tEntries _ _ _ _ _ hk
  have hrwf : r.1.tbl.entries.wf = true := d.placeEntry_wf _ _ _ _ _ hwf
  have hdelete := tableOp_delete ((d.placeEntry_tValid n i (some x) _ _).trans hvalid) hrty (findStored_eq_some hrty hmem rfl huniq) rfl
  refine ⟨rfl, rfl, hfree, hi, d.placeEntry_entry_same .., tableFind_eq_some hrty hmem rfl huniq, hrcount, hrseq,
    fun m j hne hj => d.placeEntry_entry_ne _ _ _ _ _ hi28 hj hne, ?_⟩
  intro q
  have hq : q = _ := hdelete
  rw [hrseq, hrcount] at hq
  rw [hq]
  exact ⟨rfl, rfl, tableFind_eq_none ((r.1.placeEntry_tType n i none _ _).trans hrty) (removed_fresh hrwf hi28 huniq),
    r.1.placeEntry_tEntries _ _ _ _ _ (Nat.lt_of_succ_lt hk)⟩

end Sys2Proof.Machine
end

section
/-!
SUPPORT. Register conventions (03): the header of ignored accesses, locked registers, register accesses, and the statistics epoch.
-/
namespace Sys2Proof.Machine

/-! ### Commands where their island is up and the device is live -/

section
variable {c : Instr} {s : State} {n : Nat} {f : Dev → Dev} {e : Dev}

theorem does_on (he : exec c s = s.on f) (hf : f s.dev = e) : Does c s e := by
  rw [Does, he, State.on_eq, hf]

/-- A command of island `n`. -/
theorem does_onIsland (he : exec c s = s.on fun d => d.onIsland n f) (hup : s.dev.isUp n = true) (hf : f s.dev = e) : Does c s e :=
  does_on he ((Dev.onIsland_up _ _ _ hup).trans hf)

/-- A register write with a row of its own. -/
theorem does_byWrite {r : Reg} {i : Nat} (he : exec c s = s.on fun d => d.onIsland n fun d => d.byWrite r i f) (hup : s.dev.isUp n = true)
    (hlive : s.dev.halted = false) (hf : f s.dev = e) : Does c s e :=
  does_onIsland he hup ((Dev.byWrite_live _ _ _ _ hlive).trans hf)

end

/-! ### The record of an ignored access (R73) -/

section
variable (d : Dev) (h off cause : Nat)

/-- IGNORED, LAST_CAUSE and LAST_ADDR of the header. -/
def Dev.ignoredNoted : Dev :=
  ((d.put F.BLK_STATUS_IGNORED h 1).put F.BLK_STATUS_LAST_CAUSE h cause).put F.BLK_LAST_ADDR_OFFSET h off

/-- What an ignored access writes beside its count: it may set SAT and raise the event of a count that has come to its end. -/
theorem Dev.ignoredAt_eq : d.ignoredAt h off cause =
    if d.get F.BLK_IGNORED_COUNT h = 0xFFFF then d.ignoredNoted h off cause
    else if d.get F.BLK_IGNORED_COUNT h + 1 = 0xFFFF then
      (if h < 64 then
        (((d.ignoredNoted h off cause).put F.BLK_IGNORED_COUNT h (d.get F.BLK_IGNORED_COUNT h + 1)).put F.BLK_STATUS_SAT h 1).raiseLocal
          (if h < 16 then h else blkIsland (h - 15)) 47 (hdrBlk h) 0x10
      else
        (((d.ignoredNoted h off cause).put F.BLK_IGNORED_COUNT h (d.get F.BLK_IGNORED_COUNT h + 1)).put F.BLK_STATUS_SAT h 1).raiseInst
          0x3F (h % 4096 - 64) (hdrBlk h) 0x10)
    else (d.ignoredNoted h off cause).put F.BLK_IGNORED_COUNT h (d.get F.BLK_IGNORED_COUNT h + 1) := rfl

/-- A field that neither the count nor SAT changes is as IGNORED, LAST_CAUSE and LAST_ADDR leave it. -/
theorem Dev.ignoredAt_get (f : Fld) (j : Nat) (hcount : f.reg ≠ .BLK_IGNORED)
    (hsat : f.reg ≠ .BLK_STATUS ∨ (f.lo + f.w ≤ f.reg.width ∧ (f.lo + f.w ≤ 2 ∨ 3 ≤ f.lo))) :
    (d.ignoredAt h off cause).get f j = (d.ignoredNoted h off cause).get f j := by
  have hsat' : ∀ e : Dev, (e.put F.BLK_STATUS_SAT h 1).get f j = e.get f j := fun e =>
    Dev.get_put_ne _ _ _ _ _ _ (hsat.imp id Or.inr)
  have hcount' : ∀ (e : Dev) (v : Nat), (e.put F.BLK_IGNORED_COUNT h v).get f j = e.get f j := fun e v =>
    Dev.get_put_ne _ _ _ _ _ _ (.inl hcount)
  rw [Dev.ignoredAt_eq]
  split
  · rfl
  · split
    · split
      · rw [Dev.raiseLocal_get, hsat', hcount']
      · rw [Dev.raiseInst_get, hsat', hcount']
    · exact hcount' _ _

/-- The access is counted up to the end of the count. -/
theorem Dev.ignoredAt_count :
    (d.ignoredAt h off cause).get F.BLK_IGNORED_COUNT h = min 0xFFFF (d.get F.BLK_IGNORED_COUNT h + 1) := by
  have hlt : d.get F.BLK_IGNORED_COUNT h < 2 ^ 16 := bits_lt _ 0 16
  have hnoted : (d.ignoredNoted h off cause).get F.BLK_IGNORED_COUNT h = d.get F.BLK_IGNORED_COUNT h := by
    rw [Dev.ignoredNoted, Dev.get_put_ne _ _ _ _ _ _ (.inl (by decide)), Dev.get_put_ne _ _ _ _ _ _ (.inl (by decide)),
      Dev.get_put_ne _ _ _ _ _ _ (.inl (by decide))]
  have hcount : ∀ (e : Dev) (v : Nat), v < 2 ^ 16 → (e.put F.BLK_IGNORED_COUNT h v).get F.BLK_IGNORED_COUNT h = v := fun e v hv =>
    (Dev.get_put_same e F.BLK_IGNORED_COUNT h v (by decide)).trans (Nat.mod_eq_of_lt hv)
  have hsat : ∀ e : Dev, (e.put F.BLK_STATUS_SAT h 1).get F.BLK_IGNORED_COUNT h = e.get F.BLK_IGNORED_COUNT h := fun e =>
    Dev.get_put_ne _ _ _ _ _ _ (.inl (by decide))
  rw [Dev.ignoredAt_eq]
  split
  case isTrue hmax =>
    rw [hnoted, hmax]
    rfl
  case isFalse hmax =>
    have hnew : d.get F.BLK_IGNORED_COUNT h + 1 < 2 ^ 16 := by omega
    have hmin : min 0xFFFF (d.get F.BLK_IGNORED_COUNT h + 1) = d.get F.BLK_IGNORED_COUNT h + 1 := by omega
    rw [hmin]
    split
    · split
      · rw [Dev.raiseLocal_get, hsat, hcount _ _ hnew]
      · rw [Dev.raiseInst_get, hsat, hcount _ _ hnew]
    · exact hcount _ _ hnew

theorem Dev.ignoredAt_ignored : (d.ignoredAt h off cause).get F.BLK_STATUS_IGNORED h = 1 := by
  rw [Dev.ignoredAt_get _ _ _ _ _ _ (by decide) (.inr (by decide)), Dev.ignoredNoted, Dev.get_put_ne _ _ _ _ _ _ (.inl (by decide)),
    Dev.get_put_ne _ _ _ _ _ _ (.inr (.inr (by decide))), Dev.get_put_same _ _ _ _ (by decide)]
  rfl

theorem Dev.ignoredAt_cause (hcause : cause < 16) : (d.ignoredAt h off cause).get F.BLK_STATUS_LAST_CAUSE h = cause := by
  rw [Dev.ignoredAt_get _ _ _ _ _ _ (by decide) (.inr (by decide)), Dev.ignoredNoted, Dev.get_put_ne _ _ _ _ _ _ (.inl (by decide)),
    Dev.get_put_same _ _ _ _ (by decide)]
  exact Nat.mod_eq_of_lt hcause

theorem Dev.ignoredAt_offset : (d.ignoredAt h off cause).get F.BLK_LAST_ADDR_OFFSET h = off % 2 ^ F.BLK_LAST_ADDR_OFFSET.w := by
  rw [Dev.ignoredAt_get _ _ _ _ _ _ (by decide) (.inl (by decide)), Dev.ignoredNoted, Dev.get_put_same _ _ _ _ (by decide)]

end

/-- Settles O17: each field of the header that an ignored access writes. -/
theorem ignoredAccessIsRecorded : Obligations.IgnoredAccessIsRecorded := by
  intro d h off cause hcause
  exact ⟨d.ignoredAt_ignored h off cause, d.ignoredAt_cause h off cause (by omega), d.ignoredAt_offset h off cause,
    d.ignoredAt_count h off cause⟩

/-- No other register is written. -/
theorem Dev.ignoredAt_rd (d : Dev) (h off cause : Nat) {r : Reg} (j : Nat) (hstatus : r ≠ .BLK_STATUS) (hcount : r ≠ .BLK_IGNORED)
    (haddr : r ≠ .BLK_LAST_ADDR) : (d.ignoredAt h off cause).rd r j = d.rd r j := by
  have hnoted : (d.ignoredNoted h off cause).rd r j = d.rd r j := by
    rw [Dev.ignoredNoted, Dev.rd_put_ne _ _ _ _ _ _ (.inl haddr), Dev.rd_put_ne _ _ _ _ _ _ (.inl hstatus),
      Dev.rd_put_ne _ _ _ _ _ _ (.inl hstatus)]
  have hput : ∀ (e : Dev) (v : Nat), (e.put F.BLK_IGNORED_COUNT h v).rd r j = e.rd r j := fun e v =>
    Dev.rd_put_ne _ _ _ _ _ _ (.inl hcount)
  have hsat : ∀ e : Dev, (e.put F.BLK_STATUS_SAT h 1).rd r j = e.rd r j := fun e => Dev.rd_put_ne _ _ _ _ _ _ (.inl hstatus)
  rw [Dev.ignoredAt_eq]
  split
  · exact hnoted
  · split
    · split
      · rw [Dev.raiseLocal_rd, hsat, hput, hnoted]
      · rw [Dev.raiseInst_rd, hsat, hput, hnoted]
    · rw [hput, hnoted]

/-! ### A write of a locked register (R72) -/

section
variable {d : Dev} {r : Reg} {i v be : Nat}

/-- An RWL field of a locked register keeps its value: the write is noted as LOCKED where it reaches the field. -/
theorem FieldRow.merge_rwl_locked {f : FieldRow} (hacc : f.acc = .rwl) (old m : Nat) (a : WriteAcc) :
    f.merge old v m true none a = if bits m f.lo f.w = 0 then a else { a with locked := true } := by
  simp only [FieldRow.merge, hacc, if_true]

/-- A write of a register that is all RWL fields, locked, over those fields. -/
theorem foldl_merge_locked (l : List FieldRow) (hacc : ∀ f ∈ l, f.acc = .rwl) (old m : Nat) (a : WriteAcc) :
    l.foldl (fun a f => f.merge old v m true (cellGet [] f.lo) a) a =
      if ∀ f ∈ l, bits m f.lo f.w = 0 then a else { a with locked := true } := by
  induction l generalizing a with
  | nil => simp
  | cons f l ih =>
    have hmerge : f.merge old v m true (cellGet [] f.lo) a = _ := FieldRow.merge_rwl_locked (hacc f (List.mem_cons_self ..)) old m a
    rw [List.foldl_cons, ih fun g hg => hacc g (List.mem_cons_of_mem _ hg), hmerge]
    simp only [List.mem_cons, forall_eq_or_imp]
    by_cases hf : bits m f.lo f.w = 0
    · simp only [hf, if_true, true_and]
    · simp only [hf, if_false, false_and, ite_self]

/-- Such a write leaves the register's value, and is an ignored access where it reached a field. -/
theorem writeFields_locked (hlock : d.regLocked r i = true) (hacc : ∀ f ∈ r.fields, f.acc = .rwl)
    (hbase : r ≠ .QE_LEDGER_BASE) (hsize : r ≠ .QE_LEDGER_SIZE) :
    d.writeFields r i v be [] = if ∀ f ∈ r.fields, bits (beMask be) f.lo f.w = 0 then d.wr r i (d.rd r i)
      else (d.wr r i (d.rd r i)).ignored r i cLOCKED := by
  simp only [Dev.writeFields, Dev.writeWith, hlock, beq_eq_false_iff_ne.2 hbase, beq_eq_false_iff_ne.2 hsize, Bool.or_false, Bool.and_false,
    Bool.false_eq_true, if_false, foldl_merge_locked r.fields hacc]
  split <;> rfl

end

/-- Settles O16. A register of RWL fields is none of the header's, so the record of the ignored access leaves it alone. -/
theorem lockedRegisterKeepsItsValue : Obligations.LockedRegisterKeepsItsValue := by
  intro d r i v be hlock hne hacc hbase hsize
  have hheader : r ≠ .BLK_STATUS ∧ r ≠ .BLK_IGNORED ∧ r ≠ .BLK_LAST_ADDR := by
    refine ⟨?_, ?_, ?_⟩ <;> rintro rfl <;> exact absurd hacc (by decide)
  obtain ⟨hstatus, hcount, haddr⟩ := hheader
  refine ⟨fun hreach => ?_, fun hnone => ?_⟩
  · obtain ⟨f, hf⟩ := List.exists_mem_of_ne_nil _ hne
    rw [writeFields_locked hlock hacc hbase hsize, if_neg fun h => hreach f hf (h f hf)]
    refine ⟨?_, Dev.ignoredAt_ignored .., Dev.ignoredAt_cause _ _ _ _ (by decide), ?_⟩
    · exact (Dev.ignoredAt_rd _ _ _ _ i hstatus hcount haddr).trans (Dev.rd_wr_same ..)
    · exact (Dev.ignoredAt_count ..).trans
        (congrArg (fun x => min 0xFFFF (bits x 0 16 + 1)) (Dev.rd_wr_ne _ _ _ _ _ _ (.inl (Ne.symm hcount))))
  · rw [writeFields_locked hlock hacc hbase hsize, if_pos hnone]
    exact ⟨Dev.rd_wr_same .., fun r' j h => Dev.rd_wr_ne _ _ _ _ _ _ h⟩

/-! ### Register accesses -/

/-- Settles O18. -/
theorem registerAccessesComplete : Obligations.RegisterAccessesComplete := by
  intro s q t v
  refine ⟨fun pod j hup => ⟨?rc, fun hq => ?rcOther⟩, fun hup => ⟨?low, fun l hl htag => ?high, fun hl => ?live, ?wlow, fun l hl htag => ?whigh,
    fun hl => ?walone⟩, fun w a hup hlive hst hseq => ?ack, fun f hup => ⟨?rwrite, ?rread⟩, fun x be hw i hup hlive hi => ?write⟩
  case rc => exact does_onIsland Laws.exec_rcRead hup (if_pos rfl)
  case rcOther => exact does_onIsland Laws.exec_rcRead hup (if_neg hq)
  case low => exact does_onIsland Laws.exec_halfReadLow hup rfl
  case high =>
    refine does_onIsland Laws.exec_halfReadHigh hup ?_
    simp only [hl, htag, if_true]
    rfl
  case live =>
    refine does_onIsland Laws.exec_halfReadHigh hup ?_
    cases hlatch : s.dev.rlatch.get (latchKey t q) with
    | none => rfl
    | some l => exact if_neg (hl l hlatch)
  case wlow => exact does_onIsland Laws.exec_halfWriteLow hup rfl
  case whigh =>
    refine does_onIsland Laws.exec_halfWriteHigh hup ?_
    simp only [hl, htag, if_true]
  case walone =>
    refine does_onIsland Laws.exec_halfWriteHigh hup ?_
    cases hlatch : s.dev.wlatch.get (latchKey t q) with
    | none => rfl
    | some l => exact if_neg (hl l hlatch)
  case ack =>
    refine does_onIsland Laws.exec_resultAck hup ?_
    simp only [hlive, Bool.false_and, Bool.false_eq_true, if_false, hst, hseq, and_self, if_true]
  case rwrite => exact does_onIsland Laws.exec_reservedAccess hup rfl
  case rread => exact does_onIsland Laws.exec_reservedAccess hup rfl
  case write =>
    have hports : ∀ n : Fin 32, Reg.has .TM_PORT_HOLD n.val = true := by decide
    have hhas : Reg.has .TM_PORT_HOLD i = true := hports ⟨i, hi⟩
    have hreach : s.dev.reach? .steward .TM_PORT_HOLD i = .ok := by
      simp only [Dev.reach?, hhas, Bool.not_true, Bool.false_eq_true, if_false]
    refine does_onIsland (n := 21) Laws.exec_registerWrite hup ?_
    simp only [hlive, Bool.false_and, Bool.false_eq_true, if_false, hreach]
    exact if_neg fun h => h.2 rfl

/-! ### The statistics epoch (R80 to R84) -/

/-- The passing of time writes TIME.DTB and no other part of the device. -/
@[simp] theorem Dev.reach_epoch (d : Dev) (t : Nat) : (d.reach t).epoch = d.epoch := by
  unfold Dev.reach
  split
  · rw [Dev.setDtb, Dev.wr_epoch]
  · rfl

@[simp] theorem Dev.reach_ctrs (d : Dev) (t : Nat) : (d.reach t).ctrs = d.ctrs := by
  unfold Dev.reach
  split
  · rw [Dev.setDtb, Dev.wr_ctrs]
  · rfl

theorem Dev.reach_rd (d : Dev) (t : Nat) {r : Reg} (i : Nat) (h : r ≠ .TIME_DTB) : (d.reach t).rd r i = d.rd r i := by
  unfold Dev.reach
  split
  · exact Dev.rd_wr_ne _ _ _ _ _ _ (.inl h)
  · rfl

theorem Dev.get_wr_ne (d : Dev) (r : Reg) (f : Fld) (i j v : Nat) (h : f.reg ≠ r) : (d.wr r i v).get f j = d.get f j :=
  congrArg (bits · f.lo f.w) (Dev.rd_wr_ne _ _ _ _ _ _ (.inl h))

/-- A switch request outside a closing window sets T_sw 500 ns ahead. -/
theorem epochRequest_eq {d : Dev} (hsw : d.flag F.STATS_EPOCH_CTL_SWITCH = false) (hcl : d.flag F.STATS_EPOCH_CTL_CLOSING = false) :
    d.epochRequest = { d.put F.STATS_EPOCH_CTL_SWITCH 0 1 with epoch := { d.epoch with tsw := some (d.mono + 500) } } := by
  have hkept : (d.put F.STATS_EPOCH_CTL_SWITCH 0 1).flag F.STATS_EPOCH_CTL_CLOSING = false :=
    (congrArg (· == 1) (Dev.get_put_ne _ _ _ _ _ _ (.inr (.inr (by decide))))).trans hcl
  simp only [Dev.epochRequest, hsw, hkept, Bool.false_eq_true, if_false]
  rfl

/-- Settles O19. -/
theorem statisticsEpochCompletes : Obligations.StatisticsEpochCompletes := by
  intro s
  refine ⟨fun hup hlive hsw hcl => ⟨?steward, ?pf0⟩, fun hup hper htsw hheld => ?period, fun t ht => ?instant, fun t ht hcl hheld => ?close,
    fun c i n issued hup => ⟨fun h => ?opened, fun t hb ht => ⟨fun hi => ?after, fun hi hcl => ?both, fun hi hcl => ?late⟩⟩⟩
  case steward => exact does_byWrite Laws.exec_epochSwitchRequest hup hlive (epochRequest_eq hsw hcl)
  case pf0 => exact does_byWrite Laws.exec_epochSwitchRequest hup hlive (epochRequest_eq hsw hcl)
  case period =>
    refine does_onIsland Laws.exec_epochPeriodExpiry hup ?_
    simp only [hper, htsw, hheld, Option.isSome_none, Bool.false_eq_true, or_self, if_false]
  case instant =>
    refine ⟨_, does_on Laws.exec_epochSwitchInstant (by simp only [ht]; exact rfl), ?_, ?_, ?_, ?_, ?_, ?_⟩
    · rw [Dev.wr_closed, Dev.put_closed, Dev.put_closed, Dev.put_closed, Dev.put_closed, Dev.reach_ctrs]
    · rw [Dev.wr_ctrs, Dev.put_ctrs, Dev.put_ctrs, Dev.put_ctrs, Dev.put_ctrs, Dev.reach_ctrs]
    · rw [Dev.wr_epoch, Dev.put_epoch, Dev.put_epoch, Dev.put_epoch, Dev.put_epoch, Dev.reach_epoch]
    · refine congrArg (· == 1) (?_ : _ = 1)
      rw [Dev.get_wr_ne _ _ _ _ _ _ (by decide), Dev.get_put_ne _ _ _ _ _ _ (.inr (.inr (by decide))),
        Dev.get_put_ne _ _ _ _ _ _ (.inr (.inr (by decide))), Dev.get_put_same _ _ _ _ (by decide)]
      rfl
    · refine congrArg (· == 1) (?_ : _ = 0)
      rw [Dev.get_wr_ne _ _ _ _ _ _ (by decide), Dev.get_put_ne _ _ _ _ _ _ (.inr (.inr (by decide))),
        Dev.get_put_ne _ _ _ _ _ _ (.inr (.inr (by decide))), Dev.get_put_ne _ _ _ _ _ _ (.inr (.inr (by decide))),
        Dev.get_put_same _ _ _ _ (by decide)]
      rfl
    · rw [Dev.get_wr_ne _ _ _ _ _ _ (by decide), Dev.get_put_same _ _ _ _ (by decide), Dev.get_put_ne _ _ _ _ _ _ (.inr (.inr (by decide))),
        Dev.get_put_ne _ _ _ _ _ _ (.inr (.inr (by decide))), Dev.get_put_ne _ _ _ _ _ _ (.inr (.inr (by decide)))]
      exact congrArg (fun x => (bits x 4 28 + 1) % 2 ^ 28) (Dev.reach_rd _ _ _ (by decide))
  case close =>
    refine does_on Laws.exec_epochClose ?_
    have hkept : (s.dev.reach (t + 2000)).epoch.held = false := by rw [Dev.reach_epoch, hheld]
    simp only [ht, hcl, if_true]
    exact if_neg (by rw [Dev.raiseLocal_epoch, Dev.put_epoch, Dev.put_epoch, hkept]; exact Bool.false_ne_true)
  case opened =>
    refine does_onIsland Laws.exec_counterUpdate hup ?_
    rcases h with h | h
    · simp only [h, Bool.not_false, if_true]
    · simp only [h, ite_self]
  case after =>
    refine does_onIsland Laws.exec_counterUpdate hup ?_
    simp only [hb, ht, Bool.not_true, Bool.false_eq_true, if_false, if_neg (Nat.not_lt.2 hi)]
  case both =>
    refine does_onIsland Laws.exec_counterUpdate hup ?_
    simp only [hb, ht, hcl, hi, Bool.not_true, Bool.false_eq_true, if_false, if_true]
  case late =>
    refine does_onIsland Laws.exec_counterUpdate hup ?_
    simp only [hb, ht, hcl, hi, Bool.not_true, Bool.false_eq_true, if_false, if_true]

end Sys2Proof.Machine
end

section
/-!
SUPPORT. Silkway (01): the home pair and the route of two islands, the hold of a failed router, and the events of the mesh.
-/
namespace Sys2Proof.Machine

/-! ### The nearest router of a list in rising order (R19) -/

/-- Router `a` is before router `r` towards `q`: fewer hops, or as many and the lower ID. -/
def NearerOrSame (q a r : Nat) : Prop := routerHops a q < routerHops r q ∨ routerHops a q = routerHops r q ∧ a ≤ r

theorem NearerOrSame.refl (q a : Nat) : NearerOrSame q a a := .inr ⟨rfl, Nat.le_refl a⟩

theorem NearerOrSame.trans {q a b c : Nat} (hab : NearerOrSame q a b) (hbc : NearerOrSame q b c) : NearerOrSame q a c := by
  unfold NearerOrSame at *
  omega

/-- One step of the search for the nearest router. -/
def nearestStep (q : Nat) (a : Option Nat) (r : Nat) : Option Nat :=
  match a with
  | none => some r
  | some b => if routerHops r q < routerHops b q then some r else some b

/-- From a router below all of a rising list the search ends at a nearest one. -/
theorem foldl_nearestStep (q a : Nat) (l : List Nat) (h : (a :: l).Pairwise (· < ·)) :
    ∃ b ∈ a :: l, l.foldl (nearestStep q) (some a) = some b ∧ ∀ r ∈ a :: l, NearerOrSame q b r := by
  induction l generalizing a with
  | nil => exact ⟨a, List.mem_cons_self .., rfl, fun r hr => (List.mem_singleton.1 hr) ▸ .refl q r⟩
  | cons c l ih =>
    obtain ⟨hlt, hrise⟩ := List.pairwise_cons.1 h
    obtain ⟨hltc, hrise'⟩ := List.pairwise_cons.1 hrise
    have hac : a < c := hlt c (List.mem_cons_self ..)
    by_cases hc : routerHops c q < routerHops a q
    · obtain ⟨b, hb, hfold, hall⟩ := ih c hrise
      refine ⟨b, List.mem_cons_of_mem _ hb, (congrArg (List.foldl (nearestStep q) · l) (if_pos hc)).trans hfold, fun r hr => ?_⟩
      rcases List.mem_cons.1 hr with rfl | hr
      · exact (hall c (List.mem_cons_self ..)).trans (.inl hc)
      · exact hall r hr
    · obtain ⟨b, hb, hfold, hall⟩ := ih a (List.pairwise_cons.2 ⟨fun x hx => hlt x (List.mem_cons_of_mem _ hx), hrise'⟩)
      have hbmem : b ∈ a :: c :: l := by
        rcases List.mem_cons.1 hb with rfl | hb
        · exact List.mem_cons_self ..
        · exact List.mem_cons_of_mem _ (List.mem_cons_of_mem _ hb)
      refine ⟨b, hbmem, (congrArg (List.foldl (nearestStep q) · l) (if_neg hc)).trans hfold, fun r hr => ?_⟩
      rcases List.mem_cons.1 hr with rfl | hr
      · exact hall r (List.mem_cons_self ..)
      · rcases List.mem_cons.1 hr with rfl | hr
        · exact (hall a (List.mem_cons_self ..)).trans (by unfold NearerOrSame; omega)
        · exact hall r (List.mem_cons_of_mem _ hr)

theorem nearestRouter_spec (q : Nat) (l : List Nat) (hne : l ≠ []) (h : l.Pairwise (· < ·)) :
    nearestRouter l q ∈ l ∧ ∀ r ∈ l, NearerOrSame q (nearestRouter l q) r := by
  obtain ⟨a, l, rfl⟩ := List.exists_cons_of_ne_nil hne
  obtain ⟨b, hb, hfold, hall⟩ := foldl_nearestStep q a l h
  have hnearest : nearestRouter (a :: l) q = b := congrArg (·.getD 0) hfold
  exact hnearest ▸ ⟨hb, hall⟩

theorem routersOf_rising (n : Fin 26) : routersOf n.val ≠ [] ∧ (routersOf n.val).Pairwise (· < ·) := by
  revert n
  decide

theorem headD_le_of_rising {l : List Nat} (h : l.Pairwise (· < ·)) : ∀ r ∈ l, l.headD 0 ≤ r := by
  cases l with
  | nil => simp
  | cons a l =>
    intro r hr
    rcases List.mem_cons.1 hr with rfl | hr
    · exact Nat.le_refl _
    · exact Nat.le_of_lt ((List.pairwise_cons.1 h).1 r hr)

/-! ### Routes -/

theorem onXY_iff (r a b : Nat) : onXY r a b = true ↔
    (r / 6 = a / 6 ∧ min (a % 6) (b % 6) ≤ r % 6 ∧ r % 6 ≤ max (a % 6) (b % 6)) ∨
      (r % 6 = b % 6 ∧ min (a / 6) (b / 6) ≤ r / 6 ∧ r / 6 ≤ max (a / 6) (b / 6)) := by
  simp only [onXY, Bool.or_eq_true, Bool.and_eq_true, beq_iff_eq, decide_eq_true_eq]

theorem onRoute_of_ne {r src dst : Nat} (h : src ≠ dst) : onRoute r src dst = onXY r (homePair src dst).1 (homePair src dst).2 := by
  rw [onRoute, bne_iff_ne.2 h, Bool.true_and]

theorem onRoute_self (r src : Nat) : onRoute r src src = false := by
  rw [onRoute, bne_self_eq_false, Bool.false_and]

/-- The first failed router begins the only hold. -/
theorem routerFails_swyHold {d : Dev} {r : Nat} (hr : bit (d.get F.FCOL_ROUTER_ISO_ROUTERS) r = false) (hnone : d.sys.swyHold = []) :
    (d.routerFails r).sys.swyHold = [(r, d.mono + 2000)] := by
  rw [Dev.routerFails, if_neg (by rw [hr]; exact Bool.false_ne_true)]
  exact congrArg ((r, d.mono + 2000) :: ·) hnone

/-- Settles O21. The routers of an island rise, so its search has the nearest; a hold counts for what was sent since the router failed. -/
theorem meshRoutesAndHolds : Obligations.MeshRoutesAndHolds := by
  refine ⟨fun src dst hne => ?_, onRoute_self, fun s r src dst sent hr hnone => ?_⟩
  · obtain ⟨hsrcNe, hsrc⟩ := routersOf_rising src
    obtain ⟨hdstNe, hdst⟩ := routersOf_rising dst
    obtain ⟨hain, hamin⟩ := nearestRouter_spec ((routersOf dst.val).headD 0) _ hsrcNe hsrc
    obtain ⟨hbin, hbmin⟩ := nearestRouter_spec (homePair src.val dst.val).1 _ hdstNe hdst
    refine ⟨hain, hbin, headD_le_of_rising hdst, hamin, hbmin, fun r => ?_⟩
    rw [onRoute_of_ne fun h => hne (Fin.ext h), onXY_iff]
  · have hheld : ∀ x y : Nat, x + 2000 ≤ y + 2000 ↔ x ≤ y := fun x y => Nat.add_le_add_iff_right
    simp only [Dev.heldTill, routerFails_swyHold hr hnone, List.foldl_cons, List.foldl_nil, Nat.zero_max, Bool.and_eq_true, decide_eq_true_eq,
      hheld]

/-! ### The events of the mesh -/

theorem filter_eq_nil_of_all {α : Type} {p q : α → Bool} {l : List α} (h : l.all p = true) (hpq : ∀ x, p x = true → q x = false) :
    l.filter q = [] :=
  List.filter_eq_nil_iff.2 fun x hx hq => by
    rw [hpq x (List.all_eq_true.1 h x hx)] at hq
    exact Bool.false_ne_true hq

/-- A rebuild that finds no lost entry notes none. -/
theorem foldl_rebuild_none {d : Dev} (l : List (Nat × Option Entry)) (f : Dev → Nat × Option Entry → Entry → Dev)
    (h : ∀ c ∈ l, ∀ e, c.2 = some e → e.lostDue = false) :
    l.foldl (fun d c => match c.2 with
      | some e => if e.lostDue then f d c e else d
      | none => d) d = d := by
  induction l with
  | nil => rfl
  | cons c l ih =>
    rw [List.foldl_cons]
    have hc := h c (List.mem_cons_self ..)
    cases hx : c.2 with
    | none => exact ih fun c hc => h c (List.mem_cons_of_mem _ hc)
    | some e =>
      simp only [hc e hx, Bool.false_eq_true, if_false]
      exact ih fun c hc => h c (List.mem_cons_of_mem _ hc)

/-- Settles O20. -/
theorem silkwayEventsComplete : Obligations.SilkwayEventsComplete := by
  intro s th tk k n src dst cls r pc lost copies entries
  refine ⟨fun hst hresp hreq hdown => ?absent, fun hdown hk => ?event, fun hdown hk => ?commit, fun hup hpost => ?gap,
    fun hup hsrc hall => ?podGap, fun hr => ?router, fun h hh => ?hold, fun hup hpc => ?retire, fun hup hmem hlost => ?rebuild⟩
  case absent =>
    refine does_on Laws.exec_reqToIslandInReset ?_
    simp only [hreq, hst, hresp, hdown, Option.isNone_none, Bool.false_eq_true, not_false_eq_true, and_self, if_true]
  case event =>
    refine does_on Laws.exec_discardToIslandInReset ?_
    simp only [hdown, List.getElem?_eq_getElem hk, Option.isNone_some, Bool.or_false, Bool.false_eq_true, if_false]
  case commit =>
    refine does_on Laws.exec_discardToIslandInReset ?_
    simp only [hdown, List.getElem?_eq_getElem hk, Option.isNone_some, Bool.or_false, Bool.false_eq_true, if_false]
  case gap => exact does_onIsland Laws.exec_sequenceGap hup (if_neg hpost)
  case podGap =>
    refine does_onIsland Laws.exec_sequenceGap hup ((if_pos ⟨hsrc, rfl, rfl⟩).trans ?_)
    refine congrArg (List.foldl _ _) (filter_eq_nil_of_all hall fun x hx => ?_)
    rcases Bool.or_eq_true_iff.1 hx with hx | hx
    · simp [Option.isNone_iff_eq_none.1 hx]
    · simp [bne_iff_ne.1 hx]
  case router =>
    refine does_on Laws.exec_routerDeclaredFailed (if_neg ?_)
    rw [hr]
    exact Bool.false_ne_true
  case hold =>
    refine does_on Laws.exec_rerouteHoldExpiry ?_
    simp only [hh]
  case retire =>
    refine does_onIsland Laws.exec_pseudoChannelRetire hup (if_neg ?_)
    rw [hpc]
    exact Bool.false_ne_true
  case rebuild =>
    refine does_onIsland Laws.exec_structureRebuild hup ?_
    simp only [List.contains_iff_mem.2 hmem, Bool.not_true, Bool.false_eq_true, if_false]
    exact foldl_rebuild_none _ _ hlost

end Sys2Proof.Machine
end

section
/-!
SUPPORT. Tokens and threads (02, 05, 06): dispatch and binding, the supervisor, cores, waits, deadlines and parking.
-/
namespace Sys2Proof.Machine

/-! ### Tokens -/

/-- The first dispatch of an item to a pod (R150). -/
theorem dispatchToken_eq {d : Dev} {st pod : Nat} {x : Item} (hx : d.item st = some x) (hwait : x.pst = .waiting) (hlive : d.halted = false)
    (hfirst : x.tok.replay = false) (hver : d.activeVer x.tok.slot ≠ 0) (hpod : d.podFor = some pod) :
    d.dispatchToken st =
      (d.setItem st { x with tok := { x.tok with ver := d.activeVer x.tok.slot }, pst := .atPod pod, toPod := d.mono }).setPod pod
        { d.pod pod with port := (d.pod pod).port ++ [st] } := by
  simp only [Dev.dispatchToken, hx, hwait, hlive, hfirst, beq_eq_false_iff_ne.2 hver, hpod, bne_self_eq_false, Bool.or_false, Bool.and_false,
    Bool.false_eq_true, if_false]
  rfl

/-- Settles O22. -/
theorem tokensComplete : Obligations.TokensComplete := by
  intro s st p
  refine ⟨fun x pod hup hx hwait hlive hfirst hver hpod => ?dispatch, fun x rest t hruns hport hworker hx => ?bind,
    fun x hup hx hlost => ⟨fun hgen => ?reissue, fun hgen => ?stale⟩, fun hlive => ?restart, fun v hlive => ?supervisor,
    fun v slot hlive => ?handler, fun t hup hnext hbound htrapped => ?handover⟩
  case dispatch => exact does_onIsland Laws.exec_tokenDispatch hup (dispatchToken_eq hx hwait hlive hfirst hver hpod)
  case bind =>
    have hitem : (s.dev.setPod p.val { s.dev.pod p.val with port := rest }).item st.toNat = some x := hx
    refine does_on Laws.exec_tokenBind ?_
    simp only [hruns, hport, hworker, hitem, if_true]
  case reissue =>
    refine does_onIsland Laws.exec_tokenReissue hup ?_
    simp only [hx, hlost, hgen, bne_self_eq_false, Bool.false_eq_true, ne_eq, not_true, if_false]
  case stale =>
    refine does_onIsland Laws.exec_tokenReissue hup ?_
    simp only [hx, hlost, bne_self_eq_false, Bool.false_eq_true, if_false]
    exact if_pos hgen
  case restart => exact does_byWrite Laws.exec_supervisorRestart hlive.1 hlive.2 rfl
  case supervisor => exact does_byWrite Laws.exec_supervisorWrite hlive.1 hlive.2 rfl
  case handler => exact does_byWrite Laws.exec_slotHandlerWrite hlive.1 hlive.2 rfl
  case handover =>
    refine does_onIsland Laws.exec_supervisorHandover hup ?_
    simp only [hnext, beq_eq_false_iff_ne.2 hbound, beq_eq_false_iff_ne.2 htrapped, Bool.or_self, Bool.false_eq_true, if_false]

/-! ### Threads -/

section
variable {d : Dev} {c : Instr} {s : State}

/-- Two threads of one core that can issue are one thread, where the core runs one thread at a time (R145). -/
theorem canIssue_unique {th th' : Nat} (hcore : th' / 8 = th / 8) (hmode : d.get F.POD_CORE_CTL_MODE (th / 8) ≠ 0)
    (h : d.canIssue th = true) (h' : d.canIssue th' = true) : th' = th := by
  have hslot : ∀ x, x / 8 = th / 8 → d.canIssue x = true → d.slotOf (th / 8) = x % 8 := fun x hx hissue => by
    have hhas : d.hasSlot x = true := (Bool.and_eq_true_iff.1 hissue).2
    simpa only [Dev.hasSlot, hx, beq_eq_false_iff_ne.2 hmode, Bool.false_or, beq_iff_eq] using hhas
  have hsame : th' % 8 = th % 8 := (hslot th' hcore h').symm.trans (hslot th rfl h)
  omega

/-- The deadline of an attempt on a worker. -/
theorem deadlinePasses_eq {th x : Nat} {st : ThSt} (hruns : d.podRuns (th / 128) = true) (hsup : d.isSup th = false)
    (hst : (d.th th).st = st) (hx : (d.th th).deadline = some x) :
    d.deadlinePasses th st = (d.reach (x + 1)).trap th kWATCHDOG (d.th th).pc 0 := by
  simp only [Dev.deadlinePasses, hruns, hst, hsup, hx, beq_self_eq_true, Bool.not_false, Bool.and_self, if_true]

end

/-- Settles O23. -/
theorem threadEventsComplete : Obligations.ThreadEventsComplete := by
  intro s th core p v own
  refine ⟨fun hlive => ⟨fun hwas hnow => ?switch, fun hstay => ?core⟩, fun k hruns hmode hnext => ?quantum,
    fun th' hcore hmode h h' => Fin.ext (canIssue_unique hcore hmode h h'), fun k rd hruns hst => ⟨fun hsleep => ?wake, fun hsleep => ?peek⟩,
    fun tk r e hup hst hanswer => ?ticket, fun rd mask ev r hruns hsleep hnow => ?waitt,
    fun x hruns hsup hx => ⟨fun hst => ?watchdog, fun hst => ?handler⟩,
    fun hlive => ⟨?park, fun hstate => ?cancel, fun hstate => ?podWake⟩, fun hup hstate hport hidle => ?parked⟩
  case switch =>
    refine does_byWrite Laws.exec_coreCtlWrite hlive.1 hlive.2 ?_
    simp only [hwas, hnow, and_self, if_true]
  case core =>
    refine does_byWrite Laws.exec_coreCtlWrite hlive.1 hlive.2 ?_
    exact congrArg (Dev.applyThreadEn · _) (if_neg fun h => hstay.elim (· h.1) (· h.2))
  case quantum =>
    refine does_on Laws.exec_quantumExpiry ?_
    simp only [hruns, hmode, Dev.nextReady, hnext, beq_self_eq_true, Bool.and_self, if_true, Option.map_some]
  case wake =>
    refine does_on Laws.exec_threadWake ?_
    simp only [hruns, hsleep, hst, if_true, Bool.false_eq_true, if_false]
  case peek =>
    refine does_on Laws.exec_threadWake ?_
    simp only [hruns, hsleep, hst, if_true]
  case ticket =>
    refine does_onIsland Laws.exec_ticketComplete hup ?_
    simp only [hst, hanswer, ne_eq, not_true, if_false]
  case waitt =>
    refine does_on Laws.exec_threadWake ?_
    simp only [hruns, hsleep, hnow, if_true]
  case watchdog => exact does_on Laws.exec_watchdog (deadlinePasses_eq hruns hsup hst hx)
  case handler => exact does_on Laws.exec_handlerDeadline (deadlinePasses_eq hruns hsup hst hx)
  case park => exact does_byWrite Laws.exec_parkRequest hlive.1 hlive.2 rfl
  case cancel => exact does_byWrite Laws.exec_parkCancel hlive.1 hlive.2 (if_pos hstate)
  case podWake => exact does_byWrite Laws.exec_podWake hlive.1 hlive.2 (if_pos hstate)
  case parked =>
    refine does_onIsland Laws.exec_podParked hup (if_pos ⟨hstate, List.all_eq_true.2 fun i hi => ?_, hport⟩)
    rcases hidle i (List.mem_range.1 hi) with hsup | hst
    · simp only [hsup, Bool.true_or]
    · rcases List.mem_cons.1 hst with hst | hst
      · simp only [hst, beq_self_eq_true, Bool.true_or, Bool.or_true]
      · rcases List.mem_cons.1 hst with hst | hst
        · simp only [hst, beq_self_eq_true, Bool.true_or, Bool.or_true]
        · simp only [List.mem_singleton.1 hst, beq_self_eq_true, Bool.or_true]

end Sys2Proof.Machine
end

section
/-!
SUPPORT. Items, frames and ports (02, 09, 11): commits and lifetimes, the frame check sequence, pause, and the states of a port.
-/
namespace Sys2Proof.Machine

/-! ### Items -/

/-- The effects ahead of one in its queue do not hold it back: none is of its batch for its destination and still to be applied there. -/
theorem effect_not_held {d : Dev} {l : List EffReq} {e : EffReq}
    (h : ∀ x ∈ l, x.stamp = e.stamp → x.island = e.island → x.applied = false → d.effRemote x = true) :
    (l.any fun x => x.stamp == e.stamp && x.island == e.island && !x.applied && !d.effRemote x) = false := by
  refine List.any_eq_false.2 fun x hx hheld => ?_
  simp only [Bool.and_eq_true, beq_iff_eq, Bool.not_eq_true'] at hheld
  obtain ⟨⟨⟨hstamp, hisland⟩, happlied⟩, hlocal⟩ := hheld
  rw [h x hx hstamp hisland happlied] at hlocal
  cases hlocal

/-- Settles O24. -/
theorem itemEventsComplete : Obligations.ItemEventsComplete := by
  intro s k c st hup
  refine ⟨fun m hm hfirst => ?message, fun x b hx hb => ?discard, fun e he => ?resend, fun x hx hopen hdisp hpst => ?life, ?sweep,
    fun x y t hx hy ht hdue hroot => ?hold, fun e f he hisl hlocal hnew hahead hf => ?apply⟩
  case message =>
    refine does_onIsland Laws.exec_commitMessage hup ?_
    simp only [hm]
    exact if_neg fun h => by
      obtain ⟨m', hmem, hpod⟩ := List.any_eq_true.1 h
      exact hfirst m' hmem (beq_iff_eq.1 hpod)
  case discard =>
    refine does_onIsland Laws.exec_batchTimeoutDiscard hup ?_
    simp only [hx, hb, Option.bind_some]
  case resend =>
    refine does_onIsland Laws.exec_effectResend hup ?_
    simp only [he]
  case life =>
    refine does_onIsland Laws.exec_lifetimeExpiry hup ?_
    simp only [hx, hopen, hdisp, beq_eq_false_iff_ne.2 hpst, Option.isSome_none, Bool.false_and, Bool.or_self, Bool.false_eq_true, if_false]
  case sweep => exact does_onIsland Laws.exec_lifetimeSweep hup rfl
  case hold =>
    refine does_onIsland Laws.exec_portHoldExpiry hup ?_
    simp only [hx, hy, ht, Nat.not_lt.2 hdue, Nat.not_le.2 hroot, or_self, if_false]
  case apply =>
    refine does_on Laws.exec_effectApply ?_
    simp only [he, hisl, hup, hlocal, hnew, hf, effect_not_held hahead, Bool.not_true, Bool.or_self, Bool.false_eq_true, if_false, if_true]

/-! ### Frames -/

theorem fcsBit_lt {c : Nat} (h : c < 2 ^ 32) : fcsBit c < 2 ^ 32 := by
  have hhalf : c / 2 < 2 ^ 32 := Nat.lt_of_le_of_lt (Nat.div_le_self c 2) h
  unfold fcsBit
  split
  · exact Nat.xor_lt_two_pow hhalf (by decide)
  · exact hhalf

/-- The frame check sequence has 32 bits. -/
theorem fcsOf_lt (l : List Nat) : fcsOf l < 2 ^ 32 := by
  refine Nat.xor_lt_two_pow (List.foldlRecOn l _ (motive := (· < 2 ^ 32)) (by decide) fun c hc b _ => ?_) (by decide)
  have hbyte : Nat.xor c (b % 256) < 2 ^ 32 :=
    Nat.xor_lt_two_pow hc (Nat.lt_trans (Nat.mod_lt b (by decide)) (by decide))
  exact fcsBit_lt (fcsBit_lt (fcsBit_lt (fcsBit_lt (fcsBit_lt (fcsBit_lt (fcsBit_lt (fcsBit_lt hbyte)))))))

theorem leNat_toLe_four {v : Nat} (h : v < 2 ^ 32) : leNat (toLe 4 v) = v := by
  simp only [toLe, List.range, List.range.loop, List.map_cons, List.map_nil, leNat]
  omega

/-- Settles O25. -/
theorem frameFlowCompletes : Obligations.FrameFlowCompletes := by
  intro s p r iap lv n q c ts
  refine ⟨fun hup => ⟨fun data hport hmin hbytes hmax htype => ?frame, fun st i hsend => ⟨?sent, ?bad1, ?bad2⟩, fun op vec qs hport => ?pause,
    fun t ht => ?expiry, fun e t he ht hms hlong => ?storm, fun t ht => ?stormEnd, fun hfc => ⟨fun hrise hfall => ?rise, fun hrise hfall => ?fall,
      fun hcur => ?again⟩⟩, ?pick, fun hup => ⟨fun f hf => ?segment, fun hn hoff => ?shaper, fun st i rest y hdeep hy hroom hcells => ?prefetch⟩⟩
  case frame =>
    have hlen : (data ++ toLe 4 (fcsOf data)).length = data.length + 4 := by rw [List.length_append, toLe, List.length_map, List.length_range]
    have hdrop : (data ++ toLe 4 (fcsOf data)).drop data.length = toLe 4 (fcsOf data) := List.drop_left
    have htake : (data ++ toLe 4 (fcsOf data)).take data.length = data := List.take_left
    refine does_onIsland Laws.exec_frameReceive hup ?_
    simp only [hlen, Nat.add_sub_cancel, hdrop, htake, leNat_toLe_four (fcsOf_lt data), hport, htype, Nat.not_lt.2 hmax,
      show ¬ data.length + 4 < 64 by omega, Bool.not_true, Bool.or_self, Bool.false_eq_true, ne_eq, not_true, false_and, if_false]
  case sent =>
    refine does_onIsland Laws.exec_copySent hup ?_
    simp only [hsend]
    rfl
  case bad1 =>
    refine does_onIsland Laws.exec_copySent hup ?_
    simp only [hsend]
    rfl
  case bad2 =>
    refine does_onIsland Laws.exec_copySent hup ?_
    simp only [hsend]
    rfl
  case pause => exact does_onIsland Laws.exec_pauseFrameReceived hup (if_pos hport)
  case expiry =>
    refine does_onIsland Laws.exec_pauseExpiry hup ?_
    simp only [ht]
  case storm =>
    refine does_onIsland Laws.exec_pfcStorm hup ?_
    simp only [he, ht, hms, Nat.not_lt.2 hlong, or_self, if_false]
  case stormEnd =>
    refine does_onIsland Laws.exec_pfcStormEnd hup ?_
    simp only [ht]
  case rise =>
    refine does_onIsland Laws.exec_pauseFrameSend hup ?_
    simp only [hfc, hrise, hfall, if_true, if_false, false_and]
  case fall =>
    refine does_onIsland Laws.exec_pauseFrameSend hup ?_
    simp only [hfc, hrise, hfall, if_true, if_false, and_false]
  case again =>
    refine does_onIsland Laws.exec_pauseRepeat hup ?_
    simp only [hfc, bne_iff_ne.2 hcur, Bool.and_self, if_true]
  case pick => exact does_on Laws.exec_schedulerPick rfl
  case segment =>
    refine does_onIsland Laws.exec_segmentAdmit hup ?_
    simp only [hf]
  case shaper =>
    refine does_onIsland Laws.exec_shaperEnable hup (if_pos ⟨?_, by rw [hoff]; exact Bool.false_ne_true⟩)
    revert hn
    match lv with
    | 0 => exact id
    | 1 => exact id
    | 2 => exact id
    | 3 => exact id
  case prefetch =>
    refine does_onIsland Laws.exec_prefetch hup ?_
    simp only [hdeep, hy, Nat.not_le.2 hroom, Nat.not_lt.2 hcells, or_self, if_false]

/-! ### Ports -/

/-- Settles O26. -/
theorem portStatesComplete : Obligations.PortStatesComplete := by
  intro s n lane p v
  refine ⟨fun hlive => ?group, fun hup => ?lane, fun hup => ⟨fun hw hst hready => ?full, fun hw hst hhalf hready => ?half,
    fun hst => ⟨?far, ?near⟩, fun t ht hst => ⟨fun hfull k hk => ?degrade, fun hfull => ?down⟩, ?restore, fun hw hen => ⟨?found, ?gone⟩⟩⟩
  case group => exact does_byWrite Laws.exec_groupModeWrite hlive.1 hlive.2 rfl
  case lane => exact does_onIsland Laws.exec_laneFaultDegrade hup rfl
  case full =>
    refine does_onIsland Laws.exec_portUp hup ?_
    rcases hst with hst | ⟨hst, hfull⟩
    · simp only [hst, decide_true, Bool.true_or, if_true, hready, hw, ne_eq, not_false_eq_true, true_or, and_self]
    · simp only [hst, hfull, Bool.or_true, if_true, hready, hw, ne_eq, not_false_eq_true, or_true, and_self]
  case half =>
    refine does_onIsland Laws.exec_portUp hup ?_
    have hpart : (decide (3 = 2) || (s.dev.net.ports.get p.val).full) = false := by rw [hhalf]; rfl
    simp only [hst, hpart, Bool.false_eq_true, if_false, hready, hw, ne_eq, not_false_eq_true, or_true, and_self, if_true]
  case far => exact does_onIsland Laws.exec_remoteFault hup (if_pos hst)
  case near => exact does_onIsland Laws.exec_remoteFault hup (if_pos hst)
  case degrade =>
    refine does_onIsland Laws.exec_degradeTimeout hup ?_
    simp only [ht, hst, hfull, hk, ne_eq, not_true, if_false, if_true, Option.getD_some]
  case down =>
    refine does_onIsland Laws.exec_degradeTimeout hup ?_
    simp only [ht, hst, hfull, ne_eq, not_true, if_false, Bool.false_eq_true]
  case restore => exact does_onIsland Laws.exec_restore hup rfl
  case found =>
    refine does_onIsland Laws.exec_moduleInsertion hup ?_
    simp only [hw, hen, not_true, or_self, if_false, if_true]
  case gone =>
    refine does_onIsland Laws.exec_moduleInsertion hup ?_
    simp only [hw, hen, not_true, or_self, if_false, Bool.false_eq_true]

end Sys2Proof.Machine
end

section
/-!
SUPPORT. Lanes and Erruic links (10): commands of a lane that exists, commands of a link, its training and its messages.
-/
namespace Sys2Proof.Machine

section
variable {c : Instr} {s : State} {n k : Nat} {f : Dev → Dev} {e : Dev}

/-- A command of a lane. -/
theorem does_onLane (he : exec c s = s.on fun d => d.onLane n k f) (hlane : hasLane n k = true) (hup : s.dev.isUp (16 + n) = true)
    (hf : f s.dev = e) : Does c s e :=
  does_on he ((if_pos hlane).trans ((Dev.onIsland_up _ _ _ hup).trans hf))

/-- A write of a lane's register. -/
theorem does_onLane_byWrite {r : Reg} {i : Nat} (he : exec c s = s.on fun d => d.onLane n k fun d => d.byWrite r i f)
    (hlane : hasLane n k = true) (hup : s.dev.isUp (16 + n) = true) (hlive : s.dev.halted = false) (hf : f s.dev = e) : Does c s e :=
  does_onLane he hlane hup ((Dev.byWrite_live _ _ _ _ hlive).trans hf)

/-- A command of a link. -/
theorem does_onLink {l : Nat} (he : exec c s = s.on fun d => d.onLink l f) (hup : s.dev.isUp (17 + l) = true) (hf : f s.dev = e) :
    Does c s e :=
  does_onIsland (f := f) he hup hf

/-- A submission to a window that takes it. -/
theorem does_submit {w : WinId} (he : exec c s = s.on fun d => d.submit w f) (hup : s.dev.isUp w.island = true) (hlive : s.dev.halted = false)
    (hst : (s.dev.win w).st = 0) (hf : f s.dev = e) : Does c s e :=
  does_on he ((Dev.submit_idle _ _ _ hup hlive hst).trans hf)

end

/-! ### Lanes -/

/-- The phase offsets of an eye scan (Table 10-12): -32 to 31 in 7 bits. -/
theorem eyePhase_ok {h : Nat} (hlt : h < 128) (hok : h < 32 ∨ 96 ≤ h) : ¬ signed 7 h < -32 ∧ ¬ 31 < signed 7 h := by
  unfold signed
  split <;> omega

/-- Settles O27. -/
theorem laneEventsComplete : Obligations.LaneEventsComplete := by
  intro s n k hlane hup
  refine ⟨fun hst => ?signal, fun hst => ?loss, fun hst => ⟨?adapt, fun hused => ?reject⟩,
    fun hst => ⟨fun hk hpol => ?polarity, fun hk => ?pcs, ?lockFail⟩, fun hst coeff => ?history, fun hlive v => ⟨?cfg, ?prbsOn, ?prbsOff⟩,
    fun hl hr vt vb => ⟨fun hst => ?margin, fun hst => ?noMargin⟩,
    fun hlive hidle hst eye h v dwell hdwell hv hphase heye hnrz => ?scan, fun err cmp j e => ⟨fun hscan => ?ends, fun hscan => ?left⟩⟩
  case signal => exact does_onLane Laws.exec_signalDetect hlane hup (if_pos hst)
  case loss => exact does_onLane Laws.exec_lossOfSignal hlane hup (if_pos hst)
  case adapt => exact does_onLane Laws.exec_adaptComplete hlane hup (if_pos hst)
  case reject => exact does_onLane Laws.exec_histReject hlane hup (if_pos ⟨hst, hused⟩)
  case polarity => exact does_onLane Laws.exec_polarityAlternate hlane hup (if_pos ⟨hk, hst, hpol⟩)
  case pcs => exact does_onLane Laws.exec_pcsLock hlane hup (if_pos ⟨hk, hst⟩)
  case lockFail => exact does_onLane Laws.exec_lockFail hlane hup (if_pos hst)
  case history => exact does_onLane Laws.exec_historySave hlane hup (if_pos hst)
  case cfg => exact does_onLane_byWrite Laws.exec_laneCfgWrite hlane hup hlive rfl
  case prbsOn => exact does_onLane_byWrite Laws.exec_prbsEnable hlane hup hlive rfl
  case prbsOff => exact does_onLane_byWrite Laws.exec_prbsDisable hlane hup hlive rfl
  case margin => exact does_onLane Laws.exec_marginRefresh hlane hup (congrArg (s.dev.wr _ _) (if_pos hst))
  case noMargin => exact does_onLane Laws.exec_marginRefresh hlane hup (congrArg (s.dev.wr _ _) (if_neg hst))
  case scan =>
    have hkv : (BitVec.ofNat 4 k.val).toNat = k.val := by
      rw [BitVec.toNat_ofNat]
      exact Nat.mod_eq_of_lt (Nat.lt_trans k.isLt (by decide))
    have hvn : v.toNat ≠ 128 := fun hn => hv (BitVec.eq_of_toNat_eq hn)
    have hrate : (s.dev.signalling n.val k.val != 0 && eye.toNat != 1) = false :=
      Bool.and_eq_false_imp.2 fun h0 => bne_eq_false_iff_eq.2 (hnrz (bne_iff_ne.1 h0))
    obtain ⟨hlow, hhigh⟩ := eyePhase_ok h.isLt hphase
    refine does_submit Laws.exec_eyeScan hup hlive hidle ?_
    simp only [hkv, hlane, hrate, hst, hlow, hhigh, Nat.not_le.2 k.isLt, Nat.not_lt.2 hdwell, beq_eq_false_iff_ne.2 heye,
      beq_eq_false_iff_ne.2 hvn, decide_false, Bool.not_true, Bool.or_self, Bool.false_eq_true, ne_eq, not_true, if_false]
  case ends =>
    refine does_onIsland Laws.exec_eyeScanComplete hup ?_
    simp only [hscan, Bool.false_eq_true, if_false]
    rfl
  case left =>
    refine does_onIsland Laws.exec_eyeScanComplete hup ?_
    simp only [hscan, if_true]

/-! ### The training of a link -/

/-- Four different lane numbers are all four. -/
theorem linkMap_perm (l0 l1 l2 l3 : Fin 4) (h : [l0, l1, l2, l3].Nodup) :
    ((List.range 4).all fun j => [l0.val, l1.val, l2.val, l3.val].contains j) = true := by
  revert l0 l1 l2 l3
  decide

/-- The lanes' numbers leave every register but NET.LANE_STATUS. -/
theorem foldl_put_get {f g : Fld} {j : Nat} (h : g.reg ≠ f.reg) (ix v : Nat → Nat) (l : List Nat) (d : Dev) :
    (l.foldl (fun d k => d.put f (ix k) (v k)) d).get g j = d.get g j := by
  induction l generalizing d with
  | nil => rfl
  | cons k l ih => exact (ih _).trans (Dev.get_put_ne _ _ _ _ _ _ (.inl h))

/-- Settles O28. -/
theorem linkTrainingCompletes : Obligations.LinkTrainingCompletes := by
  intro s l hup
  refine ⟨fun v hlive => ?enable, fun j inv hst => ?lock, fun hst => ⟨fun l0 l1 l2 l3 m far hnodup hself => ?map, ?retry⟩,
    fun hst skew => ⟨fun hskew => ?deskew, fun hskew => ?skewed⟩,
    fun hst => ⟨fun hqual hsent => ⟨fun hlog htrained => ?countdown, fun hlog => ?pass⟩,
      fun hqual e0 e1 e2 e3 => ⟨fun h0 h1 h2 h3 => ?window, fun hmost => ?windowFail⟩, fun hsent => ?active, ?fail⟩, fun hst => ?again⟩
  case enable => exact does_byWrite (n := 17 + l.val) Laws.exec_elEnable hup hlive rfl
  case lock => exact does_onLink Laws.exec_blockLock hup (if_pos hst)
  case map =>
    refine does_onLink Laws.exec_linkMap hup ((if_neg (fun h => h hst)).trans ?_)
    have hother : (m.val + 1 == s.dev.get F.GRP_STATUS_ID) = false := beq_eq_false_iff_ne.2 hself
    simp only [foldl_put_get (show F.GRP_STATUS_ID.reg ≠ F.NET_LANE_STATUS_LOGICAL.reg by decide), hother, linkMap_perm l0 l1 l2 l3 hnodup, b2n_false,
      Bool.not_false, Bool.true_or, Bool.and_self, if_true]
  case retry => exact does_onLink Laws.exec_mapRetry hup (if_pos hst)
  case deskew => exact does_onLink Laws.exec_linkDeskew hup ((if_neg (fun h => h hst)).trans (if_pos hskew))
  case skewed => exact does_onLink Laws.exec_linkDeskew hup ((if_neg (fun h => h hst)).trans (if_neg (Nat.not_le.2 hskew)))
  case countdown =>
    refine does_onLink Laws.exec_qualCountdown hup ?_
    simp only [hst, hqual, hsent, hlog, htrained, ne_eq, not_true, not_false_eq_true, Bool.false_eq_true, or_self, if_false, true_or, and_self, if_true]
  case pass =>
    refine does_onLink Laws.exec_qualCountdown hup ?_
    simp only [hst, hqual, hsent, hlog, ne_eq, not_true, Bool.false_eq_true, or_self, if_false, false_and]
  case window =>
    refine does_onLink Laws.exec_qualWindowEnd hup ?_
    simp only [hst, hqual, h0, h1, h2, h3, ne_eq, not_true, or_self, if_false, List.all_cons, List.all_nil, decide_true, Bool.and_self, if_true]
  case windowFail =>
    refine does_onLink Laws.exec_qualWindowEnd hup ?_
    simp only [hst, hqual, ne_eq, not_true, or_self, if_false]
    refine if_neg fun h => ?_
    simp only [List.all_cons, List.all_nil, Bool.and_true, Bool.and_eq_true, decide_eq_true_eq] at h
    omega
  case active => exact does_onLink Laws.exec_linkActive hup (if_pos ⟨hst, hsent⟩)
  case fail => exact does_onLink Laws.exec_qualFail hup (if_pos hst)
  case again => exact does_onLink Laws.exec_failedRetry hup (if_pos hst)

/-! ### Messages -/

/-- A message of the right length and class stands as one. -/
theorem erruicShape_eq_false {n len cls : Nat} (h : n = 16 + ceilDiv len 8 * 8 ∧ len ≤ 512 ∧ cls < 5) :
    (false || decide (n ≠ 16 + ceilDiv len 8 * 8) || decide (512 < len) || decide (5 ≤ cls)) = false := by
  obtain ⟨hn, hlen, hcls⟩ := h
  simp only [decide_eq_false (fun hne => hne hn : ¬ n ≠ 16 + ceilDiv len 8 * 8), decide_eq_false (Nat.not_lt.2 hlen),
    decide_eq_false (Nat.not_le.2 hcls), Bool.or_self]

theorem erruicShape_eq_true {n len cls : Nat} (h : ¬ (n = 16 + ceilDiv len 8 * 8 ∧ len ≤ 512 ∧ cls < 5)) :
    (false || decide (n ≠ 16 + ceilDiv len 8 * 8) || decide (512 < len) || decide (5 ≤ cls)) = true := by
  simp only [Bool.or_eq_true, decide_eq_true_eq]
  omega

/-- Settles O29. -/
theorem linkMessagesComplete : Obligations.LinkMessagesComplete := by
  intro s l b hup hactive
  refine ⟨fun hlive => ⟨fun hwhole hshaped => ⟨fun hahead => ?next, fun hahead => ?again, fun hlow hhigh => ?gap⟩,
    fun hwhole hshaped => ?shape, fun hwhole => ?damaged⟩, fun hchk => ⟨?credit, fun hack => ?ack, fun hnak => ⟨fun hnone => ?nakNone, fun hsome => ?nak⟩⟩,
    fun hchk => ⟨?badCredit, ?badAck⟩, ?creditSend, fun a ha => ?ackSend, fun y rest hy => ?replay, ?down⟩
  case next =>
    refine does_onLink Laws.exec_erruicMessageReceive hup ?_
    simp only [hactive, hlive, bne_eq_false_iff_eq.2 hwhole, erruicShape_eq_false hshaped, Bool.not_true, Bool.or_self, Bool.false_eq_true,
      if_false]
    exact if_pos hahead
  case again =>
    refine does_onLink Laws.exec_erruicMessageReceive hup ?_
    simp only [hactive, hlive, bne_eq_false_iff_eq.2 hwhole, erruicShape_eq_false hshaped, Bool.not_true, Bool.or_self, Bool.false_eq_true,
      if_false]
    exact (if_neg (Nat.ne_of_gt (Nat.lt_of_lt_of_le (by decide) hahead))).trans (if_pos hahead)
  case gap =>
    refine does_onLink Laws.exec_erruicMessageReceive hup ?_
    simp only [hactive, hlive, bne_eq_false_iff_eq.2 hwhole, erruicShape_eq_false hshaped, Bool.not_true, Bool.or_self, Bool.false_eq_true,
      if_false]
    exact (if_neg (Nat.ne_of_gt hlow)).trans (if_neg (Nat.not_le.2 hhigh))
  case shape =>
    refine does_onLink Laws.exec_erruicMessageReceive hup ?_
    simp only [hactive, hlive, bne_eq_false_iff_eq.2 hwhole, erruicShape_eq_true hshaped, Bool.not_true, Bool.or_self, Bool.false_eq_true,
      if_false, if_true]
  case damaged =>
    refine does_onLink Laws.exec_erruicMessageReceive hup ?_
    simp only [hactive, hlive, bne_iff_ne.2 hwhole, Bool.not_true, Bool.or_self, Bool.false_eq_true, if_false, Bool.or_true, if_true]
  case credit =>
    refine does_onLink Laws.exec_creditBlockReceive hup ?_
    simp only [hactive, hchk, Bool.not_true, Bool.false_eq_true, ne_eq, not_true, if_false]
  case ack =>
    refine does_onLink Laws.exec_acknReceive hup ?_
    simp only [hactive, hchk, hack, Bool.not_true, Bool.false_eq_true, ne_eq, not_true, if_false]
  case nakNone =>
    refine does_onLink Laws.exec_acknReceive hup ?_
    simp only [hactive, hchk, hnak, hnone, Bool.not_true, Bool.false_eq_true, ne_eq, not_true, if_false, if_true, List.isEmpty_nil]
  case nak =>
    refine does_onLink Laws.exec_acknReceive hup ?_
    simp only [hactive, hchk, hnak, List.isEmpty_eq_false_iff.2 hsome, Bool.not_true, Bool.false_eq_true, ne_eq, not_true, if_false, if_true]
  case badCredit =>
    refine does_onLink Laws.exec_creditBlockReceive hup ?_
    simp only [hactive, hchk, Bool.not_true, Bool.false_eq_true, ne_eq, not_false_eq_true, if_false, if_true]
  case badAck =>
    refine does_onLink Laws.exec_acknReceive hup ?_
    simp only [hactive, hchk, Bool.not_true, Bool.false_eq_true, ne_eq, not_false_eq_true, if_false, if_true]
  case creditSend => exact does_onLink Laws.exec_creditSend hup (if_pos hactive)
  case ackSend =>
    refine does_onLink Laws.exec_acknSend hup ?_
    simp only [ha, hactive, if_true]
  case replay =>
    refine does_onLink Laws.exec_replayTimeout hup ?_
    simp only [hy, hactive, if_true]
  case down => exact does_onLink Laws.exec_erruicLinkDown hup (if_pos hactive)

end Sys2Proof.Machine
end

section
/-!
SUPPORT. Tables (07, 08): lookups, fills and walks, requests between members, bulk batches and aging.
-/
namespace Sys2Proof.Machine

theorem contains_eq_false_of_not_mem {α : Type} [BEq α] [LawfulBEq α] {a : α} {l : List α} (h : a ∉ l) : l.contains a = false :=
  Bool.eq_false_iff.2 fun hc => h (List.contains_iff_mem.1 hc)

/-- A write of PINNED_STEP that is in range moves the cache to what it leaves (R165). -/
theorem t1Step_ok {v : Nat} (hlow : 1 ≤ v % 16) (hhigh : v % 16 ≤ 10) : (false || decide (bits v 0 4 < 1 ∨ 10 < bits v 0 4)) = false := by
  rw [bits_zero, Bool.false_or]
  exact decide_eq_false (by omega)

/-- Settles O30. -/
theorem tableEventsComplete : Obligations.TableEventsComplete := by
  intro s th tk lines hup
  refine ⟨fun hst hsent sh n key dst hreq w hw hscope => ?lookup, fun line n hfill hvoid => ?fill, fun w pick x hx hwaits hplain => ?walk,
    fun u w hu => ?unit, fun hlive v hlock hlow hhigh => ?t1, fun m id hstate => ⟨fun c hown => ?window, fun st ix eff f hown hnew hf => ?effect⟩,
    fun id y hy => ⟨fun w c res hby => ?response, fun hagain => ?twice, fun hagain => ?once⟩,
    fun p b hb recs bytes => ⟨?batch, fun j hj => ?batchTimeout⟩,
    fun n ix x hvalid hage hheld hx => ⟨fun hactive => ?active, fun hidle hlt => ?idle, fun hidle hend haction => ?expired⟩⟩
  case lookup =>
    refine does_onIsland Laws.exec_lookupRequest hup ?_
    simp only [hst, hreq] at hw hscope ⊢
    simp only [hsent, hw, hscope, ne_eq, not_true, or_self, if_false, false_and, Bool.not_true, Bool.false_eq_true, Option.bind_some,
      Option.map_some]
  case fill =>
    have hkept : s.dev.tbl.voided.contains line = false := contains_eq_false_of_not_mem hvoid
    refine does_onIsland Laws.exec_fillReturn hup ?_
    simp only [hfill, hkept, Bool.false_eq_true, if_false]
  case walk =>
    refine does_onIsland Laws.exec_walkComplete hup ?_
    simp only [hx, hwaits, hplain, List.isEmpty_nil, Bool.not_true, Bool.false_eq_true, if_false]
  case unit =>
    refine does_onIsland Laws.exec_lookupUnitFault hup ?_
    simp only [hu, List.foldl_cons, List.foldl_nil, List.contains_nil, Bool.false_and, Bool.false_eq_true, if_false, cellGet, if_true,
      Option.getD_some]
  case t1 =>
    refine does_byWrite Laws.exec_t1CfgWrite hup hlive ?_
    simp only [hlock, t1Step_ok hlow hhigh, Bool.false_eq_true, if_false]
    simp only [bits_zero, Nat.reducePow]
  case window =>
    refine does_onIsland Laws.exec_remoteRequest hup ?_
    simp only [hown, hstate, ne_eq, not_true, or_self, if_false]
  case effect =>
    refine does_onIsland Laws.exec_remoteRequest hup ?_
    simp only [hown, hstate, hf, contains_eq_false_of_not_mem hnew, ne_eq, not_true, or_self, if_false, Bool.false_eq_true]
  case response =>
    refine does_onIsland Laws.exec_remoteResponse hup ?_
    simp only [hy, hby]
  case twice =>
    refine does_onIsland Laws.exec_remoteTimeout hup ?_
    simp only [hy, hagain, if_true]
  case once =>
    refine does_onIsland Laws.exec_remoteTimeout hup ?_
    simp only [hy, hagain, Bool.false_eq_true, if_false]
  case batch =>
    refine does_onIsland Laws.exec_bulkBatch hup ?_
    simp only [hb, if_true]
  case batchTimeout =>
    refine does_onIsland Laws.exec_bulkBatchTimeout hup ?_
    simp only [hb, Nat.min_eq_left (Nat.le_sub_one_of_lt hj)]
  case active =>
    refine does_onIsland Laws.exec_agingVisit hup ?_
    simp only [hvalid, hage, hheld, hx, hactive, Bool.not_true, Bool.or_self, Bool.false_eq_true, if_false, if_true]
  case idle =>
    refine does_onIsland Laws.exec_agingVisit hup ?_
    simp only [hvalid, hage, hheld, hx, hidle, hlt, Nat.not_le.2 (Nat.lt_of_succ_lt hlt), Bool.not_true, Bool.or_self, Bool.false_eq_true, if_false,
      if_true]
  case expired =>
    refine does_onIsland Laws.exec_agingVisit hup ?_
    simp only [hvalid, hage, hheld, hx, Bool.not_true, Bool.or_self, Bool.false_eq_true, if_false]
    refine (if_neg (by rw [hidle]; exact Bool.false_ne_true)).trans ((if_neg ?_).trans ((if_neg ?_).trans (if_pos haction)))
    · exact Nat.not_le.2 (hend ▸ Nat.lt_succ_self x.idle)
    · exact fun h => Nat.lt_irrefl _ (hend ▸ h)

end Sys2Proof.Machine
end

section
/-!
SUPPORT. Crypto (12) and the host ports (14): the commands of a crypto window, and the events of ports and functions.
-/
namespace Sys2Proof.Machine

section
variable {c : Instr} {s : State} {f : Dev → Dev} {e : Dev} {w : WinId}

/-- A command of a window that takes it and runs it now. -/
theorem does_window {wc : WinCmd} (he : exec c s = s.window w wc f) (hidle : s.dev.idleWin w) (hf : f s.dev = e) : Does c s e :=
  does_on (he.trans (State.window_run s w wc f hidle.1)) hf

/-- The same through the window's submission. -/
theorem does_window_submit {wc : WinCmd} (he : exec c s = s.window w wc fun d => d.submit w f) (hidle : s.dev.idleWin w)
    (hf : f s.dev = e) : Does c s e :=
  does_window he hidle ((Dev.submit_idle _ _ _ hidle.2.1 hidle.2.2.1 hidle.2.2.2).trans hf)

end

/-- An inbound SA of at most 32 packets needs no wide window (R292). -/
theorem needsWide_eq_false {inbound : Bool} {win : Nat} (h : inbound = false ∨ win ≤ 32) : (inbound && decide (32 < win)) = false := by
  rcases h with h | h
  · rw [h, Bool.false_and]
  · rw [decide_eq_false (Nat.not_lt.2 h), Bool.and_false]

/-- The crypto window of the steward, or of the KEK's owner, may use the KEK (R290). -/
theorem kekRefused_eq_false {empty : Bool} {w owner : Nat} (h : w = 4 ∨ owner = w) : (!empty && w != 4 && owner != w) = false := by
  rcases h with h | h
  · rw [h, bne_self_eq_false, Bool.and_false, Bool.false_and]
  · rw [h, bne_self_eq_false, Bool.and_false]

/-- Settles O33. -/
theorem cryptoCommandsComplete : Obligations.CryptoCommandsComplete := by
  intro s w sa slot kek img wrap hidle
  refine ⟨fun hinst howns hkey hgood hfree hret hne hwin => ⟨fun hin => ?inbound, fun hout => ?outbound⟩, fun hvalid hinst => ⟨?destroy, ?read⟩,
    fun t o hret => ⟨fun ho => ?freed, fun v ho => ?freedFor⟩, fun hkey hrefs => ⟨?zero, fun hne howner => ?load⟩, fun hkey hne => ?info,
    fun th tk req dst hup hst hresp => ⟨fun st hreq hstamp => ?verdict, fun hreq => ?saqry⟩⟩
  case inbound =>
    refine does_window_submit Laws.exec_saCreate hidle ?_
    simp only [hinst, howns, hkey, hgood, hfree, hret, List.isEmpty_eq_false_iff.2 hne, needsWide_eq_false hwin, Bool.not_true, Bool.or_self,
      Option.isSome_none, Bool.false_eq_true, if_false]
    simp only [hin, if_true]
  case outbound =>
    refine does_window_submit Laws.exec_saCreate hidle ?_
    simp only [hinst, howns, hkey, hgood, hfree, hret, List.isEmpty_eq_false_iff.2 hne, needsWide_eq_false hwin, Bool.not_true, Bool.or_self,
      Option.isSome_none, Bool.false_eq_true, if_false]
    simp only [hout, Bool.false_eq_true, if_false]
  case destroy =>
    refine does_window_submit Laws.exec_saDestroy hidle ?_
    simp only [hvalid, hinst, Bool.not_true, Bool.false_eq_true, if_false]
  case read =>
    refine does_window_submit Laws.exec_saRead hidle ?_
    simp only [hvalid, hinst, Bool.not_true, Bool.false_eq_true, if_false]
  case freed =>
    refine does_on Laws.exec_saRetireComplete ?_
    simp only [hret, ho]
  case freedFor =>
    refine does_on Laws.exec_saRetireComplete ?_
    simp only [hret, ho]
  case zero =>
    refine does_window_submit Laws.exec_keyZero hidle ?_
    simp only [hkey, hrefs, Bool.not_true, Bool.false_eq_true, Nat.lt_irrefl, if_false]
  case load =>
    refine does_window_submit Laws.exec_keyLoadWrapped hidle ?_
    simp only [hkey, hrefs, kekRefused_eq_false howner, List.isEmpty_eq_false_iff.2 hne, Bool.not_true, Bool.or_self, Bool.false_eq_true,
      Nat.lt_irrefl, if_false] <;> rfl
  case info =>
    refine does_window_submit Laws.exec_keyInfo hidle ?_
    simp only [hkey, List.isEmpty_eq_false_iff.2 hne, Bool.not_true, Bool.false_eq_true, if_false]
  case verdict =>
    refine does_on Laws.exec_cryptoVerdict ((if_pos ⟨hst, Option.isNone_iff_eq_none.2 hresp⟩).trans ?_)
    simp only [hreq, hup, hstamp, Bool.not_true, Bool.false_eq_true, if_false]
  case saqry =>
    refine does_on Laws.exec_cryptoVerdict ((if_pos ⟨hst, Option.isNone_iff_eq_none.2 hresp⟩).trans ?_)
    simp only [hreq, hup, Bool.not_true, Bool.false_eq_true, if_false]

/-! ### Host ports and functions -/

section
variable {d : Dev}

/-- A link that trains to its width and speed comes UP with no fault (R322). -/
theorem hpTrained_full {h w sp : Nat} {flit : Bool} {g : Dev} (hst : d.hpState h = 1) (hrel : (d.hport h).released = true)
    (hperst : (d.hport h).perst = false)
    (hg : g = (((((d.setHport h { d.hport h with hold := none }).put F.HOST_PORT_STATUS_WIDTH h w).put F.HOST_PORT_STATUS_SPEED h sp).put
      F.HOST_PORT_STATUS_FLIT h (b2n flit)).setHp h 2))
    (hw : 8 ≤ w) (hsp : min (g.get F.HOST_PORT_CFG_MAX_SPEED h) 5 ≤ sp) : d.hpTrained h w sp flit = g := by
  subst hg
  unfold Dev.hpTrained
  refine (if_neg ?_).trans ?_
  · simp only [hst, hrel, hperst]
    decide
  · simp only [hst]
    exact if_neg (not_or.2 ⟨Nat.not_lt.2 hw, Nat.not_lt.2 hsp⟩)

/-- A ledger is written once the manager has acknowledged the one before (R60); a held one when the PF may write. -/
theorem writeLedger_eq {p : Nat} {l : Ledger} {held : Bool} (hl : d.hst.ledgers.find? (·.pf == p) = some l)
    (hacked : d.flag F.QE_LEDGER_STATUS_UNACKED p = false) (hbusy : d.ledgerBusy p = false) (hregion : d.ledgerRegion p = true)
    (hheld : l.held = held) (hbme : held = true → (d.fn p).bme = true) :
    d.writeLedger p held = (Dev.putLedger { d with hst := { d.hst with ledgers := d.hst.ledgers.erase l } } l).showHeld := by
  have hmay : (held && !(d.fn p).bme) = false := Bool.and_eq_false_imp.2 fun h => by rw [hbme h, Bool.not_true]
  simp only [Dev.writeLedger, hl, hacked, hbusy, hregion, hheld, hmay, bne_self_eq_false, Bool.not_true, Bool.or_self, Bool.false_eq_true, if_false]

end

/-- Settles O34. -/
theorem hostEventsComplete : Obligations.HostEventsComplete := by
  intro s h f p hup
  refine ⟨fun hlive => ⟨fun c v seq => ⟨?conn, ?resync⟩, fun v hun hv => ?ack⟩, fun hst hperst => ?perst, ?unperst, fun hst => ⟨?reset, ?detach⟩,
    fun w sp flit hst hrel hperst hw hsp => ?trained, fun t hst hhold => ?holdEnds, fun hbme => ?bmeClear,
    fun hbme hflr hex hst => ?bmeSet, fun t hpaused hovr hst => ?bmeHold, fun hvf hex => ?flrVf, fun hpf => ?flrPf,
    fun hpf hen hnum heq => ?vfEnable, ?vfDisable, fun page n hats hidle late => ?ats, fun page n hats hbusy => ⟨?atsLate, ?atsWaits⟩,
    fun hd3 hex => ?d3, fun hd3 => ?d0, fun q rest hq hltr => ?ltr, fun c hrel hflr hex => ?config,
    fun l hl hacked hbusy hregion => ⟨fun hheld => ?ledger, fun hheld hbme => ?heldLedger⟩⟩
  case conn => exact does_byWrite Laws.exec_connCfgWrite hup hlive rfl
  case resync => exact does_byWrite Laws.exec_resyncArm hup hlive rfl
  case ack => exact does_byWrite Laws.exec_ledgerAck hup hlive (if_pos ⟨hun, hv⟩)
  case perst => exact does_onIsland Laws.exec_perstAssert hup (if_neg (by simp only [hst, hperst, Bool.false_eq_true, or_self, not_false_eq_true]))
  case unperst => exact does_onIsland Laws.exec_perstDeassert hup rfl
  case reset => exact does_onIsland Laws.exec_hotReset hup (if_pos hst)
  case detach => exact does_onIsland Laws.exec_detach hup (if_pos hst)
  case trained =>
    refine does_onIsland Laws.exec_linkTrained hup ((if_neg fun hdrs => Bool.false_ne_true hdrs.2.2).trans ?_)
    exact hpTrained_full hst hrel hperst rfl hw hsp
  case holdEnds =>
    refine does_onIsland Laws.exec_hostHoldExpiry hup ?_
    simp only [hst, hhold]
  case bmeClear => exact does_onIsland Laws.exec_bmeClear hup (if_pos hbme)
  case bmeSet =>
    refine does_onIsland Laws.exec_bmeSet hup (if_neg ?_)
    simp only [hbme, hflr, hex, hst]
    decide
  case bmeHold =>
    refine does_onIsland Laws.exec_bmeHoldExpiry hup ?_
    simp only [hpaused]
    refine if_neg ?_
    rw [hovr, beq_eq_false_iff_ne.2 hst]
    decide
  case flrVf =>
    refine does_onIsland Laws.exec_flrVf hup ((if_neg (Nat.not_lt.2 hvf)).trans (if_neg ?_))
    rw [hex]
    decide
  case flrPf =>
    refine does_onIsland Laws.exec_flrPf hup (if_neg ?_)
    rw [hpf]
    decide
  case vfEnable =>
    refine does_onIsland Laws.exec_vfEnable hup ((if_neg ?_).trans (if_neg ?_))
    · rw [hpf, hen]
      decide
    · rw [heq, decide_eq_false (Nat.not_lt.2 hnum)]
      exact Bool.false_ne_true
  case vfDisable => exact does_onIsland Laws.exec_vfDisable hup rfl
  case ats =>
    refine does_onIsland Laws.exec_atsInvalidate hup ?_
    simp only [hats, hidle, Bool.not_true, Bool.false_eq_true, if_false]
  case atsLate =>
    refine does_onIsland Laws.exec_atsInvalidate hup ?_
    simp only [hats, hbusy, Bool.not_true, Bool.false_eq_true, if_false, if_true]
  case atsWaits =>
    refine does_onIsland Laws.exec_atsInvalidate hup ?_
    simp only [hats, hbusy, Bool.not_true, Bool.false_eq_true, if_false, if_true]
  case d3 =>
    refine does_onIsland Laws.exec_d3hotEntry hup (if_neg ?_)
    rw [hd3, hex]
    decide
  case d0 => exact does_onIsland Laws.exec_d0Entry hup (if_pos hd3)
  case ltr =>
    refine does_onIsland Laws.exec_ltrEnable hup ?_
    simp only [hq, hltr, List.head?_cons, Bool.false_eq_true, if_false]
  case config =>
    refine does_onIsland Laws.exec_configRequest hup ?_
    simp only [Dev.cfgRequest, hrel, hflr, hex, Bool.not_true, Bool.or_self, Bool.false_eq_true, if_false]
  case ledger => exact does_onIsland Laws.exec_ledgerWrite hup (writeLedger_eq hl hacked hbusy hregion hheld fun h => absurd h Bool.false_ne_true)
  case heldLedger => exact does_onIsland Laws.exec_heldLedgerWrite hup (writeLedger_eq hl hacked hbusy hregion hheld fun _ => hbme)

end Sys2Proof.Machine
end

section
/-!
SUPPORT. Work queues (15): queue contexts, doorbells, slices, descriptors, payload and receive queues.
-/
namespace Sys2Proof.Machine

section
variable {d : Dev} {q : Nat}

theorem enableQueue_eq (hst : d.qState q = 0) (hmay : d.mayEnableQ q = true) :
    d.enableQueue q =
      Dev.setQ (((((d.wr .QE_QCTX_PI q 0).wr .QE_QCTX_CI q 0).wr .QE_QCTX_DONE q 0).put F.QE_QCTX_CTL_ENABLE q 1).put F.QE_QCTX_STATE_STATE q 1) q
        { hwbDue := ((((((d.wr .QE_QCTX_PI q 0).wr .QE_QCTX_CI q 0).wr .QE_QCTX_DONE q 0).put F.QE_QCTX_CTL_ENABLE q 1).put
          F.QE_QCTX_STATE_STATE q 1).rd .QE_QCTX_HWB q) != 0 } := by
  simp only [Dev.enableQueue, hst, hmay, ne_eq, not_true, Bool.not_true, Bool.false_eq_true, if_false]

/-- A queue in READY or ERROR is drained (R350). -/
theorem disableQueue_eq (hst : d.qState q = 1 ∨ d.qState q = 2) :
    d.disableQueue q =
      if (((d.put F.QE_QCTX_CTL_ENABLE q 0).put F.QE_QCTX_STATE_STATE q 3).dropFetched q).isRq q then
        (((d.put F.QE_QCTX_CTL_ENABLE q 0).put F.QE_QCTX_STATE_STATE q 3).dropFetched q).dropBuffers q
      else ((d.put F.QE_QCTX_CTL_ENABLE q 0).put F.QE_QCTX_STATE_STATE q 3).dropFetched q := by
  have hkept : (d.put F.QE_QCTX_CTL_ENABLE q 0).qState q = d.qState q := Dev.get_put_ne _ _ _ _ _ _ (.inl (by decide))
  simp only [Dev.disableQueue, hkept, hst, if_true]

/-- An item whose payload needs no read is loaded (R360). -/
theorem payloadLoaded_of_none {st : Nat} {x : Item} (hx : d.item st = some x) (hpst : x.pst = .loading)
    (hchans : (d.hst.chans.cells.any fun c => c.2.ops.any fun o => o.loads st) = false)
    (hops : d.hst.rdOps.filter (fun o => o.loads st) = []) : d.payloadLoaded st = d.setItem st { x with pst := .waiting } := by
  simp only [Dev.payloadLoaded, hx, hpst, hchans, hops, bne_self_eq_false, Bool.false_eq_true, if_false]
  rfl

/-- A doorbell in which nothing is wrong is taken by its TYPE (R351). -/
theorem doorbell_checked {inst v : Nat} (hflr : (d.fn inst).flr = false) (hst : d.get F.INST_STATE_STATE inst ≠ 0)
    (hcheck : d.dbCheck inst v true = none) :
    d.doorbell inst v true =
      if bits v 16 2 = 0 then d.dbPi (bits v 0 16) (bits v 32 32)
      else if bits v 16 2 = 1 then d.dbCq inst (bits v 0 16) (bits v 32 32) (bit v 18)
      else d.dbEq inst (bits v 0 16) (bits v 32 32) (bit v 18) := by
  simp only [Dev.doorbell, hflr, hst, hcheck, Bool.false_eq_true, or_self, if_false]

end

/-- Settles O35. -/
theorem queueCommandsComplete : Obligations.QueueCommandsComplete := by
  intro s q c e f v idx sl h hup
  refine ⟨fun hlive => ⟨fun hst hmay => ?enable, fun hst => ?disable, fun hst hidx => ?resume, fun hoff => ?cqOn, fun hon hfree => ?cqOff,
      fun hoff => ?eqOn, ?eqOff⟩, fun hst hdone => ?stopped, fun hflr hst hcheck => ⟨fun hty => ?pi, fun hty => ?cq, fun hty => ?eq⟩,
    fun hiso hroom => ⟨fun k hk => ?fill, fun hnone hany => ?visit⟩, ?descs, ?list, fun y rest hst hacc hy herr hlist hop => ?accept,
    fun st y hy hpst hchans hops => ?payload, fun hdue haddr hst hfirst => ?head, ?deliver, fun st i w hsend hwait => ?expiry, ?ue, ?hang, ?parity⟩
  case enable => exact does_byWrite Laws.exec_queueEnable hup hlive (enableQueue_eq hst hmay)
  case disable => exact does_byWrite Laws.exec_queueDisable hup hlive (disableQueue_eq hst)
  case resume => exact does_byWrite Laws.exec_queueResume hup hlive rfl
  case cqOn =>
    refine does_byWrite Laws.exec_cqEnable hup hlive ?_
    simp only [Dev.setCq, hoff, Bool.false_eq_true, if_false, if_true]
  case cqOff =>
    refine does_byWrite Laws.exec_cqEnable hup hlive ?_
    simp only [Dev.setCq, hfree, Bool.and_false, Bool.false_eq_true, if_false]
  case eqOn =>
    refine does_byWrite Laws.exec_eqEnable hup hlive ?_
    simp only [Dev.setEq, hoff, Bool.false_eq_true, if_false, if_true]
  case eqOff => exact does_byWrite Laws.exec_eqEnable hup hlive rfl
  case stopped => exact does_onIsland Laws.exec_queueStopped hup (if_pos ⟨hst, hdone⟩)
  case pi => exact does_onIsland Laws.exec_doorbellPi hup ((doorbell_checked hflr hst hcheck).trans (if_pos hty))
  case cq =>
    refine does_onIsland Laws.exec_doorbellCq hup ((doorbell_checked hflr hst hcheck).trans ?_)
    simp only [hty, Nat.one_ne_zero, if_false, if_true]
  case eq =>
    exact does_onIsland Laws.exec_doorbellEq hup
      ((doorbell_checked hflr hst hcheck).trans ((if_neg (by rw [hty]; decide)).trans (if_neg (by rw [hty]; decide))))
  case fill =>
    refine does_onIsland Laws.exec_sliceVisit hup ?_
    simp only [Dev.visit, hiso, hroom, hk, Bool.not_true, Bool.or_self, Bool.false_eq_true, if_false]
  case visit =>
    refine does_onIsland Laws.exec_sliceVisit hup ?_
    simp only [Dev.visit, hiso, hroom, hnone, hany, Bool.not_true, Bool.or_self, Bool.false_eq_true, if_false, if_true]
  case descs => exact does_onIsland Laws.exec_descriptorFetchComplete hup rfl
  case list => exact does_onIsland Laws.exec_descriptorFetchComplete hup rfl
  case accept =>
    refine does_onIsland Laws.exec_descriptorAccept hup ?_
    simp only [Dev.acceptDesc, hst, hacc, hy, herr, hlist, hop, ne_eq, not_true, Bool.true_eq_false, Bool.false_eq_true, or_self, if_false, if_true]
  case payload => exact does_onIsland Laws.exec_payloadLoadComplete hup (payloadLoaded_of_none hy hpst hchans hops)
  case head =>
    refine does_onIsland Laws.exec_headWriteBack hup ?_
    simp only [Dev.headWriteBack, hdue, hfirst, beq_eq_false_iff_ne.2 haddr, beq_eq_false_iff_ne.2 hst, Bool.not_true, Bool.or_self,
      Bool.false_eq_true, if_false]
  case deliver => exact does_onIsland Laws.exec_rqDelivery hup rfl
  case expiry =>
    refine does_onIsland Laws.exec_rqBufferWaitExpiry hup ?_
    simp only [Dev.rqWaitOver, hsend, hwait]
  case ue => exact does_onIsland Laws.exec_sliceFail hup rfl
  case hang => exact does_onIsland Laws.exec_sliceFail hup rfl
  case parity => exact does_onIsland Laws.exec_sliceFail hup rfl

end Sys2Proof.Machine
end

section
/-!
SUPPORT. Settles O36 to O39: the DMA engine, the instances, the migration and the mailboxes.
-/
namespace Sys2Proof.Machine

variable {s : State} {d : Dev}

/-- Settles O36. -/
theorem dmaCommandsComplete : Obligations.DmaCommandsComplete := by
  intro s c g ue f port tag data hup
  refine ⟨?burst, fun hlive => ⟨fun haddr => ?flush, fun hst => ?abort, fun hst => ?resume, fun hen hown => ?move⟩, fun o ho => ?flushed,
    fun hst => ?stopped, fun hmov hover => ?moved, fun h0 h5 => ?fails, fun r hr hgen => ⟨?answered, ?refused⟩, fun r hr => ?timeout,
    fun k cid o ho => ?cid⟩
  case burst => exact does_onIsland Laws.exec_burstGrant hup rfl
  case flush => exact does_byWrite Laws.exec_flush hup hlive (if_neg haddr)
  case abort => exact does_byWrite Laws.exec_abort hup hlive (if_pos hst)
  case resume => exact does_byWrite Laws.exec_resume hup hlive (if_pos hst)
  case move =>
    refine does_byWrite Laws.exec_channelMove hup hlive (if_neg ?_)
    rintro (h | h | h)
    · exact absurd c.isLt (Nat.not_lt.2 h)
    · exact h hen
    · exact h hown
  case flushed =>
    refine does_onIsland Laws.exec_flushComplete hup ?_
    simp only [ho]
  case stopped => exact does_onIsland Laws.exec_channelStopped hup (if_pos hst)
  case moved => exact does_onIsland Laws.exec_channelMoveComplete hup (if_pos ⟨hmov, hover⟩)
  case fails => exact does_onIsland Laws.exec_channelFail hup (if_neg (not_or.2 ⟨h0, h5⟩))
  case answered =>
    refine does_onIsland Laws.exec_readCompletion hup ?_
    simp only [hr, bne_eq_false_iff_eq.2 hgen, Bool.not_false, Bool.and_true, Bool.false_eq_true, if_false, if_true]
  case refused =>
    refine does_onIsland Laws.exec_readCompletion hup ?_
    simp only [hr, bne_eq_false_iff_eq.2 hgen, Bool.not_false, Bool.and_true, Bool.false_eq_true, if_false]
  case timeout =>
    refine does_onIsland Laws.exec_completionTimeout hup ?_
    simp only [hr]
  case cid =>
    refine does_onIsland Laws.exec_cidFetchComplete hup ?_
    simp only [ho]

/-- A command of an IW finds what it names the PF's own and in one of the states it takes (R399). -/
theorem iwFault_eq_none {p n st : Nat} {l : List Nat} (hpf : d.pfOf n = p) (hst : d.get F.INST_STATE_STATE n = st) (h0 : st ≠ 0)
    (hl : l.contains st = true) : d.iwFault p n l = none := by
  simp only [Dev.iwFault, hpf, hst, h0, hl, ne_eq, not_true, Bool.not_true, Bool.false_eq_true, if_false]

/-- Settles O37. -/
theorem instanceCommandsComplete : Obligations.InstanceCommandsComplete := by
  intro s p f cold hold sh
  refine ⟨fun hidle => ⟨fun hok => ?create, fun hpf => ⟨fun hst => ?enable, fun hst => ?running, fun hst => ⟨?resetDraining, ?removeDraining⟩⟩⟩,
    fun hup hst => ⟨fun hnone => ?drained, fun t ht hsome => ?forced⟩⟩
  case create =>
    refine does_window_submit Laws.exec_create hidle ?_
    simp only [hok]
  case enable =>
    refine does_window_submit Laws.exec_enable hidle ?_
    simp only [iwFault_eq_none hpf hst (l := [2]) (by decide) (by decide)]
  case running =>
    have hok : s.dev.iwFault p.val f.val [2, 3, 4] = none := by
      obtain hst | hst := hst
      · exact iwFault_eq_none hpf hst (by decide) (by decide)
      · exact iwFault_eq_none hpf hst (by decide) (by decide)
    have hne : s.dev.get F.INST_STATE_STATE f.val ≠ 4 := by omega
    refine ⟨does_window_submit Laws.exec_reset hidle ?_, does_window_submit Laws.exec_remove hidle ?_⟩
    · simp only [hok, hne, if_false]
    · simp only [hok, hne, if_false]
  case resetDraining =>
    refine does_window_submit Laws.exec_reset hidle ?_
    simp only [iwFault_eq_none hpf hst (l := [2, 3, 4]) (by decide) (by decide), hst, if_true]
  case removeDraining =>
    refine does_window_submit Laws.exec_remove hidle ?_
    simp only [iwFault_eq_none hpf hst (l := [2, 3, 4]) (by decide) (by decide), hst, if_true]
  case drained => exact does_onIsland Laws.exec_drainEnd hup (if_pos ⟨hst, hnone⟩)
  case forced =>
    refine does_onIsland Laws.exec_drainForced hup ?_
    simp only [Dev.drainForced, ht]
    exact if_pos ⟨hst, hsome⟩

/-- A migration command starts on what the PF owns (R417). -/
theorem does_mwSubmit {c : Instr} {p : Fin 4} {inst opc : Nat} {wc : WinCmd} {f : Dev → Dev} {e : Dev}
    (he : exec c s = s.window (.mw p) wc fun d => d.mwSubmit p inst opc f) (hidle : s.dev.idleWin (.mw p)) (hpf : s.dev.pfOf inst = p.val)
    (hf : f s.dev = e) : Does c s e :=
  does_window_submit he hidle ((if_neg (not_not_intro hpf)).trans hf)

/-- Settles O38. -/
theorem migrationCommandsComplete : Obligations.MigrationCommandsComplete := by
  intro s p f kek b0 b1 base addr lg size
  refine ⟨fun hidle hpf => ⟨fun hen hoff h0 h1 hb hlo hhi hats => ?dirtyStart, fun hon => ⟨?dirtySwap, ?dirtyStop⟩, fun hen hst => ?quiesce,
      fun hen hst => ?inPlace, fun hst => ?thaw, fun hst hkey hexp => ?save, fun raw hinst hst hver => ?restore⟩,
    fun hup w hw => ⟨fun hst hq => ?quiesced, fun hopc hops hrd => ?swapped⟩⟩
  case dirtyStart =>
    refine does_mwSubmit Laws.exec_dirtyStart hidle hpf ?_
    simp only [hen, hoff, h0, h1, hb, hats, Nat.not_lt.2 hlo, Nat.not_lt.2 hhi, Bool.not_true, Bool.or_self, ne_eq, not_true, or_self,
      Bool.false_eq_true, if_false]
  case dirtySwap =>
    refine does_mwSubmit Laws.exec_dirtySwap hidle hpf ?_
    simp only [hon, Bool.not_true, Bool.false_eq_true, if_false]
  case dirtyStop =>
    refine does_mwSubmit Laws.exec_dirtyStop hidle hpf ?_
    simp only [hon, Bool.not_true, Bool.false_eq_true, if_false]
  case quiesce =>
    refine does_mwSubmit Laws.exec_freezeQuiesce hidle hpf (if_neg ?_)
    obtain hst | hst := hst
    · simp only [hen, hst, Bool.not_true, bne_self_eq_false, Bool.false_and, Bool.or_self, Bool.false_eq_true, not_false_eq_true]
    · simp only [hen, hst, Bool.not_true, bne_self_eq_false, Bool.and_false, Bool.or_self, Bool.false_eq_true, not_false_eq_true]
  case inPlace =>
    refine does_mwSubmit Laws.exec_freezeInPlace hidle hpf (if_neg ?_)
    simp only [hen, hst, Bool.not_true, bne_self_eq_false, Bool.or_self, Bool.false_eq_true, not_false_eq_true]
  case thaw => exact does_mwSubmit Laws.exec_thaw hidle hpf (if_neg (Nat.not_lt.2 hst))
  case save =>
    intro x req hsize
    refine does_mwSubmit Laws.exec_save hidle hpf ((if_neg (not_not_intro hst)).trans ((if_neg ?_).trans (if_neg (Nat.not_lt.2 hsize))))
    simp only [List.isEmpty_eq_false_iff.2 hkey, hexp, Bool.not_true, Bool.or_self, Bool.false_eq_true, not_false_eq_true]
  case restore =>
    refine does_mwSubmit Laws.exec_migrationRestore hidle hpf ((if_neg (not_or.2 ⟨not_not_intro hinst, not_not_intro hst⟩)).trans ?_)
    simp only [Nat.not_lt.2 hver, if_false] <;> rfl
  case quiesced =>
    refine does_onIsland Laws.exec_quiesced hup ?_
    simp only [hw]
    refine if_neg ?_
    simp only [hst, hq, ne_eq, not_true, Bool.false_eq_true, or_self, not_false_eq_true]
  case swapped =>
    have hrdDone : (s.dev.hst.rdOps.any fun o => o.fin == .migFlush f.val && !s.dev.opAnswered o) = false := by
      refine List.any_eq_false.2 fun o ho h => ?_
      have hmem : o ∈ s.dev.hst.rdOps.filter fun o => o.fin == .migFlush f.val :=
        List.mem_filter.2 ⟨ho, (Bool.and_eq_true_iff.1 h).1⟩
      rw [hrd] at hmem
      exact absurd hmem List.not_mem_nil
    refine does_onIsland Laws.exec_dirtySwapComplete hup ?_
    simp only [hw, hops, hrdDone, hrd, List.foldl_nil]
    refine if_neg ?_
    simp only [Bool.or_self, Bool.false_eq_true, or_false]
    omega

/-- Settles O39. -/
theorem mailboxCommandsComplete : Obligations.MailboxCommandsComplete := by
  intro s f up q hup
  refine ⟨fun hlive => ⟨fun hfree => ?send, fun hpend => ?cancel⟩, ?take, fun t ht => ?timeout⟩
  case send =>
    intro old seq g h hpresent
    exact does_byWrite Laws.exec_send hup hlive ((if_neg (ne_true_of_eq_false hfree)).trans (if_pos hpresent))
  case cancel => exact does_byWrite Laws.exec_cancel hup hlive (if_pos hpend)
  case take => exact does_onIsland Laws.exec_rxTake hup rfl
  case timeout =>
    refine does_onIsland Laws.exec_mailboxTimeout hup ?_
    simp only [ht]

end Sys2Proof.Machine
end

section
/-!
SUPPORT. Settles O40: the steward's commands.
-/
namespace Sys2Proof.Machine

section
variable {c : Instr} {s : State} {e : Dev} {m : Fin 16} {tmo : BitVec 14}

/-- A command that the running steward takes. -/
theorem does_steward {f : Dev → Dev} (he : exec c s = s.on fun d => d.steward m tmo f) (htakes : s.dev.stewardTakes m tmo) (hf : f s.dev = e) :
    Does c s e :=
  does_on he ((Dev.steward_takes _ _ _ _ htakes).trans hf)

/-- One that any PF may send. -/
theorem does_stewardPf {p : Nat} {f : Nat → Dev → Dev} (he : exec c s = s.on fun d => d.stewardPf m tmo f) (htakes : s.dev.stewardTakes m tmo)
    (hp : stmPf m = some p) (hf : f p s.dev = e) : Does c s e :=
  does_on he ((Dev.stewardPf_takes _ _ _ _ _ htakes hp).trans hf)

/-- One that PF0 alone may send. -/
theorem does_steward0 {f : Dev → Dev} (he : exec c s = s.on fun d => d.steward0 m tmo f) (htakes : s.dev.stewardTakes m tmo)
    (hp : stmPf m = some 0) (hf : f s.dev = e) : Does c s e :=
  does_on he ((Dev.steward0_takes _ _ _ _ htakes hp).trans hf)

end

/-- Settles O40. -/
theorem stewardCommandsComplete : Obligations.StewardCommandsComplete := by
  intro s m tmo
  refine ⟨fun htakes => ⟨fun p hp => ⟨fun off len b hshm => ?load, fun id x hx howner hused hmoult => ?drop, fun id slot inst off map hok => ?bind,
      fun slot howner => ?unbind, fun l hne hlen hok => ?moult, fun item hlo hhi => ?cfgGet, ?fwInfo, ?flashInfo⟩,
      fun hp item v hgood hroom => ?cfgSet, fun hp off len slot inst b hlo hhi hinst hshm => ?inject,
      fun hsec slot kslot owner len key hpf => ⟨fun hslot hzero hrefs => ?key, fun hslot hlen exp => ?kek⟩⟩,
    fun t ht hbusy hent hrun hreset => ?timeout⟩
  case load =>
    refine does_stewardPf Laws.exec_imageLoad htakes hp ?_
    simp only [Dev.shmRead_ok _ _ _ _ _ hshm, ne_eq, not_true, if_false]
    cases imageBreach (slice (b ++ List.replicate len.toNat 0) 0 len.toNat) len.toNat with
    | some x => rfl
    | none =>
      cases s.dev.signBreach (slice (b ++ List.replicate len.toNat 0) 0 len.toNat) with
      | some x => rfl
      | none =>
        cases s.dev.loadImage p (slice (b ++ List.replicate len.toNat 0) 0 len.toNat) with
        | none => rfl
        | some r => rfl
  case drop =>
    refine does_stewardPf Laws.exec_imageDrop htakes hp ?_
    simp only [hx, howner, hused, hmoult, ne_eq, not_true, Bool.or_self, Bool.false_eq_true, if_false]
  case bind =>
    refine does_stewardPf Laws.exec_slotBind htakes hp ?_
    simp only [hok]
  case unbind =>
    refine does_stewardPf Laws.exec_slotUnbind htakes hp ?_
    simp only [howner, ne_eq, not_true, if_false]
  case moult =>
    refine does_stewardPf Laws.exec_moultSet htakes hp ?_
    simp only [hok, List.isEmpty_eq_false_iff.2 hne, decide_eq_false (Nat.not_lt.2 hlen), Bool.or_self, Bool.false_eq_true, if_false]
  case cfgGet => exact does_stewardPf Laws.exec_cfgGet htakes hp (if_neg (by omega))
  case fwInfo => exact does_stewardPf Laws.exec_fwInfo htakes hp rfl
  case flashInfo => exact does_stewardPf Laws.exec_flashInfo htakes hp rfl
  case cfgSet =>
    refine does_steward0 Laws.exec_cfgSet htakes hp ?_
    simp only [hgood, hroom, Bool.false_eq_true, if_false]
  case inject =>
    intro st cls key r hr hroom tok x
    refine does_steward0 Laws.exec_inject htakes hp ((if_neg (by omega)).trans ?_)
    simp only [Dev.shmRead_ok _ _ _ _ _ hshm, ne_eq, not_true, if_false]
    have hcells : s.dev.takeCells (35 * 8 + (Config.injectClass (s.dev.nextStamp 6).1).toNat) (cellsOf len.toNat) = some r := hr
    have hkey : s.dev.robRoom (Config.injectKey (s.dev.nextStamp 6).1).toNat = true := hroom
    simp only [hcells, hkey, Bool.not_true, Bool.false_eq_true, if_false]
    rfl
  case key =>
    refine does_steward Laws.exec_keyLoad htakes ?_
    simp only [hsec, hpf, hzero, hrefs, Nat.not_lt.2 hslot, Nat.lt_irrefl, Bool.not_true, not_true, Bool.false_eq_true, or_self, if_false]
  case kek =>
    refine does_steward Laws.exec_kekLoad htakes ?_
    have hne : len.toNat ≠ 0 := by omega
    have hbad : ¬ (len.toNat ≠ 0 ∧ len.toNat ≠ 16 ∧ len.toNat ≠ 32) := by omega
    simp only [hsec, hpf, hbad, Nat.not_lt.2 hslot, Bool.not_true, not_true, Bool.false_eq_true, or_self, if_false]
    simp only [hne, if_false]
  case timeout =>
    refine does_on Laws.exec_stewardCmdTimeout ?_
    simp only [ht, hbusy, hent, hrun, hreset, ne_eq, not_true, Bool.not_true, Bool.false_eq_true, if_false]

end Sys2Proof.Machine
end

section
/-!
SUPPORT. Settles O41 and O42: the firmware and flash commands, and the fuse window.
-/
namespace Sys2Proof.Machine

variable {s : State} {d : Dev}

/-- The records that a binding writes leave every register but STM_FW_STATUS (R589). -/
theorem putRecord_get (r : Record) {f : Fld} (hf : f.reg ≠ .STM_FW_STATUS) (i : Nat) : (d.putRecord r).get f i = d.get f i :=
  Dev.get_put_ne _ _ _ _ _ _ (.inl hf)

theorem bindRecords_get (x : MoultEntry) {f : Fld} (hf : f.reg ≠ .STM_FW_STATUS) (i : Nat) : (d.bindRecords x).get f i = d.get f i := by
  rw [Dev.bindRecords]
  cases x.image.bind d.image with
  | none => exact putRecord_get _ hf i
  | some y =>
    refine (putRecord_get _ hf i).trans ?_
    split
    · rfl
    · exact putRecord_get _ hf i

theorem foldl_bindRecords_get (l : List MoultEntry) {f : Fld} (hf : f.reg ≠ .STM_FW_STATUS) (i : Nat) :
    (l.foldl (fun d x => d.bindRecords x) d).get f i = d.get f i := by
  induction l generalizing d with
  | nil => rfl
  | cons x l ih => exact ih.trans (bindRecords_get x hf i)

/-- So a moult's result is the same before and after its records. -/
theorem foldl_bindRecords_moultRes (l k : List MoultEntry) (opc : Nat) :
    (l.foldl (fun d x => d.bindRecords x) d).moultRes opc k = d.moultRes opc k := by
  simp only [Dev.moultRes, Dev.activeVer, foldl_bindRecords_get l (f := F.BUF_SLOT_STATE_ACTIVE) (by decide)]

/-- A record that the flash takes is appended, while others still wait (R589). -/
theorem writeRecord_append {r : Record} {rest : List Record} (hwait : d.stw.flash.wait = r :: rest) (hroom : d.flashFull = false)
    (hfits : d.stw.flash.head + r.size ≤ d.stw.flash.tail + 58 * 65536) (hmore : rest ≠ []) :
    d.writeRecord 0 = (d.setFlash (Flash.append { d.stw.flash with wait := rest } r)).raiseLocal 24 31 r.type 0 := by
  simp only [Dev.writeRecord, hwait, hroom, decide_eq_true hfits, List.isEmpty_eq_false_iff.2 hmore, Bool.not_true, Bool.and_false,
    Bool.false_or, Bool.false_eq_true, if_false, show ¬ (0 = 3) by decide]
  rfl

/-- Settles O41. -/
theorem firmwareCommandsComplete : Obligations.FirmwareCommandsComplete := by
  intro s m tmo off len slotOff b fq
  refine ⟨fun htakes hp hroom => ⟨fun hfq => ⟨fun hlo hhi hal hend hshm => ?write, ?finish, fun htrial miss => ⟨?commit, ?commitAdvance⟩,
        fun hlo hhi hshm => ?chry⟩, fun htrial => ?abort⟩,
    fun hrun => ⟨fun t ht htrial hroom hsecs => ?auto, fun r rest hwait hroom hfits hmore => ?record, ?compact, fun hdirty => ?ledger⟩,
    fun hup => ⟨fun j hj hret => ?switch, fun slot hret hcount => ?retired⟩⟩
  case write =>
    dsimp only
    intro he
    have hne : fq ≠ 3 := fun h => hfq (congrArg Fin.val h)
    refine does_steward0 Laws.exec_fwWrite htakes hp ((if_neg (by omega)).trans ?_)
    simp only [Dev.shmRead_ok _ _ _ _ _ hshm, hroom, hne, he, ne_eq, not_true, Bool.false_eq_true, if_false, if_true]
  case finish =>
    have hne : fq ≠ 3 := fun h => hfq (congrArg Fin.val h)
    refine does_steward0 Laws.exec_fwFinish htakes hp ?_
    simp only [hroom, hne, Bool.false_eq_true, if_false]
    cases s.dev.fwFault (s.dev.slotImage s.dev.standby) with
    | none => rfl
    | some x => rfl
  case commit =>
    have hne : fq ≠ 3 := fun h => hfq (congrArg Fin.val h)
    refine does_steward0 Laws.exec_fwCommit htakes hp ?_
    simp only [htrial, hroom, hne, Bool.not_true, Bool.false_eq_true, if_false]
  case commitAdvance =>
    have hne : fq ≠ 3 := fun h => hfq (congrArg Fin.val h)
    refine does_steward0 Laws.exec_fwCommit htakes hp ?_
    simp only [htrial, hroom, hne, Bool.not_true, Bool.false_eq_true, if_false, if_true]
  case chry =>
    dsimp only
    intro he
    have hne : fq ≠ 3 := fun h => hfq (congrArg Fin.val h)
    refine does_steward0 Laws.exec_chryWrite htakes hp ((if_neg (by omega)).trans ?_)
    simp only [Dev.shmRead_ok _ _ _ _ _ hshm, hroom, hne, he, ne_eq, not_true, Bool.false_eq_true, if_false, if_true]
  case abort =>
    refine does_steward0 Laws.exec_fwAbort htakes hp ?_
    simp only [hroom, htrial, Bool.false_eq_true, if_false, if_true]
  case auto =>
    refine does_on Laws.exec_autoCommit ?_
    simp only [ht, htrial, hrun, hroom, bne_iff_ne.2 hsecs, Bool.not_false, Bool.and_self, if_true]
  case record => exact does_on Laws.exec_recordWrite ((if_pos hrun).trans (writeRecord_append hwait hroom hfits hmore))
  case compact => exact does_on Laws.exec_logCompaction (if_pos hrun)
  case ledger =>
    refine does_on Laws.exec_wearLedgerWrite (if_pos ?_)
    rw [hrun, hdirty, Bool.and_self]
  case switch =>
    have hnone : (j.entries.any fun x => s.dev.get F.BUF_SLOT_STATE_RETIRING x.slot != 0) = false :=
      List.any_eq_false.2 fun x hx h => bne_iff_ne.1 h (hret x hx)
    refine does_onIsland Laws.exec_moultSwitch hup ?_
    simp only [hj, hnone, foldl_bindRecords_moultRes, Bool.false_eq_true, if_false]
  case retired =>
    refine does_onIsland Laws.exec_moultRetired hup (congrArg Dev.unbindGone (if_neg ?_))
    rintro (h | h)
    · exact hret h
    · exact h hcount

section
variable {c : Instr} {e : Dev} {src : PwSource}

/-- A command of FUSE.PW that the window takes (R564). -/
theorem does_pw {f : Dev → Dev} (he : exec c s = s.on fun d => d.pwSubmit src f) (htakes : s.dev.pwTakes src) (hf : f s.dev = e) : Does c s e := by
  obtain ⟨hreach, hup, hlive, hidle⟩ := htakes
  exact does_on he ((if_pos hreach).trans ((Dev.submit_idle _ _ _ hup hlive hidle).trans hf))

end

/-- Settles O42. -/
theorem fuseCommandsComplete : Obligations.FuseCommandsComplete := by
  intro s src word data miss t tj
  refine ⟨fun hsensing ov bad w => ⟨?sense, ?senseTimeout⟩,
    fun htakes => ⟨fun hlo hhi hend hgood => ?program, fun hlo hhi hblank => ?lcAdvance, fun h0 h3 hup hmax g hg => ?rollback⟩,
    fun i => ⟨fun hacc => ?jtag, fun hrefused => ?jtagLocked⟩,
    fun hup f p x h act => ⟨fun hown h0 h3 htrust => ⟨?bar4Write, ?bar4Read⟩, ?ide⟩⟩
  case sense => exact does_on Laws.exec_fuseSense (if_pos hsensing)
  case senseTimeout => exact does_on Laws.exec_senseTimeout (if_pos hsensing)
  case program =>
    have hmay : ((List.range data.length).map (word.toNat + ·)).find? (fun w => !s.dev.mayProgram w) = none := by
      refine List.find?_eq_none.2 fun w hw h => ?_
      rw [(hgood w hw).1] at h
      exact absurd h (by decide)
    have hblank : ((List.range data.length).map (word.toNat + ·)).find? (fun w => !s.dev.fuseBlank w) = none := by
      refine List.find?_eq_none.2 fun w hw h => ?_
      rw [(hgood w hw).2] at h
      exact absurd h (by decide)
    refine does_pw Laws.exec_program htakes ((if_neg (by omega)).trans ?_)
    simp only [hmay, hblank]
  case lcAdvance =>
    refine does_pw Laws.exec_lcAdvance htakes ((if_neg (by omega)).trans ((if_neg fun h => ?_).trans ?_))
    · exact absurd h.1 (by omega)
    · simp only [hblank, Bool.not_true, Bool.false_eq_true, if_false]
  case rollback =>
    have hadv : s.dev.rollbackAdvance miss t.toNat = (g, 0, 0) := by
      simp only [Dev.rollbackAdvance, h0, h3, hg, Nat.not_lt.2 hmax, Nat.ne_of_gt hup, Nat.not_lt_of_gt hup, or_self, if_false]
    refine does_pw Laws.exec_rollbackAdvance htakes ?_
    rw [hadv]
  case jtag => exact does_on Laws.exec_jtagInstruction (if_pos hacc)
  case jtagLocked => exact does_on Laws.exec_jtagInstruction (if_neg (ne_true_of_eq_false hrefused))
  case bar4Write =>
    refine does_onIsland Laws.exec_bar4Request hup (if_pos ?_)
    simp only [beq_iff_eq.2 hown, htrust, bne_iff_ne.2 h0, bne_iff_ne.2 h3, Bool.and_self]
  case bar4Read =>
    refine does_onIsland Laws.exec_bar4Request hup (if_pos ?_)
    simp only [beq_iff_eq.2 hown, htrust, bne_iff_ne.2 h0, bne_iff_ne.2 h3, Bool.and_self]
  case ide => exact does_onIsland Laws.exec_ideKmMessage hup rfl

end Sys2Proof.Machine
end

section
/-!
SUPPORT. Settles O43: events, interrupts and faults.
-/
namespace Sys2Proof.Machine

variable {s : State}

/-- What is first of its island among what was sent (R22). -/
theorem any_eq_false_of_first {α : Type} {l : List α} {f : α → Nat} {n : Nat} (h : ∀ x ∈ l, f x ≠ n) : (l.any fun x => f x == n) = false :=
  List.any_eq_false.2 fun x hx hc => h x hx (beq_iff_eq.1 hc)

/-- Settles O43. -/
theorem eventsAndFaultsComplete : Obligations.EventsAndFaultsComplete := by
  intro s k f v n lost
  refine ⟨fun hup => ⟨fun x hx hfirst => ⟨fun hid => ?inst, fun hlo hhi => ?dev⟩, fun hready hlast => ?msix⟩,
    fun hup => ⟨fun m hm hfirst => ?inFlight, fun cls kind island block addr detail hkind hisl hisup hnone => ?detected, fun hclear => ?assert,
      fun t ht => ?silent, fun seq => ?ack, ?memory, fun p hiso hrun hstays => ?clear⟩,
    fun u => ⟨fun hup => ?hangLu, fun hup => ⟨?hangChan, ?hangSlice⟩⟩, fun hup hrun => ?watchdog, fun p hup => ?droop,
    fun hup => ⟨fun b mem syn hquiet => ?storm, fun hfar => ?misaligned, fun hnear => ?aligned, fun w => ?sync⟩⟩
  case inst =>
    refine does_onIsland Laws.exec_eventRaise hup ?_
    simp only [hx, any_eq_false_of_first hfirst, hid, Bool.false_eq_true, if_false, if_true]
  case dev =>
    refine does_onIsland Laws.exec_eventRaise hup ?_
    simp only [hx, any_eq_false_of_first hfirst, Nat.not_lt.2 hlo, hhi, Bool.false_eq_true, if_false, if_true]
  case msix =>
    refine does_onIsland Laws.exec_msixMessage hup ?_
    simp only [hready, hlast, Bool.not_true, Bool.false_eq_true, if_false]
  case inFlight =>
    refine does_onIsland Laws.exec_faultMessage hup ?_
    simp only [hm, any_eq_false_of_first hfirst, Bool.false_eq_true, if_false]
  case detected =>
    have hlisted : (kindLevel cls kind).isNone = false := by
      rw [Option.isNone_eq_false_iff, Option.isSome_iff_ne_none]
      exact hkind
    refine does_onIsland Laws.exec_faultMessage hup ?_
    simp only [hlisted, hisup, any_eq_false_of_first hnone, decide_eq_false (Nat.not_le.2 hisl), Bool.not_true, Bool.or_self, Bool.false_eq_true,
      if_false]
  case assert =>
    exact does_onIsland Laws.exec_fatalAssert hup (if_neg (ne_true_of_eq_false hclear))
  case silent =>
    refine does_onIsland Laws.exec_fatalSilent hup ?_
    simp only [ht]
  case ack => exact does_onIsland Laws.exec_faultAck hup rfl
  case memory => exact does_onIsland Laws.exec_logMemoryFailure hup rfl
  case clear =>
    refine does_onIsland Laws.exec_isolationClear hup ?_
    simp only [Dev.clearIso, hiso, hrun, hstays, Bool.not_true, Bool.or_self, Bool.false_eq_true, if_false]
  case hangLu => exact does_onIsland Laws.exec_operationHang hup rfl
  case hangChan => exact does_onIsland Laws.exec_operationHang hup rfl
  case hangSlice => exact does_onIsland Laws.exec_operationHang hup rfl
  case watchdog => exact does_onIsland Laws.exec_stewardWatchdog hup (if_pos hrun)
  case droop => exact does_onIsland Laws.exec_droopFloor hup rfl
  case storm =>
    refine does_onIsland Laws.exec_ceStorm hup ?_
    simp only [hquiet, Bool.false_eq_true, if_false]
  case misaligned => exact does_onIsland Laws.exec_dtbAlign hup (if_pos hfar)
  case aligned => exact does_onIsland Laws.exec_dtbAlign hup (if_neg (Nat.not_lt.2 hnear))
  case sync => exact does_onIsland Laws.exec_dtbSync hup rfl

end Sys2Proof.Machine
end

section
/-!
SUPPORT. Settles O44 to O46: the group's traffic, its membership and the beacon line.
-/
namespace Sys2Proof.Machine

section
variable {c : Instr} {s : State} {f : Dev → Dev} {e : Dev}

/-- A command of the group protocol, which island 25 runs while the group is enabled. -/
theorem does_onGroup (he : exec c s = s.on fun d => d.onGroup f) (hup : s.dev.isUp 25 = true) (hen : s.dev.flag F.GRP_CFG_ENABLE = true)
    (hf : f s.dev = e) : Does c s e :=
  does_onIsland he hup ((if_pos hen).trans hf)

end

/-- Settles O44. -/
theorem groupTrafficCompletes : Obligations.GroupTrafficCompletes := by
  intro s l b m fseq st c
  refine ⟨fun hup hen => ⟨fun hact => ?hello, ?heard, ?arrival, fun hst hme h0 hpeer hdiv => ?diverged⟩,
    fun hup => ⟨fun f hf => ⟨?refused, ?accepted⟩, fun f t k q hf hredo => ?resend, fun k t hk hty hgone hlive hhold => ?expiry⟩⟩
  case hello =>
    refine does_onGroup Laws.exec_helloSend hup hen ?_
    simp only [hact, Bool.not_true, Bool.false_eq_true, if_false]
  case heard =>
    dsimp only
    intro hact hme hlo hhi hleader
    refine does_onGroup Laws.exec_helloReceive hup hen ((if_neg ?_).trans (congrArg (fun d => Dev.memberHeard d _ _) (if_neg hleader)))
    simp only [hact, beq_false_of_ne hme, beq_false_of_ne (Nat.one_le_iff_ne_zero.1 hlo), decide_eq_false (Nat.not_lt.2 hhi), Bool.not_true,
      Bool.or_self, Bool.false_eq_true, not_false_eq_true]
  case arrival =>
    dsimp only
    intro hup21 hdst hseq r hr
    refine does_onGroup Laws.exec_forwardedCopyArrival hup hen ((if_neg ?_).trans ((if_neg ?_).trans ((if_neg ?_).trans ?_)))
    · simp only [hup21, hdst, Bool.not_true, bne_self_eq_false, Bool.or_self, Bool.false_eq_true, not_false_eq_true]
    · rw [hseq, Nat.add_sub_cancel_left]
      decide
    · rw [hseq, Nat.add_sub_cancel_left]
      decide
    · simp only [hr, Option.getD_some, Option.isSome_some]
  case diverged =>
    refine does_onGroup Laws.exec_timeDiverged hup hen (if_neg ?_)
    simp only [hst, hme, h0, hpeer, hdiv, ne_eq, not_true, Bool.false_eq_true, or_self, not_false_eq_true]
  case refused =>
    refine does_onIsland Laws.exec_forwardAck hup ?_
    simp only [hf, if_true]
  case accepted =>
    refine does_onIsland Laws.exec_forwardAck hup ?_
    simp only [hf, Bool.false_eq_true, if_false]
  case resend =>
    dsimp only
    intro hk hq
    refine does_onIsland Laws.exec_refuseResend hup ?_
    simp only [hf, hredo, hk, hq]
  case expiry =>
    refine does_onIsland Laws.exec_groupHoldExpiry hup ?_
    simp only [hk, hty, hgone, hlive, hhold, ne_eq, not_true, Bool.false_eq_true, or_self, if_false]

/-- The leader and the members in force are registers, apart from what the protocol remembers. -/
theorem grpSet_kept (d : Dev) (g : GProto) (st : Nat) :
    ({ d with gp := g } : Dev).grpSet st (({ d with gp := g } : Dev).get F.GRP_STATUS_LEADER) (({ d with gp := g } : Dev).get F.GRP_STATUS_CURRENT) =
      ({ d with gp := g } : Dev).grpSet st (d.get F.GRP_STATUS_LEADER) (d.get F.GRP_STATUS_CURRENT) :=
  rfl

/-- Settles O45. -/
theorem groupMembershipCompletes : Obligations.GroupMembershipCompletes := by
  intro s off t len epoch data enc m ld cur
  refine ⟨fun hidle => ⟨fun hlead hmaj hrun hshm henc htab => ?commit, ⟨fun hst => ?leave, fun hst => ?held⟩, ?rejoin⟩,
    fun hup hen => ⟨fun hme henc htab hheard => ?prepare, fun r hr hcur happ hnew => ⟨?readyRefused, fun hall => ?readyAll, fun hsome => ?readyOne⟩,
      fun p hp => ⟨?commitTold, fun a ha => ?commitApplies, fun happ hrun => ?discard⟩, ?aborts, fun r hr happ => ?prepareLate,
      fun hst hheld htime hrun hset hquiet hchosen hmaj => ?form, fun hst hme h0 hlost => ⟨fun hnew => ?follows, fun hnew hprep => ?leads⟩,
      ⟨fun a ha hst => ?fence, fun a ha hst => ?recovers, fun a hlead hme hcur haway => ?memberLost⟩, fun x hx hlead => ?applyLate⟩,
    fun hup => ⟨fun seq op hseq hlead => ?write, fun k seq => ?applied, fun n ix div hlead hcur hscope => ?aging⟩⟩
  case commit =>
    refine does_window_submit Laws.exec_groupCommit hidle ?_
    simp only [hlead, hrun, Nat.not_lt.2 hmaj, Dev.shmRead_ok _ _ _ _ _ hshm, henc, htab, Option.isSome_none, ne_eq, not_true, Bool.not_true,
      Bool.false_eq_true, if_false]
  case leave => exact does_window_submit Laws.exec_groupLeave hidle (congrArg (fun d => Dev.gwDone d 0 0) (if_pos hst))
  case held => exact does_window_submit Laws.exec_groupLeave hidle (congrArg (fun d => Dev.gwDone d 0 0) (if_neg hst))
  case rejoin => exact does_window_submit Laws.exec_groupRejoin hidle rfl
  case prepare =>
    refine does_onGroup Laws.exec_prepare hup hen ((if_neg hme).trans ?_)
    simp only [henc, htab, hheard, Option.isSome_none, Bool.not_true, Bool.or_self, Bool.false_eq_true, if_false]
  case readyRefused =>
    refine does_onGroup Laws.exec_ready hup hen ?_
    simp only [hr, hcur, happ, contains_eq_false_of_not_mem hnew, Option.isSome_none, Bool.not_true, Bool.or_self, Bool.false_eq_true, if_false,
      if_true]
  case readyAll =>
    refine does_onGroup Laws.exec_ready hup hen ?_
    simp only [hr, hcur, happ, contains_eq_false_of_not_mem hnew, Option.isSome_none, Bool.not_true, Bool.or_self, Bool.false_eq_true, if_false]
    exact if_pos hall
  case readyOne =>
    refine does_onGroup Laws.exec_ready hup hen ?_
    simp only [hr, hcur, happ, contains_eq_false_of_not_mem hnew, Option.isSome_none, Bool.not_true, Bool.or_self, Bool.false_eq_true, if_false]
    exact if_neg (ne_true_of_eq_false hsome)
  case commitTold =>
    refine does_onGroup Laws.exec_commit hup hen ?_
    simp only [hp]
  case commitApplies =>
    refine does_onGroup Laws.exec_commitApply hup hen ?_
    simp only [hp, ha]
  case discard =>
    refine does_onGroup Laws.exec_preparedDiscard hup hen ?_
    simp only [hp, happ, hrun, Option.isSome_none, Bool.false_eq_true, or_self, if_false]
  case aborts => exact does_onGroup Laws.exec_groupAbort hup hen rfl
  case prepareLate =>
    refine does_onGroup Laws.exec_prepareTimeout hup hen ?_
    simp only [hr, happ, Option.isSome_none, Bool.false_eq_true, if_false]
  case form =>
    refine does_onGroup Laws.exec_groupForm hup hen (if_neg ?_)
    simp only [hst, hheld, htime, hrun, hset, hquiet, hchosen, Nat.not_lt.2 hmaj, Option.isSome_none, ne_eq, not_true, Bool.false_eq_true,
      or_self, not_false_eq_true]
  case follows =>
    refine does_onGroup Laws.exec_leaderLost hup hen ((if_neg ?_).trans (if_pos hnew))
    simp only [hst, hme, h0, hlost, ne_eq, not_true, Bool.false_eq_true, or_self, not_false_eq_true]
  case leads =>
    refine does_onGroup Laws.exec_leaderLost hup hen ((if_neg ?_).trans ((if_neg (not_not_intro hnew)).trans ?_))
    · simp only [hst, hme, h0, hlost, ne_eq, not_true, Bool.false_eq_true, or_self, not_false_eq_true]
    · simp only [hprep]
  case fence =>
    refine does_onGroup Laws.exec_selfFence hup hen ?_
    simp only [ha, hst, if_true]
  case recovers =>
    refine does_onGroup Laws.exec_fenceRecovery hup hen ?_
    simp only [ha, hst, if_true]
    exact (grpSet_kept _ _ 2).symm
  case memberLost =>
    refine does_onGroup Laws.exec_memberLost hup hen ((if_neg ?_).trans ?_)
    · simp only [hlead, hcur, beq_false_of_ne hme, Bool.not_true, Bool.false_and, Bool.or_self, Bool.false_eq_true, not_false_eq_true]
    · simp only [haway]
  case applyLate =>
    refine does_onGroup Laws.exec_replicatedApplyTimeout hup hen ?_
    simp only [hx, hlead, if_true]
  case write =>
    refine does_onIsland Laws.exec_replicatedWrite hup (if_neg ?_)
    simp only [Nat.not_lt.2 hseq, hlead, Bool.false_eq_true, or_self, not_false_eq_true]
  case applied => exact does_onIsland Laws.exec_replicatedWrite hup rfl
  case aging =>
    dsimp only
    rintro ⟨j, hj, hdiv, hmiss⟩
    refine does_onIsland Laws.exec_replicatedAgingReport hup ((if_neg ?_).trans (if_neg fun hall => ?_))
    · simp only [hlead, hcur, hscope, Bool.not_true, bne_self_eq_false, Bool.or_self, Bool.false_eq_true, not_false_eq_true]
    · have hneed := List.all_eq_true.1 hall j (List.mem_filter.2 ⟨hj, by rw [hdiv]; rfl⟩)
      obtain ⟨r, hr, hsame⟩ := List.any_eq_true.1 hneed
      simp only [Bool.and_eq_true, beq_iff_eq, and_assoc] at hsame
      exact hmiss r hr hsame

/-- Settles O46. -/
theorem beaconLineCompletes : Obligations.BeaconLineCompletes := by
  intro s b at_ targets hup hen
  refine ⟨fun hrend => ⟨fun hloud => ⟨?collides, fun hnone => ?sent⟩, fun hloud => ⟨fun r => ?wakeCollides, ?wakeSent⟩, fun hline => ?holdOver⟩,
    fun t ht hloud => ?rendezvous, ?beacon, ?announce, ?wake, fun htrim => ?trim, fun hsil hbad => ?silenced, ?pulse, fun hcoc hline => ?awake⟩
  case collides =>
    refine does_onGroup Laws.exec_beaconTransmit hup hen ?_
    simp only [hrend, hloud, Option.isSome_none, Bool.false_eq_true, if_false, if_true]
  case sent =>
    refine does_onGroup Laws.exec_beaconTransmit hup hen ?_
    simp only [hrend, hloud, hnone, Option.isSome_none, Bool.false_eq_true, if_false]
  case wakeCollides =>
    refine does_onGroup Laws.exec_wakeFrameSend hup hen ?_
    simp only [hrend, Option.isSome_none, Bool.false_eq_true, if_false, if_true]
    exact if_neg (ne_true_of_eq_false hloud)
  case wakeSent =>
    refine does_onGroup Laws.exec_wakeFrameSend hup hen ?_
    simp only [hrend, Option.isSome_none, Bool.false_eq_true, if_false]
    exact if_neg (ne_true_of_eq_false hloud)
  case holdOver =>
    refine does_onGroup Laws.exec_holdOverExpiry hup hen ?_
    simp only [hrend, hline, Option.isSome_none, Bool.false_eq_true, if_false]
  case rendezvous =>
    refine does_onGroup Laws.exec_rendezvousWaitExpiry hup hen ?_
    simp only [ht]
    exact if_neg (ne_true_of_eq_false hloud)
  case beacon => exact does_onGroup Laws.exec_beaconReceive hup hen rfl
  case announce => exact does_onGroup Laws.exec_announceReceive hup hen rfl
  case wake => exact does_onGroup Laws.exec_wakeReceive hup hen rfl
  case trim => exact does_onGroup Laws.exec_slotTrim hup hen (if_pos htrim)
  case silenced =>
    refine does_onGroup Laws.exec_slotSilenced hup hen ?_
    simp only [hsil]
    exact if_neg (Nat.not_lt.2 hbad)
  case pulse => exact does_onGroup Laws.exec_wakePulse hup hen rfl
  case awake =>
    refine does_onGroup Laws.exec_gblLineAwake hup hen ?_
    simp only [hcoc, hline, Bool.not_true, Bool.false_eq_true, if_false]

end Sys2Proof.Machine
end

section
/-!
SUPPORT. Settles O47 to O49: the management bus, the I2C ports and Eyespot.
-/
namespace Sys2Proof.Machine

variable {s : State}

/-- The device once a message that waited has been taken. -/
abbrev Dev.msgTaken (d : Dev) (m : MctpMsg) : Dev := d.setMgt fun x => { x with msgs := x.msgs.erase m }

section
variable {c : Instr} {e : Dev} {m : MctpMsg} {p : MctpMsg → Bool} {f : Dev → MctpMsg → Dev}

/-- The first message that waits is taken and answered. -/
theorem Dev.serve_waits {d : Dev} (hup : d.isUp 24 = true) (hwaits : d.mgt.msgs.find? p = some m) : d.serve p f = f (d.msgTaken m) m := by
  rw [Dev.serve, Dev.onIsland_up _ _ _ hup, hwaits]

theorem does_serve (he : exec c s = s.on fun d => d.serve p f) (hup : s.dev.isUp 24 = true) (hwaits : s.dev.mgt.msgs.find? p = some m)
    (hf : f (s.dev.msgTaken m) m = e) : Does c s e :=
  does_on he ((Dev.serve_waits hup hwaits).trans hf)

/-- A vendor command while the firmware runs (R506). -/
theorem does_vendor {k : Nat} (he : exec c s = s.on fun d => d.vendor k f) (hup : s.dev.isUp 24 = true)
    (hwaits : s.dev.mgt.msgs.find? (isVendor k) = some m) (hrun : (s.dev.msgTaken m).stewardState = 1) (hf : f (s.dev.msgTaken m) m = e) :
    Does c s e :=
  does_serve he hup hwaits ((if_pos hrun).trans hf)

/-- An SPDM request on MCTP while the firmware runs (R506). -/
theorem does_spdm {k : Nat} {f : Dev → Option MctpMsg → List Nat → Dev × List Nat} (he : exec c s = s.on fun d => d.spdm .mctp k f)
    (hup : s.dev.isUp 24 = true) (hrun : s.dev.stw.running = true)
    (hwaits : s.dev.mgt.msgs.find? (fun m => m.byte 0 == 5 && m.byte 2 == k && m.session.isNone) = some m)
    (hf : (f (s.dev.msgTaken m) (some m) (m.bytes.drop 1)).1.reply m (5 :: (f (s.dev.msgTaken m) (some m) (m.bytes.drop 1)).2) = e) :
    Does c s e := by
  refine does_on he ((if_neg ?_).trans ((Dev.serve_waits hup hwaits).trans hf))
  rw [hrun]
  decide

end

/-- Settles O47. -/
theorem managementMessagesComplete : Obligations.ManagementMessagesComplete := by
  intro s b src tag m c hup
  refine ⟨fun haddr hlen => ⟨fun hpec => ?packet, fun hpec => ?pecError⟩, fun r hr => ?reassembly, fun hwaits hlen hop h0 hff => ?setEid,
    fun hwaits => ?getEid, fun hwaits => ?uuid, fun hwaits hty => ?version, fun hwaits => ?types, fun hwaits hsel => ?vendorSupport,
    fun hwaits hhold => ?identify, fun hwaits => ?health,
    fun hrun => ⟨fun hwaits hlo hhi => ?log, fun hwaits hmod => ?modStatus, fun hwaits hmod hlo hhi => ?modRead,
      fun hwaits hses hmod hlo hhi => ?modWrite, fun hwaits hready ch hch hses hfree => ?stewardTakes⟩,
    fun w q hready => ?stewardAnswers,
    fun hrun => ⟨fun hwaits => ?measure, fun hsecret => ⟨fun hwaits => ?certificate, fun hwaits hslot => ?challenge, fun hwaits ch hch => ?exchange⟩⟩,
    fun hopen hnone => ?ends⟩
  case packet =>
    refine does_onIsland Laws.exec_mctpPacket hup ((if_neg (not_not_intro haddr)).trans (if_neg ?_))
    rintro (h | h)
    · omega
    · exact h hpec
  case pecError => exact does_onIsland Laws.exec_mctpPacket hup ((if_neg (not_not_intro haddr)).trans (if_pos (.inr hpec)))
  case reassembly =>
    refine does_onIsland Laws.exec_reassemblyTimeout hup ?_
    simp only [hr]
  case setEid =>
    refine does_serve Laws.exec_setEndpointId hup hwaits ((if_neg (Nat.not_lt.2 hlen)).trans (if_neg ?_))
    simp only [Nat.not_lt.2 hop, h0, hff, or_self, not_false_eq_true]
  case getEid => exact does_serve Laws.exec_getEndpointId hup hwaits rfl
  case uuid => exact does_serve Laws.exec_getEndpointUuid hup hwaits rfl
  case version => exact does_serve Laws.exec_getMctpVersionSupport hup hwaits (if_pos (List.contains_iff_mem.2 hty))
  case types => exact does_serve Laws.exec_getMessageTypeSupport hup hwaits rfl
  case vendorSupport => exact does_serve Laws.exec_getVendorDefinedMessageSupport hup hwaits (if_pos hsel)
  case identify =>
    have hkept : (s.dev.msgTaken m).flag F.FUSE_STATUS_SECURE_HOLD = false := hhold
    refine does_serve Laws.exec_identify hup hwaits ?_
    simp only [hkept, Bool.false_eq_true, if_false]
  case health => exact does_serve Laws.exec_health hup hwaits rfl
  case log => exact does_vendor Laws.exec_logRead hup hwaits hrun (if_neg (by omega))
  case modStatus => exact does_vendor Laws.exec_moduleStatus hup hwaits hrun (if_neg (by omega))
  case modRead => exact does_vendor Laws.exec_moduleRead hup hwaits hrun (if_neg (by omega))
  case modWrite =>
    refine does_vendor Laws.exec_moduleWrite hup hwaits hrun ((if_neg ?_).trans (if_neg (by omega)))
    rw [Option.isNone_iff_eq_none]
    exact hses
  case stewardTakes =>
    refine does_onIsland Laws.exec_stewardCmd hup ?_
    rw [hready]
    refine (Dev.serve_waits hup hwaits).trans ((if_pos hrun).trans ?_)
    simp only [hses, hch, hfree, Option.isSome_none, Bool.false_eq_true, if_false, dif_pos]
  case stewardAnswers =>
    refine does_onIsland Laws.exec_stewardCmd hup ?_
    rw [hready]
  case measure => exact does_spdm Laws.exec_getMeasurements hup hrun hwaits rfl
  case certificate =>
    refine does_spdm Laws.exec_getCertificate hup hrun hwaits ?_
    simp only [hsecret, Bool.false_eq_true, if_false]
  case challenge =>
    refine does_spdm Laws.exec_challenge hup hrun hwaits ?_
    simp only [hsecret, hslot, Bool.false_eq_true, ne_eq, not_true, if_false]
  case exchange =>
    refine does_spdm Laws.exec_keyExchange hup hrun hwaits ?_
    simp only [hsecret, hch, Bool.false_eq_true, if_false]
  case ends =>
    refine does_onIsland Laws.exec_spdmSessionEnd hup ((if_neg ?_).trans ?_)
    · rw [List.contains_iff_mem.2 hopen]
      decide
    · simp only [hnone]

/-- Towards a lower target the next step is no rise (R518). -/
theorem avsStep_le {now target : Nat} (h : target < now) : avsStep now target ≤ now := by
  rw [avsStep, if_neg (by omega), if_neg (by omega)]
  omega

/-- Settles O48. -/
theorem i2cCommandsComplete : Obligations.I2cCommandsComplete := by
  intro s p a byte draw bank page off len bit_ m r data hup
  have hport : p.castSucc.val ≠ 4 := by
    rw [Fin.val_castSucc]
    omega
  refine ⟨fun q t hq hok => ⟨fun hwait => ?transaction, fun hwait hlost => ?lost, fun w hwait => ?backoff, ?tmoTarget, ?tmo⟩,
    fun b t hb hwait => ?smb, fun hrole => ⟨fun hok => ⟨?recovers, ?stuck⟩, fun hfailed => ?recoversLate⟩, fun hrun hvalid hrole => ?poll,
    fun hlive hst hlo => ⟨fun hhi => ?read, fun hhi => ?write⟩, fun mv hmv => ?vout, fun hrun hvalid => ?telemetry, fun hrun hoff => ?railOff, ?rail⟩
  case transaction =>
    refine does_onIsland Laws.exec_i2cTransaction hup ((if_neg hport).trans ((if_neg (ne_true_of_eq_false hok)).trans ?_))
    simp only [Fin.val_castSucc, hq, hwait, Option.isSome_none, Bool.false_eq_true, if_false]
  case lost =>
    refine does_onIsland Laws.exec_arbitrationLost hup ((if_neg hport).trans ?_)
    simp only [Fin.val_castSucc, hq, hwait, hok, Nat.ne_of_lt hlost, Option.isSome_none, Bool.or_self, Bool.false_eq_true, if_false]
  case backoff =>
    refine does_onIsland Laws.exec_arbBackoffExpiry hup ((if_neg hport).trans ?_)
    simp only [Fin.val_castSucc, hq, hwait]
  case tmoTarget =>
    refine does_onIsland Laws.exec_busTimeout hup ((if_neg hport).trans (if_neg ?_))
    simp only [Fin.val_castSucc, hq, hok, List.isEmpty_cons, Bool.or_self, Bool.false_eq_true, not_false_eq_true]
  case tmo =>
    refine does_onIsland Laws.exec_busTimeout hup ((if_neg hport).trans (if_neg ?_))
    simp only [Fin.val_castSucc, hq, hok, List.isEmpty_cons, Bool.or_self, Bool.false_eq_true, not_false_eq_true]
  case smb =>
    refine does_onIsland Laws.exec_i2cTransaction hup ((if_pos rfl).trans ?_)
    simp only [hb, hwait, Option.isSome_none, Bool.false_eq_true, if_false]
  case recovers => exact does_onIsland Laws.exec_busRecovery hup ((if_neg hrole).trans ((if_neg (ne_true_of_eq_false hok)).trans (if_pos rfl)))
  case stuck =>
    exact does_onIsland Laws.exec_busRecovery hup ((if_neg hrole).trans ((if_neg (ne_true_of_eq_false hok)).trans (if_neg Bool.false_ne_true)))
  case recoversLate => exact does_onIsland Laws.exec_busRecovery hup ((if_neg hrole).trans ((if_pos hfailed).trans (if_pos rfl)))
  case poll =>
    refine does_onIsland Laws.exec_modulePoll hup (if_neg ?_)
    simp only [hrun, hvalid, hrole, Bool.not_true, bne_self_eq_false, Bool.or_self, Bool.false_eq_true, not_false_eq_true]
  case read =>
    refine does_on Laws.exec_modRead ((Dev.onIsland_up _ _ _ hup).trans ((if_neg (by omega)).trans ?_))
    exact Dev.submit_idle _ _ _ hup hlive hst
  case write =>
    refine does_on Laws.exec_modWrite ((Dev.onIsland_up _ _ _ hup).trans ((if_neg (by omega)).trans ?_))
    exact Dev.submit_idle _ _ _ hup hlive hst
  case vout =>
    refine does_onIsland Laws.exec_voutCommand hup ?_
    simp only [hmv]
  case telemetry =>
    refine does_onIsland Laws.exec_avsTelemetry hup (if_neg ?_)
    simp only [hrun, hvalid, Bool.not_true, Bool.or_self, Bool.false_eq_true, not_false_eq_true]
  case railOff =>
    refine does_onIsland Laws.exec_avsTargetUpdate hup ?_
    simp only [hrun, hoff, Bool.not_true, Bool.not_false, Bool.false_eq_true, if_false, if_true]
  case rail =>
    dsimp only
    intro hrun huse
    refine ⟨fun hat hstay => ?_, fun hdown hstep => ?_, fun hup' hstep hgood => ?_⟩
    · refine does_onIsland Laws.exec_avsTargetUpdate hup ?_
      simp only [hrun, huse, hstay, Nat.le_of_eq hat, Bool.not_true, Bool.false_eq_true, true_or, if_false, if_true]
    · refine does_onIsland Laws.exec_avsTargetUpdate hup ?_
      simp only [hrun, huse, hstep, Nat.le_of_lt hdown, Nat.not_lt.2 (avsStep_le hdown), Bool.not_true, Bool.false_eq_true, and_false, or_self, if_false,
        if_true]
    · refine does_onIsland Laws.exec_avsTargetUpdate hup ?_
      simp only [hrun, huse, hstep, hgood, Nat.not_le.2 hup', Bool.not_true, Bool.false_eq_true, false_and, or_self, if_false]

/-- Settles O49. -/
theorem eyespotCommandsComplete : Obligations.EyespotCommandsComplete := by
  intro s v ch gain chop osr count hup
  refine ⟨fun hscan => ?scan, fun q hruns hq => ?single, fun hruns => ?timeout, fun hlive hst hch hosr hcount hgain => ?conversion,
    fun hrun => ⟨fun hsame hmhz => ?same, fun hchanged => ?changed⟩⟩
  case scan =>
    have hnone : (if s.dev.eye.runs then s.dev.eye.single else none) = none := by
      obtain h | h := hscan
      · rw [h]
        rfl
      · rw [h, ite_self]
    refine does_onIsland Laws.exec_sample hup ?_
    simp only [hnone]
  case single =>
    refine does_onIsland Laws.exec_sample hup ?_
    simp only [hruns, hq, if_true]
  case timeout =>
    dsimp only
    intro hcond
    exact does_onIsland Laws.exec_sampleTimeout hup ((if_neg (ne_true_of_eq_false hruns)).trans (if_neg hcond))
  case conversion =>
    refine does_on Laws.exec_singleConversion ((Dev.submit_idle _ _ _ hup hlive hst).trans (if_neg ?_))
    rintro (h | h | h | ⟨hlow, hone⟩)
    · omega
    · omega
    · exact hcount h
    · rw [hgain hlow] at hone
      exact absurd hone (by decide)
  case same =>
    have hkept : (s.dev.throttleMask != s.dev.eye.capped ||
        (s.dev.throttleMask != 0 && s.dev.get F.EYE_THROT_THROTTLE_MHZ != s.dev.eye.mhz)) = false := by
      rw [bne_eq_false_iff_eq.2 hsame, Bool.false_or]
      obtain h | h := hmhz
      · rw [bne_eq_false_iff_eq.2 h, Bool.false_and]
      · rw [bne_eq_false_iff_eq.2 h, Bool.and_false]
    refine does_onIsland Laws.exec_throttleApply hup ((if_neg ?_).trans (if_neg (ne_true_of_eq_false hkept)))
    rw [hrun]
    decide
  case changed =>
    refine does_onIsland Laws.exec_throttleApply hup ((if_neg ?_).trans (if_pos ?_))
    · rw [hrun]
      decide
    · rw [bne_iff_ne.2 hchanged, Bool.true_or]

end Sys2Proof.Machine
end

section
/-!
SUPPORT. Settles O50 and O51: power, clocks and device time.
-/
namespace Sys2Proof.Machine

variable {s : State} {d : Dev}

/-- A write of WARM_CTL whose KEY matches and whose GO is 1 is a request (R551). -/
theorem warmWrite_request {v cause : Nat} (hkey : v / 2 ^ 16 = 0x5752) (hgo : bit v 0 = true) : d.warmWrite v 15 cause = d.warmRequest cause := by
  have hall : bit 15 0 = true := by decide
  simp only [Dev.warmWrite, hkey, hgo, hall, Bool.and_self, if_true]
  exact if_neg (by decide)

/-- The straps are registers. -/
theorem latchStraps_pwr (v : Nat) : (d.latchStraps v).pwr = d.pwr := by
  simp only [Dev.latchStraps, Dev.put_pwr, Dev.wr_pwr]

/-- Settles O50. -/
theorem powerEventsComplete : Obligations.PowerEventsComplete := by
  intro s hist straps v n
  refine ⟨fun hlive hst hwarm hled hxtal => ?request, fun hst hled => ?entry, fun src hsrc hnone => ⟨fun hst => ?latches, fun hst hrail => ?wakes⟩,
    fun hst hrail hlat => ?latched, fun hoff hgood hrail hpor => ?goodAssert, fun t ht => ?goodTimeout,
    fun t ht => ⟨fun hst => ?exits, fun hst hre => ?releases⟩, fun hst hgood => ?goodFall, fun hoff => ?porAssert, fun hpor hoff hgood => ?porDeassert,
    ?aonLoss, fun hdown h25 h16 h20 h24 hwarm hpor hoff hhold hst => ?islandEnd,
    fun hup => ⟨fun hkey hgo => ⟨?warmPf, ?warmSteward⟩, fun hauto hload p hp hfirst => ?parkWake, ?xtalAon, ?xtal32, fun hnet => ?net0, fun hnet => ?net1,
      fun h hpcie hst => ?pcie, fun hbuf => ?hbm, ?xtalBack⟩,
    fun t ht => ?warmRelease, fun t ht => ⟨fun hdone => ?ledgersDone, fun hleft => ?ledgersLate⟩, fun p hpod hst hreq hdue => ?podRun⟩
  case request =>
    refine does_byWrite Laws.exec_cocoonReq hlive.1 hlive.2 (if_neg ?_)
    simp only [hst, hwarm, hled, hxtal, Option.isSome_none, ne_eq, not_true, Bool.false_eq_true, or_self, not_false_eq_true]
  case entry => exact does_on Laws.exec_cocoonEntry (if_pos ⟨hst, hled⟩)
  case latches =>
    have h3 : src.castSucc.val ≠ 3 := by
      rw [Fin.val_castSucc]
      omega
    refine does_on Laws.exec_cocoonWake ((if_neg h3).trans ?_)
    simp only [Dev.cocoonWake, Fin.val_castSucc, hsrc, hst, hnone, Bool.not_true, Bool.false_eq_true, and_self, if_false, if_true]
  case wakes =>
    have h3 : src.castSucc.val ≠ 3 := by
      rw [Fin.val_castSucc]
      omega
    refine does_on Laws.exec_cocoonWake ((if_neg h3).trans ?_)
    simp only [Dev.cocoonWake, Fin.val_castSucc, hsrc, hst, hnone, hrail, show ¬ (1 = 4) by decide, Bool.not_true, Bool.false_eq_true, false_and, and_self,
      if_false, if_true]
  case latched => exact does_on Laws.exec_latchedWake (if_pos ⟨hst, hrail, hlat⟩)
  case goodAssert =>
    refine does_on Laws.exec_pwrGoodAssert ((if_neg (ne_true_of_eq_false hoff)).trans ((if_neg ?_).trans (if_neg (ne_true_of_eq_false hpor))))
    rw [hgood, hrail]
    decide
  case goodTimeout =>
    refine does_on Laws.exec_pwrGoodTimeout ?_
    simp only [ht]
  case exits =>
    refine does_on Laws.exec_islandRelease ?_
    simp only [ht]
    exact if_pos hst
  case releases =>
    refine does_on Laws.exec_islandRelease ?_
    simp only [ht]
    exact (if_neg hst).trans (congrArg (fun d : Dev => Dev.refEvent { d with pwr := { d.pwr with relatch := false } } 0 true) (if_pos hre))
  case goodFall =>
    refine does_on Laws.exec_pwrGoodFall (if_neg ?_)
    rw [hgood]
    exact not_or.2 ⟨hst, Bool.noConfusion⟩
  case porAssert => exact does_on Laws.exec_porAssert (if_neg (ne_true_of_eq_false hoff))
  case porDeassert =>
    refine does_on Laws.exec_porDeassert ((if_neg ?_).trans (if_pos ?_))
    · rw [hpor, hoff]
      decide
    · rw [latchStraps_pwr]
      exact hgood
  case aonLoss => exact does_on Laws.exec_aonPowerLoss rfl
  case islandEnd =>
    refine does_on Laws.exec_islandResetEnd ((if_neg ?_).trans ((if_neg (Nat.not_lt.2 h16)).trans ((if_neg h20).trans (if_neg h24))))
    simp only [hdown, hwarm, hpor, hoff, hhold, beq_false_of_ne h25, beq_false_of_ne hst, decide_eq_false (Nat.not_lt.2 h16), Option.isSome_none,
      Bool.false_and, Bool.or_self, Bool.false_eq_true, not_false_eq_true]
  case warmPf => exact does_onIsland Laws.exec_warmReset hup (warmWrite_request hkey hgo)
  case warmSteward => exact does_onIsland Laws.exec_warmReset hup (warmWrite_request hkey hgo)
  case parkWake =>
    refine does_onIsland Laws.exec_parkAutoWake hup ((if_neg ?_).trans ?_)
    · rw [hauto, hload, Bool.true_or]
      decide
    · simp only [hp, hfirst, if_true]
  case xtalAon => exact does_onIsland Laws.exec_clockLoss hup rfl
  case xtal32 => exact does_onIsland Laws.exec_clockLoss hup rfl
  case net0 => exact does_onIsland Laws.exec_clockLoss hup (if_pos (.inl hnet))
  case net1 => exact does_onIsland Laws.exec_clockLoss hup (if_pos (.inl hnet))
  case pcie =>
    have hin : ¬ ((!s.dev.isUp 20 || s.dev.hpState h.val == 0) = true) := by
      rw [hpcie, beq_false_of_ne hst]
      decide
    obtain ⟨h, hlt⟩ := h
    obtain rfl | rfl : h = 0 ∨ h = 1 := by omega
    · exact does_onIsland Laws.exec_clockLoss hup (if_neg hin)
    · exact does_onIsland Laws.exec_clockLoss hup (if_neg hin)
  case hbm => exact does_onIsland Laws.exec_clockLoss hup (if_pos hbuf)
  case xtalBack => exact does_onIsland Laws.exec_xtal32kRecover hup rfl
  case warmRelease =>
    refine does_on Laws.exec_warmRelease ?_
    simp only [ht]
  case ledgersDone =>
    refine does_on Laws.exec_warmLedgerTimeout ?_
    simp only [ht, hdone, Bool.false_eq_true, if_false]
  case ledgersLate =>
    refine does_on Laws.exec_warmLedgerTimeout ?_
    simp only [ht, hleft, if_true]
  case podRun =>
    refine does_onIsland Laws.exec_podRun hpod ((if_pos hst).trans ((if_neg ?_).trans ?_))
    · rw [Dev.podsDue, Dev.put_stw, ← Dev.podsDue, hdue, Bool.false_and]
      exact Bool.false_ne_true
    · rw [if_pos hreq]

/-- Time passes at the DTB, less the steps it has taken. -/
theorem reach_later {t : Nat} (h : d.mono < t) : (d.reach t).sys = { d.sys with dtbFrac := (t + d.sys.steps) * 2 ^ 32 } := by
  rw [Dev.reach, if_pos h, Dev.setDtb, Dev.wr_sys]

/-- A step moves the DTB and counts its ns, so deadlines stay (R539). -/
theorem dtbStep_sys {v : Nat} (hv : v ≠ 0) :
    (d.dtbStep v).sys = { d.sys with dtbFrac := d.sys.dtbFrac + v * 2 ^ 32, steps := d.sys.steps + v } := by
  simp only [Dev.dtbStep, hv, if_false, Dev.raiseLocal, Dev.raise_sys, Dev.fault_sys, Dev.setDtb, Dev.wr_sys]

/-- Settles O51. -/
theorem timeCommandsComplete : Obligations.TimeCommandsComplete := by
  intro s v a ⟨hup, hlive⟩
  refine ⟨fun hv => ?step, fun hok => ?adj, fun hlocked => ?unlocks, fun hfree hsteer hst hother hfirst => ?steers⟩
  case step =>
    have hne : v.toNat ≠ 0 := fun h => hv (BitVec.eq_of_toNat_eq h)
    have hsys := dtbStep_sys (d := s.dev.reach (s.dev.mono + 2000)) hne
    rw [reach_later (Nat.lt_add_of_pos_right (by decide))] at hsys
    have hnow : ((s.dev.reach (s.dev.mono + 2000)).dtbStep v.toNat).now = s.dev.mono + 2000 + s.dev.sys.steps + v.toNat := by
      rw [Dev.now, hsys, ← Nat.add_mul]
      exact Nat.mul_div_cancel _ (by decide)
    refine ⟨does_byWrite Laws.exec_timeStep hup hlive (if_neg hne), ?_, hnow⟩
    rw [Dev.mono, hnow, hsys]
    show s.dev.mono + 2000 + s.dev.sys.steps + v.toNat - (s.dev.sys.steps + v.toNat) = s.dev.mono + 2000
    rw [Nat.add_assoc _ s.dev.sys.steps, Nat.add_sub_cancel]
  case adj =>
    refine does_byWrite Laws.exec_timeAdjWrite hup hlive (if_neg ?_)
    rintro ⟨-, hbad⟩
    rw [Nat.mod_eq_of_lt a.isLt] at hbad
    exact hbad hok
  case unlocks => exact does_onIsland Laws.exec_lockTimeout hup (if_pos hlocked)
  case steers =>
    refine does_onIsland Laws.exec_timeSteer hup ((if_neg ?_).trans ?_)
    · rw [hfree, hsteer, hst, beq_false_of_ne hother]
      decide
    · simp only [hfirst, if_true]

end Sys2Proof.Machine
end

section
/-!
SUPPORT. Settles O52: the start.
-/
namespace Sys2Proof.Machine

variable {s : State} {d : Dev}

/-- The running firmware takes the step that is due. -/
theorem does_startStep {c : Instr} {k : Nat} {f : Dev → Dev} {e : Dev} (he : exec c s = s.on fun d => d.startStep k f) (hup : s.dev.isUp 24 = true)
    (hat : s.dev.stw.running = true ∧ s.dev.stw.start.step = k ∧ s.dev.halted = false) (hf : f s.dev = e) : Does c s e := by
  obtain ⟨hrun, hstep, hlive⟩ := hat
  refine does_onIsland he hup ((if_pos ?_).trans hf)
  rw [hrun, hlive, beq_iff_eq.2 hstep]
  decide

/-- Of a range, one element acts. -/
theorem foldl_range_of_single {β : Type} (f : β → Nat → β) (b : β) {n k : Nat} {p : Nat → Bool} (hp : ∀ i < n, p i = (i == k)) :
    (List.range n).foldl (fun b i => if p i then f b i else b) b = if k < n then f b k else b := by
  induction n with
  | zero => rfl
  | succ n ih =>
    rw [List.range_succ, List.foldl_append, ih fun i hi => hp i (by omega), List.foldl_cons, List.foldl_nil, hp n (by omega)]
    by_cases hk : n = k
    · simp only [hk, Nat.lt_irrefl, Nat.lt_succ_self, beq_self_eq_true, if_false, if_true]
    · have hiff : k < n + 1 ↔ k < n := by omega
      simp only [hiff, beq_false_of_ne hk, Bool.false_eq_true, if_false]

/-- The pseudo-channels that a training names as failed act: none, or one (R544). -/
theorem foldl_failed_none (f : Dev → Nat → Dev) (l : List Nat) :
    l.foldl (fun (d : Dev) pc => if (0 : BitVec 64).getLsbD pc then f d pc else d) d = d := by
  induction l generalizing d with
  | nil => rfl
  | cons pc l ih =>
    have hclear : (0 : BitVec 64).getLsbD pc = false := BitVec.getLsbD_zero
    rw [List.foldl_cons, hclear, if_neg Bool.false_ne_true]
    exact ih

theorem foldl_failed_one (f : Dev → Nat → Dev) (pc : Fin 64) :
    (List.range 64).foldl (fun (d : Dev) i => if (BitVec.ofNat 64 (2 ^ pc.val)).getLsbD i then f d i else d) d = f d pc.val := by
  have hbit : ∀ i < 64, (BitVec.ofNat 64 (2 ^ pc.val)).getLsbD i = (i == pc.val) := by
    intro i hi
    rw [BitVec.getLsbD_ofNat, decide_eq_true hi, Bool.true_and, Nat.testBit_two_pow, Bool.eq_iff_iff, decide_eq_true_iff, beq_iff_eq]
    exact eq_comm
  exact (foldl_range_of_single f d hbit).trans (if_pos pc.isLt)

/-- Settles O52. -/
theorem startUpStepsComplete : Obligations.StartUpStepsComplete := by
  intro s reports n v ports st settings descs hup
  refine ⟨fun hstep hphase hmode htrial => ?active, fun hstep hphase hmode htrial htries => ?trial, fun hstep hphase hmode htrial htries => ?fallsBack,
    fun hstep hphase hmode => ?recovery, fun t ht => ?watchdog, fun hat => ?config, fun hat => ?microcode, fun hat => ?ports, fun hat => ?chrysalis,
    fun hat hleft => ?trained, fun hat pc hleft => ?trainedBut, fun hat => ?pods, fun hat => ?service,
    fun hat => ⟨fun hdue => ?retrain, fun t ht => ?retrainOver, fun hdue => ?run⟩,
    fun x p out h21 h22 hx hchry hpst hdisp hlive hfwd hport => ?forwards⟩
  case active =>
    refine does_onIsland Laws.exec_bootSelect hup ((if_neg ?_).trans ((if_neg (Nat.not_le.2 hmode)).trans ?_))
    · simp only [hstep, hphase, ne_eq, not_true, or_self, not_false_eq_true]
    · simp only [htrial, Bool.not_false, if_true, List.headD_cons]
  case trial =>
    refine does_onIsland Laws.exec_bootSelect hup ((if_neg ?_).trans ((if_neg (Nat.not_le.2 hmode)).trans ?_))
    · simp only [hstep, hphase, ne_eq, not_true, or_self, not_false_eq_true]
    · simp only [htrial, htries, Bool.not_true, Bool.false_eq_true, if_false, List.headD_cons]
  case fallsBack =>
    refine does_onIsland Laws.exec_bootSelect hup ((if_neg ?_).trans ((if_neg (Nat.not_le.2 hmode)).trans ?_))
    · simp only [hstep, hphase, ne_eq, not_true, or_self, not_false_eq_true]
    · simp only [htrial, htries, Bool.not_true, Bool.false_eq_true, if_false, if_true, List.headD_cons]
  case recovery =>
    refine does_onIsland Laws.exec_bootSelect hup ((if_neg ?_).trans (if_pos hmode))
    simp only [hstep, hphase, ne_eq, not_true, or_self, not_false_eq_true]
  case watchdog =>
    refine does_onIsland Laws.exec_bootWatchdog hup ?_
    simp only [ht]
  case config =>
    refine does_startStep Laws.exec_configApply hup hat ?_
    dsimp only
    generalize (if s.dev.readConfig.bootMode = 2 then s.dev.readConfig
      else settings.foldl (fun d x => d.regWrite .steward x.1 x.2.1 x.2.2.toNat 0xFF []) s.dev.readConfig) = e
    cases e.setting 2 2 with
    | none => rfl
    | some v => rfl
  case microcode => exact does_startStep Laws.exec_microcodeLoad hup hat rfl
  case ports => exact does_startStep Laws.exec_portRelease hup hat rfl
  case chrysalis =>
    refine does_startStep Laws.exec_chrysalisStart hup hat ?_
    rw [Dev.loads]
    by_cases hsec : (s.dev.section? 4).isSome = true
    · simp only [hsec, if_true, Bool.true_eq_false, if_false, List.isEmpty_iff]
    · simp only [hsec, Bool.false_eq_true, if_false, if_true]
  case trained =>
    refine does_startStep Laws.exec_hbmTraining hup hat ((if_neg hleft).trans ?_)
    rw [Dev.loads]
    dsimp only
    rw [foldl_failed_none (fun d pc => (d.retirePc pc []).fault 2 0x0B 21 pc), if_neg hleft]
  case trainedBut =>
    intro e he
    refine does_startStep Laws.exec_hbmTraining hup hat ((if_neg hleft).trans ?_)
    rw [Dev.loads]
    dsimp only
    rw [foldl_failed_one (fun d pc => (d.retirePc pc []).fault 2 0x0B 21 pc), if_neg he]
  case pods =>
    refine does_startStep Laws.exec_podLoad hup hat ?_
    rw [Dev.loads]
    by_cases hsec : (s.dev.section? 5).isSome = true
    · by_cases hmode : s.dev.bootMode = 2
      · simp only [hsec, hmode, ne_eq, not_true, false_and, Bool.true_eq_false, if_false, if_true]
      · simp only [hsec, hmode, ne_eq, not_false_eq_true, true_and, Bool.true_eq_false, if_false, if_true, ite_not]
    · simp only [hsec, Bool.false_eq_true, if_false, if_true]
  case service => exact does_startStep Laws.exec_serviceSwitch hup hat rfl
  case retrain =>
    refine does_startStep Laws.exec_retrainGroup hup hat ((if_neg ?_).trans rfl)
    rw [hdue]
    decide
  case retrainOver =>
    refine does_startStep Laws.exec_retrainTimeout hup hat ?_
    simp only [ht]
  case run =>
    refine does_startStep Laws.exec_runEntry hup hat (if_neg ?_)
    rw [hdue]
    decide
  case forwards =>
    refine does_onIsland Laws.exec_chrysalisForward h21 ((Dev.onIsland_up _ _ _ h22).trans ?_)
    simp only [hx, hchry, hpst, hdisp, hlive, hfwd, hport, bne_self_eq_false, Option.isSome_none, Bool.not_true, Bool.or_self, Bool.false_eq_true,
      if_false, if_true]

end Sys2Proof.Machine
end
